-- ==== Sys2Proof/Word.lean ====
section
/-! DEFINITION. The word types of the machine and the values of its arithmetic (R80, R81, R98). -/

namespace Sys2Proof

/-- A byte of any memory (R4). -/
abbrev Byte := BitVec 8
/-- A 16-bit parcel (R57). -/
abbrev Parcel := BitVec 16
/-- A slot word, engine word, literal or CBANK entry (R57, R190). -/
abbrev W32 := BitVec 32
/-- A scalar register or a micro-step (R80, R216). -/
abbrev W64 := BitVec 64
/-- A vector register, 512 bytes (R80). -/
abbrev VReg := BitVec 4096
/-- A lane mask (R80). -/
abbrev KReg := BitVec 1024

/-- The exact value a floating-point bit pattern stands for (R98): a NaN, a signed infinity, or
`(-1)^neg * m * 2^e`; a zero keeps its sign. -/
inductive FVal where
  | nan
  | inf (neg : Bool)
  | fin (neg : Bool) (m : Nat) (e : Int)
deriving DecidableEq, Repr

/-- A value of the weight latch: exact on the float path (R111), an integer on the integer path (R105). -/
inductive Weight where
  | f (x : FVal)
  | i (x : Int)
deriving DecidableEq, Repr

end Sys2Proof
end

