-- ==== Sys2Proof/Machine/Fp.lean ====
section
/-! DEFINITION. Exact values, rounding, conversions and the sums of chapter 05 (R98-R111, R120, R166-R170). -/

namespace Sys2Proof.Machine

open Sys2Proof

/-- FLASHLOG classes as a set: bit 0 invalid, 1 division by zero, 2 overflow, 3 subnormal (R89, R101). -/
abbrev Classes := BitVec 4

/-- The class invalid. -/
def clsInvalid : Classes := 1
/-- The class division by zero. -/
def clsDivZero : Classes := 2
/-- The class overflow. -/
def clsOverflow : Classes := 4
/-- The class subnormal result. -/
def clsSubnormal : Classes := 8

/-- A binary floating-point format (R98): field widths, bias, whether it has infinities, and BF16's flush (R100). -/
structure Fmt where
  ebits : Nat
  fbits : Nat
  bias : Nat
  hasInf : Bool
  flush : Bool
deriving DecidableEq, Repr

/-- FP32. -/
def fmtF32 : Fmt := ⟨8, 23, 127, true, false⟩
/-- FP16. -/
def fmtF16 : Fmt := ⟨5, 10, 15, true, false⟩
/-- BF16. -/
def fmtBF16 : Fmt := ⟨8, 7, 127, true, true⟩
/-- E4M3. -/
def fmtE4M3 : Fmt := ⟨4, 3, 7, false, false⟩
/-- E5M2. -/
def fmtE5M2 : Fmt := ⟨5, 2, 15, true, false⟩

/-- Width in bits. -/
def Fmt.width (f : Fmt) : Nat := 1 + f.ebits + f.fbits
/-- The sign bit's weight. -/
def Fmt.signBit (f : Fmt) : Nat := 2 ^ (f.ebits + f.fbits)
/-- The bits of the canonical NaN (R98). -/
def Fmt.nan (f : Fmt) : Nat :=
  if f.hasInf then (2 ^ f.ebits - 1) * 2 ^ f.fbits + 2 ^ (f.fbits - 1) else f.signBit - 1
/-- The bits of +infinity, in a format that has it. -/
def Fmt.inf (f : Fmt) : Nat := (2 ^ f.ebits - 1) * 2 ^ f.fbits
/-- The bits of the largest finite value. -/
def Fmt.maxFin (f : Fmt) : Nat := if f.hasInf then f.inf - 1 else f.signBit - 2
/-- The exponent of the least subnormal. -/
def Fmt.emin (f : Fmt) : Int := 1 - (f.bias : Int) - f.fbits

/-- The value of a bit pattern (R98, R100). -/
def Fmt.decode (f : Fmt) (x : Nat) : FVal :=
  let neg := x / f.signBit % 2 = 1
  let e := x / 2 ^ f.fbits % 2 ^ f.ebits
  let fr := x % 2 ^ f.fbits
  if f.hasInf && e == 2 ^ f.ebits - 1 then (if fr = 0 then .inf neg else .nan)
  else if !f.hasInf && x % f.signBit == f.signBit - 1 then .nan
  else if e = 0 then .fin neg (if f.flush then 0 else fr) f.emin
  else .fin neg (fr + 2 ^ f.fbits) (f.emin + e - 1)

/-- A pattern with a sign. -/
def Fmt.signed (f : Fmt) (neg : Bool) (mag : Nat) : Nat := if neg then f.signBit + mag else mag

/-- Whether rounding moves the kept part one unit away from zero (R106, R108): kept part y, discarded part rem of 2^sh. -/
def roundsUp (mode : Nat) (w : Nat) (neg : Bool) (y rem sh : Nat) : Bool :=
  match mode with
  | 1 => false
  | 2 => !neg && rem != 0
  | 3 => neg && rem != 0
  | 4 => 2 ^ 16 ≤ (if 16 ≤ sh then rem / 2 ^ (sh - 16) else rem * 2 ^ (16 - sh)) + w
  | _ => 2 ^ sh < 2 * rem || (2 * rem == 2 ^ sh && y % 2 == 1)

/-- Number of bits of a natural number. -/
def bitLen (m : Nat) : Nat := if m = 0 then 0 else Nat.log2 m + 1

/-- round(x, mode, format) of R106-R108 with the classes of R101; w is the random word of SR. A magnitude beyond the largest finite value
that rounds back to it (less than half a unit in RNE, less than a unit in RZ) gives the largest finite value and no class, by R101 and
R106; R107 read to the letter gives infinity and overflow there (log entry 26, DESIGN CHOICE). -/
def Fmt.round (f : Fmt) (mode w : Nat) (x : FVal) : Nat × Classes :=
  match x with
  | .nan => (f.nan, 0)
  | .inf neg => (f.signed neg (if f.hasInf then f.inf else f.maxFin), 0)
  | .fin neg m e =>
    if m = 0 then (f.signed neg 0, 0)
    else
      let q : Int := max f.emin (e + bitLen m - (f.fbits + 1))
      let (mag, up) : Nat × Bool :=
        if q ≤ e then ((q - f.emin).toNat * 2 ^ f.fbits + m * 2 ^ (e - q).toNat, false)
        else
          let sh := min (q - e).toNat (bitLen m + 20)
          let y := m / 2 ^ sh
          let up := roundsUp mode w neg y (m % 2 ^ sh) sh
          ((q - f.emin).toNat * 2 ^ f.fbits + y + up.toNat, up)
      if f.maxFin < mag then
        let toInf := f.hasInf && (match mode with | 1 => false | 2 => !neg | 3 => neg | 4 => up | _ => true)
        (f.signed neg (if toInf then f.inf else f.maxFin), clsOverflow)
      else if mag ≠ 0 ∧ mag < 2 ^ f.fbits then (f.signed neg (if f.flush then 0 else mag), clsSubnormal)
      else (f.signed neg mag, 0)

/-- Whether a value is a NaN. -/
def isNan : FVal → Bool | .nan => true | _ => false
/-- Whether a value is a zero. -/
def isZero : FVal → Bool | .fin _ 0 _ => true | _ => false
/-- Whether a value is an infinity. -/
def isInf : FVal → Bool | .inf _ => true | _ => false
/-- The sign of a value. -/
def isNeg : FVal → Bool | .nan => false | .inf n => n | .fin n _ _ => n

/-- A value with the sign inverted. -/
def fneg : FVal → FVal | .nan => .nan | .inf n => .inf !n | .fin n m e => .fin (!n) m e
/-- A value multiplied by a power of two. -/
def fscale (k : Int) : FVal → FVal | .fin n m e => .fin n m (e + k) | x => x
/-- The value of an integer. -/
def fofInt (x : Int) : FVal := .fin (x < 0) x.natAbs 0

/-- A finite value as a signed multiple of 2^k, for k at most its exponent. -/
def atExp (neg : Bool) (m : Nat) (e k : Int) : Int :=
  let v : Int := (m : Int) * 2 ^ (e - k).toNat
  if neg then -v else v

/-- The exact sum (R99): rdn selects the sign of an exact zero. -/
def faddEx (rdn : Bool) (x y : FVal) : FVal :=
  match x, y with
  | .nan, _ => .nan
  | _, .nan => .nan
  | .inf a, .inf b => if a = b then .inf a else .nan
  | .inf a, _ => .inf a
  | _, .inf b => .inf b
  | .fin n1 m1 e1, .fin n2 m2 e2 =>
    if m1 = 0 ∧ m2 = 0 then .fin (if n1 = n2 then n1 else rdn) 0 0
    else if m1 = 0 then .fin n2 m2 e2
    else if m2 = 0 then .fin n1 m1 e1
    else
      let k := min e1 e2
      let v := atExp n1 m1 e1 k + atExp n2 m2 e2 k
      if v = 0 then .fin rdn 0 0 else .fin (v < 0) v.natAbs k

/-- The exact product (R99). -/
def fmulEx (x y : FVal) : FVal :=
  match x, y with
  | .nan, _ => .nan
  | _, .nan => .nan
  | .inf a, .inf b => .inf (a != b)
  | .inf a, .fin n m _ => if m = 0 then .nan else .inf (a != n)
  | .fin n m _, .inf b => if m = 0 then .nan else .inf (n != b)
  | .fin n1 m1 e1, .fin n2 m2 e2 => .fin (n1 != n2) (m1 * m2) (e1 + e2)

/-- The exact sum of many values: special values by R120's table; an exact zero is negative when every addend is −0 or
when rdn is set (R183). -/
def fsumEx (rdn : Bool) (xs : List FVal) : FVal :=
  if xs.any isNan then .nan
  else if xs.any (fun x => isInf x && isNeg x) then (if xs.any (fun x => isInf x && !isNeg x) then .nan else .inf true)
  else if xs.any isInf then .inf false
  else
    let k := xs.foldl (fun k x => match x with | .fin _ m e => if m = 0 then k else min k e | _ => k) (0 : Int)
    let v := xs.foldl (fun a x => match x with | .fin n m e => if m = 0 then a else a + atExp n m e k | _ => a) (0 : Int)
    if v = 0 then .fin (rdn || xs.all (fun x => isZero x && isNeg x)) 0 0 else .fin (v < 0) v.natAbs k

/-- A is less than B; NaN compares false and the zeros are equal (R137). -/
def flt (x y : FVal) : Bool :=
  match x, y with
  | .nan, _ => false
  | _, .nan => false
  | .inf a, .inf b => a && !b
  | .inf a, _ => a
  | _, .inf b => !b
  | .fin n1 m1 e1, .fin n2 m2 e2 =>
    let k := min e1 e2
    atExp n1 m1 e1 k < atExp n2 m2 e2 k

/-- A equals B (R137). -/
def feq (x y : FVal) : Bool := !isNan x && !isNan y && !flt x y && !flt y x

/-- A is less than B, with −0 below +0 (R135). -/
def fltZ (x y : FVal) : Bool := if isZero x && isZero y then isNeg x && !isNeg y else flt x y

/-- A pattern as an arithmetic operand delivers it: BF16 subnormals flushed (R100, R158). -/
def Fmt.flushed (f : Fmt) (x : Nat) : Nat :=
  match f.decode x with
  | .fin neg 0 _ => f.signed neg 0
  | _ => x

/-- Minimum or maximum (R135, R158): the bits of the operand chosen. -/
def Fmt.minmax (f : Fmt) (mx : Bool) (a b : Nat) : Nat :=
  let x := f.decode a
  let y := f.decode b
  if isNan x then (if isNan y then f.nan else f.flushed b)
  else if isNan y then f.flushed a
  else if (if mx then fltZ x y else fltZ y x) then f.flushed b else f.flushed a

/-- A rounded result, invalid when it is a NaN of operands that are none (R101). -/
def Fmt.deliver (f : Fmt) (mode w : Nat) (ops : List FVal) (x : FVal) : Nat × Classes :=
  let (r, c) := f.round mode w x
  (r, if isNan x && !ops.any isNan then clsInvalid else c)

/-- Addition (R135, R158). -/
def Fmt.add (f : Fmt) (a b : Nat) : Nat × Classes :=
  let x := f.decode a
  let y := f.decode b
  f.deliver 0 0 [x, y] (faddEx false x y)
/-- Subtraction. -/
def Fmt.sub (f : Fmt) (a b : Nat) : Nat × Classes :=
  let x := f.decode a
  let y := f.decode b
  f.deliver 0 0 [x, y] (faddEx false x (fneg y))
/-- Multiplication. -/
def Fmt.mul (f : Fmt) (a b : Nat) : Nat × Classes :=
  let x := f.decode a
  let y := f.decode b
  f.deliver 0 0 [x, y] (fmulEx x y)
/-- A × B + C with one rounding (R136, R159). -/
def Fmt.fma (f : Fmt) (a b c : Nat) : Nat × Classes :=
  let x := f.decode a
  let y := f.decode b
  let z := f.decode c
  f.deliver 0 0 [x, y, z] (faddEx false (fmulEx x y) z)

/-- The integer that a value rounds to by mode (R106); an SR word weighs the first 16 fraction bits (R138). -/
def roundToInt (mode w : Nat) (neg : Bool) (m : Nat) (e : Int) : Int :=
  let v : Nat :=
    if 0 ≤ e then m * 2 ^ e.toNat
    else
      let sh := min (-e).toNat (bitLen m + 20)
      let y := m / 2 ^ sh
      y + (roundsUp mode w neg y (m % 2 ^ sh) sh).toNat
  if neg then -(v : Int) else v

/-- A value delivered to a two's-complement format of b bits (R138, R169): the integer, and the classes. -/
def toIntFmt (b mode w : Nat) (x : FVal) : Int × Classes :=
  let hi : Int := 2 ^ (b - 1) - 1
  let lo : Int := -(2 ^ (b - 1))
  match x with
  | .nan => (0, clsInvalid)
  | .inf neg => (if neg then lo else hi, clsInvalid)
  | .fin neg m e =>
    if 200 < e + bitLen m ∧ m ≠ 0 then (if neg then lo else hi, clsInvalid)
    else
      let r := roundToInt mode w neg m e
      if r < lo then (lo, clsInvalid) else if hi < r then (hi, clsInvalid) else (r, 0)

/-! ### Format codes (R166) and the 4-bit columns (R103) -/

/-- Width of a format code, 0 for a reserved one. -/
def codeWidth (c : Nat) : Nat :=
  match c with | 0 | 5 => 32 | 1 | 2 | 6 => 16 | 3 | 4 | 7 => 8 | 8 | 9 | 10 | 11 => 4 | _ => 0
/-- Whether a code names a floating-point class. -/
def codeFloat (c : Nat) : Bool := c ≤ 4 || (9 ≤ c && c ≤ 11)
/-- The binary format of codes 0 to 4. -/
def codeFmt (c : Nat) : Fmt := match c with | 0 => fmtF32 | 1 => fmtF16 | 2 => fmtBF16 | 3 => fmtE4M3 | _ => fmtE5M2

/-- A column: the exponent of its unit, and (magnitude in units, code) for each sign, from zero upward (R103). -/
def column (c : Nat) : Int × List (Nat × Nat) × List (Nat × Nat) :=
  match c with
  | 9 => (-1, [(0, 0), (1, 1), (2, 2), (3, 3), (4, 4), (6, 5), (8, 6), (12, 7)],
      [(0, 8), (1, 9), (2, 10), (3, 11), (4, 12), (6, 13), (8, 14), (12, 15)])
  | 10 => (-3, [(0, 0), (1, 1), (2, 2), (4, 3), (8, 4), (16, 5), (32, 6), (64, 7)],
      [(0, 0), (1, 9), (2, 10), (4, 11), (8, 12), (16, 13), (32, 14), (64, 15), (128, 8)])
  | _ => (0, [(0, 0), (1, 1), (2, 2), (3, 3), (4, 4), (8, 5), (16, 6), (32, 7)],
      [(0, 8), (1, 9), (2, 10), (3, 11), (4, 12), (8, 13), (16, 14), (32, 15)])

/-- The value of a 4-bit code in a float column (R103). -/
def decode4 (c code : Nat) : FVal :=
  let (u, ps, ns) := column c
  match ps.find? (fun p => p.2 = code) with
  | some (m, _) => .fin false m u
  | none => match ns.find? (fun p => p.2 = code) with
    | some (m, _) => .fin true m u
    | none => .nan

/-- The two's-complement reading of a pattern. -/
def sgn (b x : Nat) : Int := (BitVec.ofNat b x).toInt

/-- The value of an element of a format code (R166). -/
def decodeCode (c x : Nat) : FVal :=
  match c with
  | 0 | 1 | 2 | 3 | 4 => (codeFmt c).decode x
  | 5 | 6 | 7 | 8 => fofInt (sgn (codeWidth c) x)
  | _ => decode4 c x

/-- The greatest column entry not above, and the next one, for a magnitude m × 2^e. -/
def bracket (u : Int) (m : Nat) (e : Int) : List (Nat × Nat) → (Nat × Nat) × Option (Nat × Nat)
  | [] => ((0, 0), none)
  | [p] => (p, none)
  | p :: q :: r =>
    let k := min u e
    if atExp false m e k < atExp false q.1 u k then (p, some q) else bracket u m e (q :: r)

/-- Rounding into a 4-bit column (R170). -/
def round4 (c mode w : Nat) (x : FVal) : Nat × Classes :=
  let (u, ps, ns) := column c
  match x with
  | .nan => (0, clsInvalid)
  | .inf neg => (((if neg then ns else ps).getLastD (0, 0)).2, 0)
  | .fin neg m e =>
    let l := if neg then ns else ps
    match bracket u m e l with
    | (p, none) =>
      let k := min u e
      (p.2, if atExp false p.1 u k < atExp false m e k then clsOverflow else 0)
    | (p, some q) =>
      let k := min u e
      let v := (atExp false m e k).toNat
      let y0 := (atExp false p.1 u k).toNat
      let y1 := (atExp false q.1 u k).toNat
      let up : Bool :=
        if v = y0 then false
        else match mode with
          | 1 => false
          | 2 => !neg
          | 3 => neg
          | 4 => 2 ^ 16 ≤ 2 ^ 16 * (v - y0) / (y1 - y0) + w
          | _ => y1 - v < v - y0 || (y1 - v == v - y0 && q.2 % 2 == 0)
      let r := if up then q else p
      (r.2, if c = 9 ∧ r.1 = 1 then clsSubnormal else 0)

/-- scaled() of R110 into a binary format, the source's infinities read as the largest finite value. -/
def Fmt.scaled (f : Fmt) (mode w : Nat) (srcMax : FVal) (e : Int) (x : FVal) : Nat × Classes :=
  match x with
  | .nan => (f.nan, 0)
  | _ =>
    let fromInf := isInf x
    let y := fscale e (match x with
      | .inf n => (match srcMax with | .fin _ m k => .fin n m k | v => v)
      | v => v)
    let (r, c) := f.round mode w y
    let r' := if f.hasInf && r % f.signBit == f.inf then r - 1 else r
    (r', if fromInf then 0 else c)

/-- cvt(x) of R169 and R170 from code src to code dst; scale is the exponent when S = 1; w is the random word. -/
def cvt (src dst mode : Nat) (scale : Option Int) (w : Nat) (x : Nat) : Nat × Classes :=
  let v := decodeCode src x
  let y := match scale with | some e => fscale e v | none => v
  match dst with
  | 0 | 1 | 2 | 3 | 4 =>
    let f := codeFmt dst
    match scale with
    | some e => f.scaled mode w ((codeFmt src).decode (codeFmt src).maxFin) e v
    | none => f.round mode w v
  | 5 | 6 | 7 | 8 =>
    let b := codeWidth dst
    let (r, c) := toIntFmt b mode w y
    ((BitVec.ofInt b r).toNat, c)
  | _ => round4 dst mode w y

end Sys2Proof.Machine
end

