-- ==== Sys2Proof/Config.lean ====
section
/-! DEFINITION. What an implementation fixes and the free values: each is opaque, so nothing can be proved of its value. -/

namespace Sys2Proof.Config

/-- Cycles an untimed message takes inside the package (R17, R294: untimed). Log entry 5. -/
opaque deliveryCycles : Nat → Nat
/-- Cycles a message between devices takes beyond the minimum of R334. Log entry 5. -/
opaque fabricCycles : Nat → Nat
/-- Cycles a collective takes to read its sources and to complete (R326). Log entry 15. -/
opaque collectiveCycles : Nat → Nat
/-- Whether an operation that took code 11 had its effect at the target (R425). Log entry 19. -/
opaque lateEffect : Nat → Bool
/-- Cycles that a step of power-on takes (R347). Log entry 4. -/
opaque bringUpCycles : Nat → Nat
/-- The status that another device returns for a forwarded command (R338). Log entry 14. -/
opaque deviceStatus : Nat → BitVec 8
/-- The ROM's contents (R347, step 1). Log entry 4. -/
opaque romImage : List (BitVec 8)
/-- The fused digest of the ROM (R347, step 1). Log entry 4. -/
opaque fusedRomDigest : List (BitVec 8)
/-- The base-die firmware of stack k in on-package flash, with its trailer (R347, R348). Log entry 4. -/
opaque stackImage : Nat → List (BitVec 8)
/-- The Lenoc root key in ROM (R348). Log entry 4. -/
opaque rootKey : List (BitVec 8)
/-- The fused digest of the root key (R348). Log entry 4. -/
opaque fusedKeyDigest : List (BitVec 8)
/-- The private device identity key (R351). Log entry 12. -/
opaque identityKey : Nat
/-- The secret number of the n-th signature (R351). Log entry 12. -/
opaque signatureSecret : Nat → Nat
/-- The accelerator identifier that link training returns (R347, step 4). Log entry 4. -/
opaque trainedDevice : BitVec 10
/-- Whether UALink station i trains (R347, step 4). Log entry 4. -/
opaque stationTrains : Nat → Bool
/-- The beats of a burst that the capture of a lane gets wrong (R437, R441): analogue. Log entry 4. -/
opaque beatErrors : Nat → BitVec 16
/-- What the error-correction bits say of a block that a pattern WR has written (R441). Log entry 23. -/
opaque patternMark : Nat → Fin 3
/-- The rate correction, in parts per 10^9, that the time unit chooses (R339). Log entry 9. -/
opaque ptpRate : Nat → Int
/-- Bytes of the attestation report that no rule gives (R351). Log entry 12. -/
opaque attestByte : Nat → BitVec 8
/-- Bytes of the context image whose packing no rule gives (R421). Log entry 13. -/
opaque contextByte : Nat → BitVec 8
/-- Cycles a context save or restore of core c takes (R421: at most 36,000). Log entry 13. -/
opaque contextCycles : Nat → Nat
/-- Whether this device is strapped as the bridge of its group (R337). Log entry 14. -/
opaque isBridge : Bool
/-- Whether a byte whose read or write is unordered shows the later value (R296). Log entry 6. -/
opaque unorderedByte : Nat → Bool
/-- The rank of a die in the order of an update (R304: not stated). Log entry 22. -/
opaque dieRank : Nat → Nat
/-- Channels the base-die core finds and corrects in a slot (R408). Log entry 16. -/
opaque scrubFinds : Nat → Bool
/-- Whether a base-die core reports its stack's temperature in a slot (R352), and the temperature. Log entry 16. -/
opaque tempReport : Nat → Bool
/-- See tempReport. -/
opaque stackTemp : Nat → BitVec 8
/-- Cycles a down station takes to retrain (R423). Log entry 5. -/
opaque stationRetrainCycles : Nat → Nat

/-- Whether a switch route to a device exists (R413). Log entry 14. -/
opaque routeExists : Nat → Bool
/-- Whether a hop of a message between devices needs more than one retry (R424). Log entry 5. -/
opaque extraRetries : Nat → Bool
/-- The code with which a core of another device answers an operation (R268, R413). Log entry 14. -/
opaque deviceCode : Nat → BitVec 4
/-- A byte that a GET returns from another device. Log entry 14. -/
opaque deviceByte : Nat → BitVec 8
/-- The tag that another device grants (R287, R289). Log entry 14. -/
opaque deviceTag : Nat → BitVec 16
/-- Where in the chunk store the accumulator of a group stands (R332), in units of 8 bytes. Log entry 15. -/
opaque accumulatorAt : Nat → Nat
/-- Whether the members of a call on other devices give equal blocks (R426). Log entry 15. -/
opaque peersAgree : Nat → Bool
/-- A partial result that another device contributes to a collective (R329). Log entry 15. -/
opaque deviceSum : Nat → BitVec 32

end Sys2Proof.Config
end

