-- ==== Sys2Proof/Syntax.lean ====
section
/-! DEFINITION. The abstract syntax: every row of spec/opcode_table.json is one constructor of Instr. -/

namespace Sys2Proof

/-- A guard predicate and its inversion (R69). -/
structure Guard where
  q : Fin 8
  inv : Bool
deriving DecidableEq, Repr

/-- An operand selector of R74; the reserved values 37 to 39 have no constructor. -/
inductive Sel where
  | reg (r : Fin 32)
  | lit (n : Fin 3)
  | zero
  | one
  | cb (n : Fin 24)
deriving DecidableEq, Repr

/-- A predicate selector of R133. -/
inductive PSel where
  | q (n : Fin 8)
  | zero
  | one
deriving DecidableEq, Repr

/-- A mask selector of R173. -/
inductive KSel where
  | k (n : Fin 8)
  | zero
  | one
deriving DecidableEq, Repr

/-- Integer element types of a vector variant (R153). -/
inductive IType where
  | i32 | i16 | i8
deriving DecidableEq, Repr

/-- Floating-point element types of a vector variant (R153). -/
inductive FType where
  | f32 | f16 | bf16
deriving DecidableEq, Repr

/-- Element widths named by a variant (R163, R175, R200). -/
inductive Width where
  | w32 | w16 | w8 | w4
deriving DecidableEq, Repr

/-- The load types of LD (R197). -/
inductive LdType where
  | z8 | z16 | z32 | d64 | x8 | x16 | x32
deriving DecidableEq, Repr

/-- The store widths of ST (R198). -/
inductive StType where
  | n8 | n16 | n32 | n64
deriving DecidableEq, Repr

/-- The path classes of XFENCE (R294, R298): timed, network, collective, migration. -/
inductive PathClass where
  | t | n | c | m
deriving DecidableEq, Repr

/-- The nine word positions of a bundle, in the order of R57. -/
inductive Slot where
  | s0 | s1 | v0 | v1 | v2 | f | m0 | m1 | eng
deriving DecidableEq, Repr

/-- The engine queues (R320) and the collective queue (R326). -/
inductive QueueId where
  | matrix | copy | remote | chain | coll
deriving DecidableEq, Repr

/-- The word spaces in which an encoding stands: the nine slots (R66), the routine store (R221), chain memory (R244). -/
inductive Space where
  | scalar | vector | special | memory | engine | micro | chain | event
deriving DecidableEq, Repr

/-- The instructions: one constructor for every row of the opcode table. The rows that
are events or host commands act on the core in focus and on the focus argument (Machine.Focus): an operation, a command
slot, an entry. -/
inductive Instr where
  /-- R125. -/
  | add (g : Guard) (d : Fin 32) (a b : Sel)
  /-- R125. -/
  | sub (g : Guard) (d : Fin 32) (a b : Sel)
  /-- R125. -/
  | and (g : Guard) (d : Fin 32) (a b : Sel)
  /-- R125. -/
  | or (g : Guard) (d : Fin 32) (a b : Sel)
  /-- R125. -/
  | xor (g : Guard) (d : Fin 32) (a b : Sel)
  /-- R125. -/
  | andn (g : Guard) (d : Fin 32) (a b : Sel)
  /-- R125. -/
  | min (g : Guard) (d : Fin 32) (a b : Sel)
  /-- R125. -/
  | max (g : Guard) (d : Fin 32) (a b : Sel)
  /-- R125. -/
  | minl (g : Guard) (d : Fin 32) (a b : Sel)
  /-- R125. -/
  | maxl (g : Guard) (d : Fin 32) (a b : Sel)
  /-- R126. -/
  | shl (g : Guard) (d : Fin 32) (a b : Sel)
  /-- R126. -/
  | shr (g : Guard) (d : Fin 32) (a b : Sel)
  /-- R126. -/
  | sra (g : Guard) (d : Fin 32) (a b : Sel)
  /-- R126. -/
  | rol (g : Guard) (d : Fin 32) (a b : Sel)
  /-- R127. -/
  | mul (g : Guard) (d : Fin 32) (a b : Sel)
  /-- R127. -/
  | mulh (g : Guard) (d : Fin 32) (a b : Sel)
  /-- R127. -/
  | mulhl (g : Guard) (d : Fin 32) (a b : Sel)
  /-- R128. -/
  | extr (g : Guard) (d : Fin 32) (a b : Sel)
  /-- R128. -/
  | ins (g : Guard) (d : Fin 32) (a b : Sel)
  /-- R128. -/
  | clz (g : Guard) (d : Fin 32) (a : Sel)
  /-- R128. -/
  | ctz (g : Guard) (d : Fin 32) (a : Sel)
  /-- R128. -/
  | popc (g : Guard) (d : Fin 32) (a : Sel)
  /-- R128. -/
  | brev (g : Guard) (d : Fin 32) (a : Sel)
  /-- R129. -/
  | addsh (g : Guard) (d : Fin 32) (a b : Sel) (n : Fin 8)
  /-- R130. -/
  | addi (g : Guard) (d : Fin 32) (a : Sel) (imm : BitVec 11)
  /-- R130. -/
  | andi (g : Guard) (d : Fin 32) (a : Sel) (imm : BitVec 11)
  /-- R130. -/
  | ori (g : Guard) (d : Fin 32) (a : Sel) (imm : BitVec 11)
  /-- R130. -/
  | xori (g : Guard) (d : Fin 32) (a : Sel) (imm : BitVec 11)
  /-- R130. -/
  | shli (g : Guard) (d : Fin 32) (a : Sel) (n : Fin 64)
  /-- R130. -/
  | shri (g : Guard) (d : Fin 32) (a : Sel) (n : Fin 64)
  /-- R130. -/
  | srai (g : Guard) (d : Fin 32) (a : Sel) (n : Fin 64)
  /-- R131. -/
  | movi (d : Fin 32) (imm : BitVec 20)
  /-- R131. -/
  | movhi (d : Fin 32) (imm : BitVec 20)
  /-- R131. -/
  | addl (d : Fin 32) (imm : BitVec 20)
  /-- R132. -/
  | cmpeq (g : Guard) (d : Fin 8) (a b : Sel)
  /-- R132. -/
  | cmpne (g : Guard) (d : Fin 8) (a b : Sel)
  /-- R132. -/
  | cmplt (g : Guard) (d : Fin 8) (a b : Sel)
  /-- R132. -/
  | cmple (g : Guard) (d : Fin 8) (a b : Sel)
  /-- R132. -/
  | cmplo (g : Guard) (d : Fin 8) (a b : Sel)
  /-- R132. -/
  | cmpls (g : Guard) (d : Fin 8) (a b : Sel)
  /-- R132. -/
  | cmpeqi (g : Guard) (d : Fin 8) (a : Sel) (imm : BitVec 11)
  /-- R132. -/
  | cmplti (g : Guard) (d : Fin 8) (a : Sel) (imm : BitVec 11)
  /-- R132. -/
  | cmploi (g : Guard) (d : Fin 8) (a : Sel) (imm : BitVec 11)
  /-- R133. -/
  | pand (g : Guard) (d : Fin 8) (a b : PSel)
  /-- R133. -/
  | por (g : Guard) (d : Fin 8) (a b : PSel)
  /-- R133. -/
  | pxor (g : Guard) (d : Fin 8) (a b : PSel)
  /-- R133. -/
  | pandn (g : Guard) (d : Fin 8) (a b : PSel)
  /-- R134. -/
  | mov (g : Guard) (d : Fin 32) (a : Sel)
  /-- R134. -/
  | pkq (g : Guard) (d : Fin 32)
  /-- R134. -/
  | upkq (g : Guard) (a : Sel)
  /-- R135. -/
  | fadd (g : Guard) (d : Fin 32) (a b : Sel)
  /-- R135. -/
  | fsub (g : Guard) (d : Fin 32) (a b : Sel)
  /-- R135. -/
  | fmul (g : Guard) (d : Fin 32) (a b : Sel)
  /-- R135. -/
  | fmin (g : Guard) (d : Fin 32) (a b : Sel)
  /-- R135. -/
  | fmax (g : Guard) (d : Fin 32) (a b : Sel)
  /-- R135. -/
  | fabs (g : Guard) (d : Fin 32) (a : Sel)
  /-- R135. -/
  | fneg (g : Guard) (d : Fin 32) (a : Sel)
  /-- R136. -/
  | fma (g : Guard) (d : Fin 32) (a b : Sel)
  /-- R136. -/
  | fmaD (g : Guard) (d : Fin 32) (a b : Sel)
  /-- R137. -/
  | fcmpeq (g : Guard) (d : Fin 8) (a b : Sel)
  /-- R137. -/
  | fcmplt (g : Guard) (d : Fin 8) (a b : Sel)
  /-- R137. -/
  | fcmple (g : Guard) (d : Fin 8) (a b : Sel)
  /-- R137. -/
  | fcmpun (g : Guard) (d : Fin 8) (a b : Sel)
  /-- R138; c is the control word. -/
  | fcvtI64F32 (g : Guard) (d : Fin 32) (a c : Sel)
  /-- R138; c is the control word. -/
  | fcvtF32I64 (g : Guard) (d : Fin 32) (a c : Sel)
  /-- R138; c is the control word. -/
  | fcvtF16F32 (g : Guard) (d : Fin 32) (a c : Sel)
  /-- R138; c is the control word. -/
  | fcvtBf16F32 (g : Guard) (d : Fin 32) (a c : Sel)
  /-- R138; c is the control word. -/
  | fcvtF32F16 (g : Guard) (d : Fin 32) (a c : Sel)
  /-- R138; c is the control word. -/
  | fcvtF32Bf16 (g : Guard) (d : Fin 32) (a c : Sel)
  /-- R139. -/
  | fmovi (d : Fin 32) (imm : BitVec 20)
  /-- R139. -/
  | faddi (d : Fin 32) (imm : BitVec 20)
  /-- R139. -/
  | fmuli (d : Fin 32) (imm : BitVec 20)
  /-- R143. -/
  | br (g : Guard) (off : BitVec 22)
  /-- R143. -/
  | call (g : Guard) (off : BitVec 22)
  /-- R144. -/
  | jr (g : Guard) (a : Sel)
  /-- R144. -/
  | jalr (g : Guard) (d : Fin 32) (a : Sel)
  /-- R145. -/
  | lcset (g : Guard) (a : Sel) (e : Fin 4)
  /-- R146. -/
  | loop (g : Guard) (off : BitVec 22)
  /-- R147. -/
  | nopw (g : Guard) (a : Sel) (imm : BitVec 11)
  /-- R148. -/
  | waitt (g : Guard) (a b : Sel)
  /-- R149. -/
  | rdtime (g : Guard) (d : Fin 32)
  /-- R149. -/
  | rdtimeFrac (g : Guard) (d : Fin 32)
  /-- R150. -/
  | rdcad (g : Guard) (d : Fin 32)
  /-- R150. -/
  | rdpcyc (g : Guard) (d : Fin 32)
  /-- R150. -/
  | rdcore (g : Guard) (d : Fin 32)
  /-- R150. -/
  | flog (g : Guard) (d : Fin 32)
  /-- R151. -/
  | setcb (g : Guard) (a : Sel)
  /-- R151. -/
  | cbwr (g : Guard) (a b : Sel)
  /-- R375. -/
  | trap (g : Guard) (imm : BitVec 11)
  /-- R376. -/
  | rfd (g : Guard)
  /-- R374. -/
  | rdtrap (g : Guard) (d : Fin 32) (n : Fin 3)
  /-- R374. -/
  | settv (g : Guard) (a : Sel)
  /-- R298. -/
  | xfence (g : Guard) (p q : PathClass)
  /-- R157. -/
  | vadd (g : Guard) (d : Fin 32) (a b : Sel) (k : Fin 8) (t : IType)
  /-- R157. -/
  | vsub (g : Guard) (d : Fin 32) (a b : Sel) (k : Fin 8) (t : IType)
  /-- R157. -/
  | vmul (g : Guard) (d : Fin 32) (a b : Sel) (k : Fin 8) (t : IType)
  /-- R157. -/
  | vmin (g : Guard) (d : Fin 32) (a b : Sel) (k : Fin 8) (t : IType)
  /-- R157. -/
  | vmax (g : Guard) (d : Fin 32) (a b : Sel) (k : Fin 8) (t : IType)
  /-- R157. -/
  | vminl (g : Guard) (d : Fin 32) (a b : Sel) (k : Fin 8) (t : IType)
  /-- R157. -/
  | vmaxl (g : Guard) (d : Fin 32) (a b : Sel) (k : Fin 8) (t : IType)
  /-- R157. -/
  | vand (g : Guard) (d : Fin 32) (a b : Sel) (k : Fin 8) (t : IType)
  /-- R157. -/
  | vor (g : Guard) (d : Fin 32) (a b : Sel) (k : Fin 8) (t : IType)
  /-- R157. -/
  | vxor (g : Guard) (d : Fin 32) (a b : Sel) (k : Fin 8) (t : IType)
  /-- R157. -/
  | vshl (g : Guard) (d : Fin 32) (a b : Sel) (k : Fin 8) (t : IType)
  /-- R157. -/
  | vshr (g : Guard) (d : Fin 32) (a b : Sel) (k : Fin 8) (t : IType)
  /-- R157. -/
  | vsra (g : Guard) (d : Fin 32) (a b : Sel) (k : Fin 8) (t : IType)
  /-- R157. -/
  | vadds (g : Guard) (d : Fin 32) (a b : Sel) (k : Fin 8) (t : IType)
  /-- R157. -/
  | vsubs (g : Guard) (d : Fin 32) (a b : Sel) (k : Fin 8) (t : IType)
  /-- R158. -/
  | vfadd (g : Guard) (d : Fin 32) (a b : Sel) (k : Fin 8) (t : FType)
  /-- R158. -/
  | vfsub (g : Guard) (d : Fin 32) (a b : Sel) (k : Fin 8) (t : FType)
  /-- R158. -/
  | vfmul (g : Guard) (d : Fin 32) (a b : Sel) (k : Fin 8) (t : FType)
  /-- R158. -/
  | vfma (g : Guard) (d : Fin 32) (a b : Sel) (k : Fin 8) (t : FType)
  /-- R158. -/
  | vfmad (g : Guard) (d : Fin 32) (a b : Sel) (k : Fin 8) (t : FType)
  /-- R158. -/
  | vfmin (g : Guard) (d : Fin 32) (a b : Sel) (k : Fin 8) (t : FType)
  /-- R158. -/
  | vfmax (g : Guard) (d : Fin 32) (a b : Sel) (k : Fin 8) (t : FType)
  /-- R158. -/
  | vfabs (g : Guard) (d : Fin 32) (a : Sel) (k : Fin 8) (t : FType)
  /-- R158. -/
  | vfneg (g : Guard) (d : Fin 32) (a : Sel) (k : Fin 8) (t : FType)
  /-- R160. -/
  | vaddi (g : Guard) (d : Fin 32) (a : Sel) (imm : BitVec 11)
  /-- R160. -/
  | vshli (g : Guard) (d : Fin 32) (a : Sel) (n : Fin 32)
  /-- R160. -/
  | vshri (g : Guard) (d : Fin 32) (a : Sel) (n : Fin 32)
  /-- R160. -/
  | vsrai (g : Guard) (d : Fin 32) (a : Sel) (n : Fin 32)
  /-- R160. -/
  | vandi (g : Guard) (d : Fin 32) (a : Sel) (imm : BitVec 11)
  /-- R161. -/
  | vfmovi (d : Fin 32) (imm : BitVec 20)
  /-- R161. -/
  | vfaddi (d : Fin 32) (imm : BitVec 20)
  /-- R161. -/
  | vfmuli (d : Fin 32) (imm : BitVec 20)
  /-- R161. -/
  | vmovi (d : Fin 32) (imm : BitVec 20)
  /-- R162. -/
  | vcmpeq (g : Guard) (d : Fin 8) (a b : Sel) (k : Fin 8) (t : IType)
  /-- R162. -/
  | vcmplt (g : Guard) (d : Fin 8) (a b : Sel) (k : Fin 8) (t : IType)
  /-- R162. -/
  | vcmple (g : Guard) (d : Fin 8) (a b : Sel) (k : Fin 8) (t : IType)
  /-- R162. -/
  | vfcmpeq (g : Guard) (d : Fin 8) (a b : Sel) (k : Fin 8) (t : FType)
  /-- R162. -/
  | vfcmplt (g : Guard) (d : Fin 8) (a b : Sel) (k : Fin 8) (t : FType)
  /-- R162. -/
  | vfcmple (g : Guard) (d : Fin 8) (a b : Sel) (k : Fin 8) (t : FType)
  /-- R162. -/
  | vfcmpun (g : Guard) (d : Fin 8) (a b : Sel) (k : Fin 8) (t : FType)
  /-- R163. -/
  | vsel (g : Guard) (d : Fin 32) (a b : Sel) (k : Fin 8) (w : Width)
  /-- R163. -/
  | vmov (g : Guard) (d : Fin 32) (a : Sel) (k : Fin 8) (w : Width)
  /-- R164; c is the control word. -/
  | vcvtf (g : Guard) (d : Fin 32) (a c : Sel) (k : Fin 8)
  /-- R164; c is the control word. -/
  | vcvti (g : Guard) (d : Fin 32) (a c : Sel) (k : Fin 8)
  /-- R164; c is the control word. -/
  | vcvtif (g : Guard) (d : Fin 32) (a c : Sel) (k : Fin 8)
  /-- R164; c is the control word. -/
  | vwiden (g : Guard) (d : Fin 32) (a c : Sel) (k : Fin 8)
  /-- R164; c is the control word. -/
  | vnarrow (g : Guard) (d : Fin 32) (a c : Sel) (k : Fin 8)
  /-- R174. -/
  | kand (g : Guard) (d : Fin 8) (a b : KSel)
  /-- R174. -/
  | kor (g : Guard) (d : Fin 8) (a b : KSel)
  /-- R174. -/
  | kxor (g : Guard) (d : Fin 8) (a b : KSel)
  /-- R174. -/
  | kandn (g : Guard) (d : Fin 8) (a b : KSel)
  /-- R175. -/
  | ksetFirst (g : Guard) (d : Fin 8) (a : Sel) (w : Width)
  /-- R175. -/
  | ksetNz (g : Guard) (d : Fin 8) (a : Sel) (w : Width)
  /-- R175. -/
  | ksetNeg (g : Guard) (d : Fin 8) (a : Sel) (w : Width)
  /-- R179. -/
  | vperm (g : Guard) (d : Fin 32) (a b : Sel) (k : Fin 8) (w : Width)
  /-- R180, R181; c is the control word. -/
  | vshuf (g : Guard) (d : Fin 32) (a c : Sel) (k : Fin 8) (w : Width)
  /-- R180, R181; c is the control word. -/
  | vrot (g : Guard) (d : Fin 32) (a c : Sel) (k : Fin 8) (w : Width)
  /-- R180, R181; c is the control word. -/
  | vbcst (g : Guard) (d : Fin 32) (a c : Sel) (k : Fin 8) (w : Width)
  /-- R182; v is the variant, read as a type by bit F of the control word c. -/
  | vscan (g : Guard) (d : Fin 32) (a c : Sel) (k : Fin 8) (v : Fin 3)
  /-- R183. -/
  | vredf (g : Guard) (d : Fin 32) (a c : Sel) (k : Fin 8) (t : FType)
  /-- R184. -/
  | vredi (g : Guard) (d : Fin 32) (a c : Sel) (k : Fin 8) (t : IType)
  /-- R186. -/
  | exp2 (g : Guard) (d : Fin 32) (a : Sel) (k : Fin 8)
  /-- R186. -/
  | log2 (g : Guard) (d : Fin 32) (a : Sel) (k : Fin 8)
  /-- R186. -/
  | sqrt (g : Guard) (d : Fin 32) (a : Sel) (k : Fin 8)
  /-- R186. -/
  | sin (g : Guard) (d : Fin 32) (a : Sel) (k : Fin 8)
  /-- R186. -/
  | cos (g : Guard) (d : Fin 32) (a : Sel) (k : Fin 8)
  /-- R186. -/
  | tanh (g : Guard) (d : Fin 32) (a : Sel) (k : Fin 8)
  /-- R186. -/
  | sigm (g : Guard) (d : Fin 32) (a : Sel) (k : Fin 8)
  /-- R187. -/
  | rcp (g : Guard) (d : Fin 32) (a : Sel) (k : Fin 8)
  /-- R187. -/
  | rsq (g : Guard) (d : Fin 32) (a : Sel) (k : Fin 8)
  /-- R188. -/
  | rcpnr (g : Guard) (d : Fin 32) (a b : Sel) (k : Fin 8)
  /-- R188. -/
  | rsqnr (g : Guard) (d : Fin 32) (a b : Sel) (k : Fin 8)
  /-- R189. -/
  | vrand (g : Guard) (d : Fin 32) (k : Fin 8)
  /-- R189. -/
  | vrandSeed (g : Guard) (a : Fin 32)
  /-- R197. -/
  | ld (g : Guard) (d : Fin 32) (a b : Sel) (t : LdType)
  /-- R198. -/
  | st (g : Guard) (d : Fin 32) (a b : Sel) (t : StType)
  /-- R199. -/
  | ldi (g : Guard) (d : Fin 32) (a : Sel) (imm : BitVec 11)
  /-- R199. -/
  | sti (g : Guard) (d : Fin 32) (a : Sel) (imm : BitVec 11)
  /-- R200. -/
  | vld (g : Guard) (d : Fin 32) (a b : Sel) (k : Fin 8) (w : Width)
  /-- R200. -/
  | vst (g : Guard) (d : Fin 32) (a b : Sel) (k : Fin 8) (w : Width)
  /-- R201. -/
  | vldi (g : Guard) (d : Fin 32) (a : Sel) (imm : BitVec 11)
  /-- R201. -/
  | vsti (g : Guard) (d : Fin 32) (a : Sel) (imm : BitVec 11)
  /-- R202. -/
  | kld (g : Guard) (d : Fin 8) (a b : Sel) (w : Width)
  /-- R202. -/
  | kst (g : Guard) (d : Fin 8) (a b : Sel) (w : Width)
  /-- R203, R205. -/
  | vlds (g : Guard) (d : Fin 32) (a b : Sel) (k : Fin 8) (p : Fin 4)
  /-- R203, R205. -/
  | vsts (g : Guard) (d : Fin 32) (a b : Sel) (k : Fin 8) (p : Fin 4)
  /-- R203, R205. -/
  | vldx (g : Guard) (d : Fin 32) (a : Sel) (b : Fin 32) (k : Fin 8) (p : Fin 4)
  /-- R203, R205. -/
  | vstx (g : Guard) (d : Fin 32) (a : Sel) (b : Fin 32) (k : Fin 8) (p : Fin 4)
  /-- R206. -/
  | vldb (g : Guard) (d : Fin 32) (a b : Sel) (k : Fin 8) (int : Bool)
  /-- R232. -/
  | mset (g : Guard) (o : BitVec 12) (a : Fin 32) (k : Fin 8)
  /-- R233-R235. -/
  | mcall (g : Guard) (o : BitVec 12) (a b : Fin 32)
  /-- R233-R235. -/
  | mload (g : Guard) (o : BitVec 12) (a b : Fin 32)
  /-- R233-R235. -/
  | cpyaSpm (g : Guard) (o : BitVec 12) (a b : Fin 32)
  /-- R233-R235. -/
  | cpyaAcc (g : Guard) (o : BitVec 12) (a b : Fin 32)
  /-- R242. -/
  | tlgo (g : Guard) (o : BitVec 12) (a b : Fin 32)
  /-- R279. -/
  | get (g : Guard) (o : BitVec 12) (a b : Fin 32)
  /-- R279. -/
  | put (g : Guard) (o : BitVec 12) (a b : Fin 32)
  /-- R279. -/
  | putMc (g : Guard) (o : BitVec 12) (a b : Fin 32)
  /-- R279. -/
  | racc (g : Guard) (o : BitVec 12) (a b : Fin 32)
  /-- R285. -/
  | wpost (g : Guard) (a : Fin 32)
  /-- R287, R288. -/
  | wstart (g : Guard) (o : BitVec 12) (a b : Fin 32)
  /-- R287, R288. -/
  | wcompl (g : Guard) (o : BitVec 12) (a b : Fin 32)
  /-- R286. -/
  | wwait (g : Guard) (a : Fin 32)
  /-- R289. -/
  | wlock (g : Guard) (o : BitVec 12) (a b : Fin 32)
  /-- R289. -/
  | wunlock (g : Guard) (o : BitVec 12) (a b : Fin 32)
  /-- R290. -/
  | hwait (g : Guard) (h : Fin 16) (vis : Bool)
  /-- R291. -/
  | htest (g : Guard) (d : Fin 32) (h : Fin 16) (clr : Bool)
  /-- R325. -/
  | coll (g : Guard) (o : BitVec 12) (a : Fin 32) (h : Fin 16)
  /-- R318. -/
  | launch (g : Guard) (a d : Fin 32)
  /-- R34. -/
  | cadv (g : Guard) (a b : Fin 32)
  /-- R34. -/
  | cadvEnd (g : Guard) (a b : Fin 32)
  /-- R49. -/
  | barQuad (g : Guard)
  /-- R49. -/
  | barDie (g : Guard)
  /-- R222. -/
  | mnop (n : BitVec 16)
  /-- R222. -/
  | mseta (k : Fin 8) (imm : BitVec 32)
  /-- R222. -/
  | madda (k : Fin 8) (imm : BitVec 32)
  /-- R222. -/
  | msetc (k : Fin 4) (imm : BitVec 32)
  /-- R222. -/
  | mloop (k : Fin 4) (target : BitVec 13)
  /-- R219. -/
  | msync (mask : BitVec 4)
  /-- R223; nm is n - 1. -/
  | agath (s i : Fin 8) (wd : Fin 4) (stride : Bool) (a : Fin 8) (aoff : BitVec 11) (nm : BitVec 11)
  /-- R225. -/
  | wld (d : Fin 8) (j : BitVec 16) (int : Bool) (h : Bool)
  /-- R226. -/
  | wldp (d : Fin 8) (fmt : Fin 16) (h : Bool)
  /-- R227; nm is n - 1. -/
  | aclr (c : Fin 8) (coff : BitVec 11) (nm : BitVec 11)
  /-- R228; nm is n - 1. -/
  | mma (c : Fin 8) (coff : BitVec 11) (a : Fin 8) (aoff : BitVec 11) (afmt : Fin 16) (x2 h : Bool) (nm : BitVec 11)
  /-- R245. -/
  | act (k : Fin 4) (off : BitVec 15) (dt : BitVec 11)
  /-- R245, R248, R249. -/
  | rd (ba : BitVec 7) (col : BitVec 4) (dt : BitVec 11)
  /-- R245, R248, R249. -/
  | wr (ba : BitVec 7) (col : BitVec 4) (dt : BitVec 11)
  /-- R245. -/
  | pre (ba : BitVec 7) (dt : BitVec 11)
  /-- R245. -/
  | prea (pc : Fin 2) (dt : BitVec 11)
  /-- R245. -/
  | refab (pc : Fin 2) (dt : BitVec 11)
  /-- R245. -/
  | refpb (ba : BitVec 7) (dt : BitVec 11)
  /-- R245. -/
  | maint (pc : Fin 2) (dt : BitVec 11)
  /-- R245. -/
  | chainWaitt (next : Bool) (n : BitVec 16) (dt : BitVec 11)
  /-- R245. -/
  | ptr (p : Fin 2) (v : BitVec 16) (dt : BitVec 11)
  /-- R245. -/
  | rowb (k : Fin 4) (v : BitVec 15) (dt : BitVec 11)
  /-- R245. -/
  | lcnt (j : Fin 2) (v : BitVec 14) (dt : BitVec 11)
  /-- R245. -/
  | chainLoop (j : Fin 2) (v : BitVec 14) (dt : BitVec 11)
  /-- R245. -/
  | chainEnd (dt : BitVec 11)
  /-- R248: 64 bytes land in SPM; mark is what the ECC found (R407): 0 clean, 1 corrected, 2 uncorrectable. -/
  | chainRdLanding (addr : BitVec 22) (pa : BitVec 31) (idx : BitVec 14) (data : BitVec 512) (mark : Fin 3)
  /-- R277: code 0 is the event itself, another code a rejection. -/
  | visibilityEvent (code : BitVec 4)
  /-- R231: the oldest command of a queue of the core. -/
  | engineCommandStart (q : QueueId)
  /-- R50: the barrier of the quad or die of the core. -/
  | barrierRelease (die : Bool)
  /-- R333: ok is the result of the CRC. -/
  | flitReceipt (ok : Bool)
  /-- R338: the doorbell is written with v. -/
  | cmddb (v : W32)
  /-- R352: the message to the stack of the focus argument. -/
  | scrubRange (chan : Fin 32) (pa len : W32)
  /-- R409: the message to the stack of the focus argument. -/
  | repairLane (chan : Fin 32) (pc : Fin 2) (lane spare : Byte)
  /-- R408: a message from a stack. -/
  | correctedErrorCount (chan : Fin 32) (ce ue first : W32)
  /-- R409: a message from a stack. -/
  | repairDone (chan : Fin 32) (status : Byte)
  /-- R430: a message from a stack, in degrees Celsius. -/
  | stackTemperature (deg : Byte)
  /-- R339: a message that gives the master time. -/
  | ptpMessageReceipt (ns : W64)
  /-- R358: a record forwarded by another device. -/
  | forwardedEventRecordReceipt (part : Fin 8) (r : W64)
  /-- R338: the focus argument holds the slot of a forwarded command, and 256 times its status. -/
  | forwardedStatusReceipt
  /-- R222. -/
  | mend
  /-- R347. -/
  | resetRelease
  /-- R40. -/
  | phaseBoundary
  /-- R38. -/
  | stragglerBudgetExpiry
  /-- R44. -/
  | timeDrivenBoundary
  /-- R322. -/
  | powerAdmission
  /-- R292, of the core in focus. -/
  | arrivalCount
  /-- R377: the K bit of a head. -/
  | daymark
  /-- R220, of the core in focus. -/
  | routineEnd
  /-- R258, of the core in focus. -/
  | idleChainCommand
  /-- R255, R256: the pseudo-channel is the focus argument. -/
  | refreshDebtIncrement
  /-- R255, R256: the pseudo-channel is the focus argument. -/
  | maintenanceDebtIncrement
  /-- R257: the pseudo-channel is the focus argument. -/
  | maintSlotEnd
  /-- R314: the record is the focus argument. -/
  | leaseGrant
  /-- R405, R406: the entry is the focus argument. -/
  | translationInvalidate
  /-- R405, R406: the entry is the focus argument. -/
  | invalidateWatchdogExpiry
  /-- R268: the operation is the focus argument and the target core is in focus. -/
  | remoteOperationReceipt
  /-- R277, R425: the operation is the focus argument. -/
  | localReuseEvent
  /-- R277, R425: the operation is the focus argument. -/
  | remoteTimeout
  /-- R331, R329, R426: the call is the focus argument. -/
  | collectiveSequenceStart
  /-- R331, R329, R426: the call is the focus argument. -/
  | collectiveCompletion
  /-- R331, R329, R426: the call is the focus argument. -/
  | collectiveTimeout
  /-- R371, R397, R421, R422, of the core in focus. -/
  | trapDrainCompletion
  /-- R371, R397, R421, R422, of the core in focus. -/
  | rerunVerification
  /-- R371, R397, R421, R422, of the core in focus. -/
  | contextSave
  /-- R371, R397, R421, R422, of the core in focus. -/
  | contextRestore
  /-- R307: the record is the focus argument. -/
  | recordCompletion
  /-- R423: the station is the focus argument. -/
  | stationDown
  /-- R423: the station is the focus argument. -/
  | stationRetrained
  /-- R428, R430. -/
  | timeLockLoss
  /-- R428, R430. -/
  | powerAlarm
  /-- R428, R430. -/
  | powerAlarmRelease
  /-- R349-R352: the command slot is the focus argument. -/
  | attest
  /-- R349-R352: the command slot is the focus argument. -/
  | wrreg
  /-- R349-R352: the command slot is the focus argument. -/
  | rdreg
  /-- R349-R352: the command slot is the focus argument. -/
  | armtd
  /-- R349-R352: the command slot is the focus argument. -/
  | cadctlDriveArm
  /-- R349-R352: the command slot is the focus argument. -/
  | enqueue
  /-- R349-R352: the command slot is the focus argument. -/
  | memwr
  /-- R349-R352: the command slot is the focus argument. -/
  | memrd
  /-- R349-R352: the command slot is the focus argument. -/
  | groupdef
  /-- R349-R352: the command slot is the focus argument. -/
  | partset
  /-- R349-R352: the command slot is the focus argument. -/
  | preempt
  /-- R349-R352: the command slot is the focus argument. -/
  | mboxsend
  /-- R44. -/
  | armingCheck
  /-- R293, R356-R358: the RDREG is in the slot of the focus argument. -/
  | werrRead
  /-- R293, R356-R358: the RDREG is in the slot of the focus argument. -/
  | cerrstRead
  /-- R293, R356-R358: the RDREG is in the slot of the focus argument. -/
  | perrstRead
  /-- R293, R356-R358: the RDREG is in the slot of the focus argument. -/
  | eventQueueRead
  /-- R316, R440: the WRREG is in the slot of the focus argument. -/
  | wrrwWrite
  /-- R316, R440: the WRREG is in the slot of the focus argument. -/
  | phyctlClr
  /-- R338: the command is in the slot of the focus argument. -/
  | forwardedCommandReceipt
deriving DecidableEq, Repr

end Sys2Proof
end

