-- ==== Sys2Proof/WellFormed.lean ====
section
/-! DEFINITION. Which syntax terms have an encoding: the operand restrictions of the entries, relative to the number L
of literal words of the bundle (R65, R75), and the slots that a form may occupy (R66, R67). -/

namespace Sys2Proof

/-- A selector that names a literal word names one that exists (R74). -/
def Sel.ok (L : Nat) : Sel → Bool
  | .lit n => n.val < L
  | _ => true

/-- A control-word selector is a literal, a CBANK entry or 35 (R75, R138, R164, R177). -/
def Sel.okCtl (L : Nat) : Sel → Bool
  | .lit n => n.val < L
  | .zero => true
  | .cb _ => true
  | .reg _ => false
  | .one => false

/-- The source of KSET.FIRST is no register (R175). -/
def Sel.okCount (L : Nat) : Sel → Bool
  | .lit n => n.val < L
  | .reg _ => false
  | _ => true

/-- The operand restrictions of an instruction in a bundle with L literal words. -/
def Instr.wellFormed (L : Nat) : Instr → Bool
  | .add _ _ a b | .sub _ _ a b | .and _ _ a b | .or _ _ a b | .xor _ _ a b | .andn _ _ a b | .min _ _ a b
  | .max _ _ a b | .minl _ _ a b | .maxl _ _ a b | .shl _ _ a b | .shr _ _ a b | .sra _ _ a b | .rol _ _ a b
  | .mul _ _ a b | .mulh _ _ a b | .mulhl _ _ a b | .extr _ _ a b | .ins _ _ a b | .addsh _ _ a b _
  | .cmpeq _ _ a b | .cmpne _ _ a b | .cmplt _ _ a b | .cmple _ _ a b | .cmplo _ _ a b | .cmpls _ _ a b
  | .fadd _ _ a b | .fsub _ _ a b | .fmul _ _ a b | .fmin _ _ a b | .fmax _ _ a b | .fma _ _ a b | .fmaD _ _ a b
  | .fcmpeq _ _ a b | .fcmplt _ _ a b | .fcmple _ _ a b | .fcmpun _ _ a b | .waitt _ a b | .cbwr _ a b
  | .vadd _ _ a b _ _ | .vsub _ _ a b _ _ | .vmul _ _ a b _ _ | .vmin _ _ a b _ _ | .vmax _ _ a b _ _
  | .vminl _ _ a b _ _ | .vmaxl _ _ a b _ _ | .vand _ _ a b _ _ | .vor _ _ a b _ _ | .vxor _ _ a b _ _
  | .vshl _ _ a b _ _ | .vshr _ _ a b _ _ | .vsra _ _ a b _ _ | .vadds _ _ a b _ _ | .vsubs _ _ a b _ _
  | .vfadd _ _ a b _ _ | .vfsub _ _ a b _ _ | .vfmul _ _ a b _ _ | .vfma _ _ a b _ _ | .vfmad _ _ a b _ _
  | .vfmin _ _ a b _ _ | .vfmax _ _ a b _ _ | .vcmpeq _ _ a b _ _ | .vcmplt _ _ a b _ _ | .vcmple _ _ a b _ _
  | .vfcmpeq _ _ a b _ _ | .vfcmplt _ _ a b _ _ | .vfcmple _ _ a b _ _ | .vfcmpun _ _ a b _ _ | .vsel _ _ a b _ _
  | .rcpnr _ _ a b _ | .rsqnr _ _ a b _ | .ld _ _ a b _ | .st _ _ a b _ | .vld _ _ a b _ _ | .vst _ _ a b _ _
  | .kld _ _ a b _ | .kst _ _ a b _ | .vlds _ _ a b _ _ | .vsts _ _ a b _ _ | .vldb _ _ a b _ _ => a.ok L && b.ok L
  | .vperm _ _ a b _ w => a.ok L && b.ok L && w != .w4
  | .clz _ _ a | .ctz _ _ a | .popc _ _ a | .brev _ _ a | .addi _ _ a _ | .andi _ _ a _ | .ori _ _ a _ | .xori _ _ a _
  | .shli _ _ a _ | .shri _ _ a _ | .srai _ _ a _ | .cmpeqi _ _ a _ | .cmplti _ _ a _ | .cmploi _ _ a _
  | .mov _ _ a | .upkq _ a | .fabs _ _ a | .fneg _ _ a | .jr _ a | .jalr _ _ a | .lcset _ a _ | .nopw _ a _
  | .setcb _ a | .settv _ a | .vfabs _ _ a _ _ | .vfneg _ _ a _ _ | .vaddi _ _ a _ | .vshli _ _ a _ | .vshri _ _ a _
  | .vsrai _ _ a _ | .vandi _ _ a _ | .vmov _ _ a _ _ | .exp2 _ _ a _ | .log2 _ _ a _ | .sqrt _ _ a _ | .sin _ _ a _
  | .cos _ _ a _ | .tanh _ _ a _ | .sigm _ _ a _ | .rcp _ _ a _ | .rsq _ _ a _ | .ldi _ _ a _ | .sti _ _ a _
  | .vldi _ _ a _ | .vsti _ _ a _ | .ksetNz _ _ a _ | .ksetNeg _ _ a _ | .vldx _ _ a _ _ _ | .vstx _ _ a _ _ _ => a.ok L
  | .fcvtI64F32 _ _ a c | .fcvtF32I64 _ _ a c | .fcvtF16F32 _ _ a c | .fcvtBf16F32 _ _ a c | .fcvtF32F16 _ _ a c
  | .fcvtF32Bf16 _ _ a c | .vcvtf _ _ a c _ | .vcvti _ _ a c _ | .vcvtif _ _ a c _ | .vwiden _ _ a c _
  | .vnarrow _ _ a c _ | .vshuf _ _ a c _ _ | .vrot _ _ a c _ _ | .vbcst _ _ a c _ _ | .vscan _ _ a c _ _
  | .vredf _ _ a c _ _ | .vredi _ _ a c _ _ => a.ok L && c.okCtl L
  | .ksetFirst _ _ a _ => a.okCount L
  | .xfence _ p q => !(p == .t && q == .t)
  | _ => true

/-- The encoding space of a constructor (R66, R216, R241). -/
def Instr.space : Instr → Space
  | .add .. | .sub .. | .and .. | .or .. | .xor .. | .andn .. | .min .. | .max .. | .minl .. | .maxl .. | .shl .. | .shr ..
  | .sra .. | .rol .. | .mul .. | .mulh .. | .mulhl .. | .extr .. | .ins .. | .clz .. | .ctz .. | .popc .. | .brev ..
  | .addsh .. | .addi .. | .andi .. | .ori .. | .xori .. | .shli .. | .shri .. | .srai .. | .movi .. | .movhi .. | .addl ..
  | .cmpeq .. | .cmpne .. | .cmplt .. | .cmple .. | .cmplo .. | .cmpls .. | .cmpeqi .. | .cmplti .. | .cmploi .. | .pand ..
  | .por .. | .pxor .. | .pandn .. | .mov .. | .pkq .. | .upkq .. | .fadd .. | .fsub .. | .fmul .. | .fmin .. | .fmax ..
  | .fabs .. | .fneg .. | .fma .. | .fmaD .. | .fcmpeq .. | .fcmplt .. | .fcmple .. | .fcmpun .. | .fcvtI64F32 ..
  | .fcvtF32I64 .. | .fcvtF16F32 .. | .fcvtBf16F32 .. | .fcvtF32F16 .. | .fcvtF32Bf16 .. | .fmovi .. | .faddi .. | .fmuli ..
  | .br .. | .call .. | .jr .. | .jalr .. | .lcset .. | .loop .. | .nopw .. | .waitt .. | .rdtime .. | .rdtimeFrac ..
  | .rdcad .. | .rdpcyc .. | .rdcore .. | .flog .. | .setcb .. | .cbwr .. | .trap .. | .rfd .. | .rdtrap .. | .settv ..
  | .xfence .. => .scalar
  | .vadd .. | .vsub .. | .vmul .. | .vmin .. | .vmax .. | .vminl .. | .vmaxl .. | .vand .. | .vor .. | .vxor .. | .vshl ..
  | .vshr .. | .vsra .. | .vadds .. | .vsubs .. | .vfadd .. | .vfsub .. | .vfmul .. | .vfma .. | .vfmad .. | .vfmin ..
  | .vfmax .. | .vfabs .. | .vfneg .. | .vaddi .. | .vshli .. | .vshri .. | .vsrai .. | .vandi .. | .vfmovi .. | .vfaddi ..
  | .vfmuli .. | .vmovi .. | .vcmpeq .. | .vcmplt .. | .vcmple .. | .vfcmpeq .. | .vfcmplt .. | .vfcmple .. | .vfcmpun ..
  | .vsel .. | .vmov .. | .vcvtf .. | .vcvti .. | .vcvtif .. | .vwiden .. | .vnarrow .. | .kand .. | .kor .. | .kxor ..
  | .kandn .. | .ksetFirst .. | .ksetNz .. | .ksetNeg .. | .vperm .. | .vshuf .. | .vrot .. | .vbcst .. | .vscan ..
  | .vredf .. | .vredi .. => .vector
  | .exp2 .. | .log2 .. | .sqrt .. | .sin .. | .cos .. | .tanh .. | .sigm .. | .rcp .. | .rsq .. | .rcpnr .. | .rsqnr ..
  | .vrand .. | .vrandSeed .. => .special
  | .ld .. | .st .. | .ldi .. | .sti .. | .vld .. | .vst .. | .vldi .. | .vsti .. | .kld .. | .kst .. | .vlds .. | .vsts ..
  | .vldx .. | .vstx .. | .vldb .. => .memory
  | .mset .. | .mcall .. | .mload .. | .cpyaSpm .. | .cpyaAcc .. | .tlgo .. | .get .. | .put .. | .putMc .. | .racc ..
  | .wpost .. | .wstart .. | .wcompl .. | .wwait .. | .wlock .. | .wunlock .. | .hwait .. | .htest .. | .coll .. | .launch ..
  | .cadv .. | .cadvEnd .. | .barQuad .. | .barDie .. => .engine
  | .mend | .mnop .. | .mseta .. | .madda .. | .msetc .. | .mloop .. | .msync .. | .agath .. | .wld .. | .wldp ..
  | .aclr .. | .mma .. => .micro
  | .act .. | .rd .. | .wr .. | .pre .. | .prea .. | .refab .. | .refpb .. | .maint .. | .chainWaitt .. | .ptr .. | .rowb ..
  | .lcnt .. | .chainLoop .. | .chainEnd .. => .chain
  | _ => .event

/-- The space a slot decodes (R66). -/
def Slot.space : Slot → Space
  | .s0 | .s1 => .scalar
  | .v0 | .v1 | .v2 => .vector
  | .f => .special
  | .m0 | .m1 => .memory
  | .eng => .engine

/-- The forms bound to one slot of their space (R67). -/
def Instr.onlySlot : Instr → Option Slot
  | .br .. | .call .. | .jr .. | .jalr .. | .loop .. | .lcset .. | .rfd .. => some .s1
  | .vperm .. | .vshuf .. | .vrot .. | .vbcst .. | .vscan .. | .vredf .. | .vredi .. => some .v2
  | .vlds .. | .vsts .. | .vldx .. | .vstx .. | .vldb .. => some .m0
  | _ => none

/-- Whether a form may stand in a slot (R66, R67). -/
def Instr.permitted (i : Instr) (s : Slot) : Bool :=
  i.space == s.space && (match i.onlySlot with | some o => o == s | none => true)

end Sys2Proof
end

