-- ==== Sys2Proof/Decode.lean ====
section
/-! DEFINITION. Decoding of slot words, engine words, bundles, micro-steps and chain commands, total on any bits and
rejecting by the sub-code of R382; and the encoder, written from the same layouts. -/

namespace Sys2Proof

/-- The field of n bits at bit lo of a word. -/
def fld (w lo n : Nat) : Nat := w / 2 ^ lo % 2 ^ n

/-- A field as a register number. -/
def fin (w lo n : Nat) : Fin (2 ^ n) := ⟨w / 2 ^ lo % 2 ^ n, Nat.mod_lt _ (Nat.two_pow_pos n)⟩

/-- The major opcode (R68). -/
def maj (w : Nat) : Nat := fld w 26 6
/-- The guard field (R69). -/
def gd (w : Nat) : Guard := ⟨fin w 23 3, fld w 22 1 == 1⟩
/-- The destination of the RR and RI families (R68). -/
def dst (w : Nat) : Fin 32 := fin w 17 5
/-- The destination as a predicate or mask number. -/
def dst8 (w : Nat) : Fin 8 := fin w 17 3
/-- The destination of the FI family. -/
def fdst (w : Nat) : Fin 32 := fin w 21 5
/-- Selector A as encoded. -/
def selA (w : Nat) : Nat := fld w 11 6
/-- Selector B as encoded. -/
def selB (w : Nat) : Nat := fld w 5 6
/-- The minor function. -/
def minor (w : Nat) : Nat := fld w 0 5
/-- The immediate of the RI family. -/
def imm11 (w : Nat) : BitVec 11 := BitVec.ofNat 11 w
/-- The immediate of the FI family. -/
def imm20 (w : Nat) : BitVec 20 := BitVec.ofNat 20 w
/-- The lane mask of the vector RR words (R72). -/
def mask (w : Nat) : Fin 8 := fin w 2 3
/-- The variant of the vector RR words (R72). -/
def vari (w : Nat) : Nat := fld w 0 2

/-- The operand a selector value names (R74); the reserved values are refused before this is used. -/
def toSel (a : Nat) : Sel :=
  if h : a < 32 then .reg ⟨a, h⟩
  else if a = 32 then .lit 0 else if a = 33 then .lit 1 else if a = 34 then .lit 2
  else if a = 35 then .zero else if a = 36 then .one
  else if h : 40 ≤ a ∧ a < 64 then .cb ⟨a - 40, by omega⟩ else .zero

/-- The predicate a selector value names (R133). -/
def toPSel (a : Nat) : PSel := if a = 35 then .zero else if a = 36 then .one else .q ⟨a % 8, Nat.mod_lt _ (by decide)⟩
/-- The mask a selector value names (R173). -/
def toKSel (a : Nat) : KSel := if a = 35 then .zero else if a = 36 then .one else .k ⟨a % 8, Nat.mod_lt _ (by decide)⟩

/-- 99 stands for "no fault"; a check gives the sub-code of R382 that it meets. -/
def bad (b : Bool) (code : Nat) : Nat := if b then code else 99
/-- Row 8 of R382 for an ordinary operand. -/
def ckSel (L a : Nat) : Nat := bad ((37 ≤ a && a ≤ 39) || (32 ≤ a && a ≤ 34 && L ≤ a - 32)) 8
/-- Row 8 for a control-word operand (R75). -/
def ckCtl (L a : Nat) : Nat := bad (!((32 ≤ a && a ≤ 34 && a - 32 < L) || a == 35 || 40 ≤ a)) 8
/-- Row 8 for the count of KSET.FIRST. -/
def ckCount (L a : Nat) : Nat := bad (a < 32 || (37 ≤ a && a ≤ 39) || (32 ≤ a && a ≤ 34 && L ≤ a - 32)) 8
/-- Row 8 for a predicate or mask selector. -/
def ckFile (a : Nat) : Nat := bad (!(a < 8 || a == 35 || a == 36)) 8
/-- Row 8 for a selector that must name a register. -/
def ckReg (a : Nat) : Nat := bad (32 ≤ a) 8
/-- Row 9: a destination beyond an eight-entry file. -/
def ckDst8 (w : Nat) : Nat := bad (8 ≤ fld w 17 5) 9
/-- Row 10: a field not at its stated value. -/
def ckIs (x v : Nat) : Nat := bad (x != v) 10
/-- Row 7: a form in a slot that it may not occupy. -/
def ckSlot (s : Slot) (i : Instr) : Nat := bad (!i.permitted s) 7

/-- The lowest sub-code met, or the instruction. -/
def chk (s : Slot) (cs : List Nat) (i : Instr) : Except Nat Instr :=
  let m := cs.foldl Nat.min (ckSlot s i)
  if m = 99 then .ok i else .error m

/-- Element types of a variant. -/
def toIT (v : Nat) : Option IType := match v with | 0 => some .i32 | 1 => some .i16 | 2 => some .i8 | _ => none
/-- Element types of a variant. -/
def toFT (v : Nat) : Option FType := match v with | 0 => some .f32 | 1 => some .f16 | 2 => some .bf16 | _ => none
/-- Widths of a variant. -/
def toW (v : Nat) : Width := match v with | 0 => .w32 | 1 => .w16 | 2 => .w8 | _ => .w4
/-- Path classes of R294. -/
def toPC (v : Nat) : PathClass := match v with | 0 => .t | 1 => .n | 2 => .c | _ => .m
/-- Variant of an integer element type. -/
def IType.code : IType → Nat | .i32 => 0 | .i16 => 1 | .i8 => 2
/-- Variant of a floating-point element type. -/
def FType.code : FType → Nat | .f32 => 0 | .f16 => 1 | .bf16 => 2
/-- Code of a width. -/
def Width.code : Width → Nat | .w32 => 0 | .w16 => 1 | .w8 => 2 | .w4 => 3
/-- Code of a path class. -/
def PathClass.code : PathClass → Nat | .t => 0 | .n => 1 | .c => 2 | .m => 3

/-- RR word with two sources. -/
def rr3 (s : Slot) (L w : Nat) (mk : Guard → Fin 32 → Sel → Sel → Instr) : Except Nat Instr :=
  chk s [ckSel L (selA w), ckSel L (selB w)] (mk (gd w) (dst w) (toSel (selA w)) (toSel (selB w)))
/-- RR word with one source. -/
def rr2 (s : Slot) (L w : Nat) (mk : Guard → Fin 32 → Sel → Instr) : Except Nat Instr :=
  chk s [ckSel L (selA w), ckIs (selB w) 35] (mk (gd w) (dst w) (toSel (selA w)))
/-- RR word with a destination only. -/
def rr1 (s : Slot) (w : Nat) (mk : Guard → Fin 32 → Instr) : Except Nat Instr :=
  chk s [ckIs (selA w) 35, ckIs (selB w) 35] (mk (gd w) (dst w))
/-- RR word with one source and no destination. -/
def rr0 (s : Slot) (L w : Nat) (mk : Guard → Sel → Instr) : Except Nat Instr :=
  chk s [ckSel L (selA w), ckIs (selB w) 35, ckIs (fld w 17 5) 0] (mk (gd w) (toSel (selA w)))
/-- RR word with two sources and no destination. -/
def rr0b (s : Slot) (L w : Nat) (mk : Guard → Sel → Sel → Instr) : Except Nat Instr :=
  chk s [ckSel L (selA w), ckSel L (selB w), ckIs (fld w 17 5) 0] (mk (gd w) (toSel (selA w)) (toSel (selB w)))
/-- RR compare. -/
def rrq (s : Slot) (L w : Nat) (mk : Guard → Fin 8 → Sel → Sel → Instr) : Except Nat Instr :=
  chk s [ckSel L (selA w), ckSel L (selB w), ckDst8 w] (mk (gd w) (dst8 w) (toSel (selA w)) (toSel (selB w)))
/-- RR word of the predicate file. -/
def rrp (s : Slot) (w : Nat) (mk : Guard → Fin 8 → PSel → PSel → Instr) : Except Nat Instr :=
  chk s [ckFile (selA w), ckFile (selB w), ckDst8 w] (mk (gd w) (dst8 w) (toPSel (selA w)) (toPSel (selB w)))
/-- RR word with a source and a control word. -/
def rrc (s : Slot) (L w : Nat) (mk : Guard → Fin 32 → Sel → Sel → Instr) : Except Nat Instr :=
  chk s [ckSel L (selA w), ckCtl L (selB w)] (mk (gd w) (dst w) (toSel (selA w)) (toSel (selB w)))
/-- RI word. -/
def ri (s : Slot) (L w : Nat) (mk : Guard → Fin 32 → Sel → BitVec 11 → Instr) : Except Nat Instr :=
  chk s [ckSel L (selA w)] (mk (gd w) (dst w) (toSel (selA w)) (imm11 w))
/-- RI compare. -/
def riq (s : Slot) (L w : Nat) (mk : Guard → Fin 8 → Sel → BitVec 11 → Instr) : Except Nat Instr :=
  chk s [ckSel L (selA w), ckDst8 w] (mk (gd w) (dst8 w) (toSel (selA w)) (imm11 w))
/-- RI shift by up to 63 (R130). -/
def ri6 (s : Slot) (L w : Nat) (mk : Guard → Fin 32 → Sel → Fin 64 → Instr) : Except Nat Instr :=
  chk s [ckSel L (selA w), ckIs (fld w 6 5) 0] (mk (gd w) (dst w) (toSel (selA w)) (fin w 0 6))
/-- RI shift by up to 31 (R160). -/
def ri5 (s : Slot) (L w : Nat) (mk : Guard → Fin 32 → Sel → Fin 32 → Instr) : Except Nat Instr :=
  chk s [ckSel L (selA w), ckIs (fld w 5 6) 0] (mk (gd w) (dst w) (toSel (selA w)) (fin w 0 5))
/-- FI word. -/
def fi (s : Slot) (w : Nat) (mk : Fin 32 → BitVec 20 → Instr) : Except Nat Instr :=
  chk s [ckIs (fld w 20 1) 0] (mk (fdst w) (imm20 w))
/-- BR word. -/
def brw (s : Slot) (w : Nat) (mk : Guard → BitVec 22 → Instr) : Except Nat Instr :=
  chk s [] (mk (gd w) (BitVec.ofNat 22 w))
/-- Vector RR word with an integer type. -/
def vi3 (s : Slot) (L w : Nat) (mk : Guard → Fin 32 → Sel → Sel → Fin 8 → IType → Instr) : Except Nat Instr :=
  match toIT (vari w) with
  | none => .error 6
  | some t => chk s [ckSel L (selA w), ckSel L (selB w)] (mk (gd w) (dst w) (toSel (selA w)) (toSel (selB w)) (mask w) t)
/-- Vector RR word with a floating-point type. -/
def vf3 (s : Slot) (L w : Nat) (mk : Guard → Fin 32 → Sel → Sel → Fin 8 → FType → Instr) : Except Nat Instr :=
  match toFT (vari w) with
  | none => .error 6
  | some t => chk s [ckSel L (selA w), ckSel L (selB w)] (mk (gd w) (dst w) (toSel (selA w)) (toSel (selB w)) (mask w) t)
/-- Vector RR word with one source and a floating-point type. -/
def vf2 (s : Slot) (L w : Nat) (mk : Guard → Fin 32 → Sel → Fin 8 → FType → Instr) : Except Nat Instr :=
  match toFT (vari w) with
  | none => .error 6
  | some t => chk s [ckSel L (selA w), ckIs (selB w) 35] (mk (gd w) (dst w) (toSel (selA w)) (mask w) t)
/-- Vector compare of integers. -/
def vic (s : Slot) (L w : Nat) (mk : Guard → Fin 8 → Sel → Sel → Fin 8 → IType → Instr) : Except Nat Instr :=
  match toIT (vari w) with
  | none => .error 6
  | some t => chk s [ckSel L (selA w), ckSel L (selB w), ckDst8 w]
      (mk (gd w) (dst8 w) (toSel (selA w)) (toSel (selB w)) (mask w) t)
/-- Vector compare of floating-point elements. -/
def vfc (s : Slot) (L w : Nat) (mk : Guard → Fin 8 → Sel → Sel → Fin 8 → FType → Instr) : Except Nat Instr :=
  match toFT (vari w) with
  | none => .error 6
  | some t => chk s [ckSel L (selA w), ckSel L (selB w), ckDst8 w]
      (mk (gd w) (dst8 w) (toSel (selA w)) (toSel (selB w)) (mask w) t)
/-- Conversion (R164). -/
def vcv (s : Slot) (L w : Nat) (mk : Guard → Fin 32 → Sel → Sel → Fin 8 → Instr) : Except Nat Instr :=
  chk s [ckSel L (selA w), ckCtl L (selB w), ckIs (vari w) 0] (mk (gd w) (dst w) (toSel (selA w)) (toSel (selB w)) (mask w))
/-- Mask logic (R174). -/
def rrk (s : Slot) (w : Nat) (mk : Guard → Fin 8 → KSel → KSel → Instr) : Except Nat Instr :=
  chk s [ckFile (selA w), ckFile (selB w), ckDst8 w, ckIs (fld w 2 3) 0]
    (mk (gd w) (dst8 w) (toKSel (selA w)) (toKSel (selB w)))
/-- KSET (R175). -/
def kst0 (s : Slot) (w : Nat) (ck : Nat) (mk : Guard → Fin 8 → Sel → Width → Instr) : Except Nat Instr :=
  if 4 ≤ fld w 2 3 then .error 6
  else chk s [ck, ckDst8 w, ckIs (selB w) 35] (mk (gd w) (dst8 w) (toSel (selA w)) (toW (fld w 2 3)))
/-- Vector RR word with a width variant and two sources. -/
def vw3 (s : Slot) (L w : Nat) (mk : Guard → Fin 32 → Sel → Sel → Fin 8 → Width → Instr) : Except Nat Instr :=
  chk s [ckSel L (selA w), ckSel L (selB w)] (mk (gd w) (dst w) (toSel (selA w)) (toSel (selB w)) (mask w) (toW (vari w)))
/-- Cross-lane word with a control word and a width variant (R177). -/
def vwc (s : Slot) (L w : Nat) (mk : Guard → Fin 32 → Sel → Sel → Fin 8 → Width → Instr) : Except Nat Instr :=
  chk s [ckSel L (selA w), ckCtl L (selB w)] (mk (gd w) (dst w) (toSel (selA w)) (toSel (selB w)) (mask w) (toW (vari w)))
/-- Special-function word with one operand (R185). -/
def sf1 (s : Slot) (L w : Nat) (mk : Guard → Fin 32 → Sel → Fin 8 → Instr) : Except Nat Instr :=
  chk s [ckSel L (selA w), ckIs (selB w) 35, ckIs (vari w) 0] (mk (gd w) (dst w) (toSel (selA w)) (mask w))
/-- Special-function word with two operands (R185). -/
def sf2 (s : Slot) (L w : Nat) (mk : Guard → Fin 32 → Sel → Sel → Fin 8 → Instr) : Except Nat Instr :=
  chk s [ckSel L (selA w), ckSel L (selB w), ckIs (vari w) 0]
    (mk (gd w) (dst w) (toSel (selA w)) (toSel (selB w)) (mask w))
/-- Strided memory word (R203). -/
def ms3 (s : Slot) (L w : Nat) (mk : Guard → Fin 32 → Sel → Sel → Fin 8 → Fin 4 → Instr) : Except Nat Instr :=
  chk s [ckSel L (selA w), ckSel L (selB w)] (mk (gd w) (dst w) (toSel (selA w)) (toSel (selB w)) (mask w) (fin w 0 2))
/-- Indexed memory word (R205). -/
def mx3 (s : Slot) (L w : Nat) (mk : Guard → Fin 32 → Sel → Fin 32 → Fin 8 → Fin 4 → Instr) : Except Nat Instr :=
  chk s [ckSel L (selA w), ckReg (selB w)] (mk (gd w) (dst w) (toSel (selA w)) (fin w 5 5) (mask w) (fin w 0 2))
/-- Mask memory word (R202). -/
def mk3 (s : Slot) (L w : Nat) (mk : Guard → Fin 8 → Sel → Sel → Width → Instr) : Except Nat Instr :=
  chk s [ckSel L (selA w), ckSel L (selB w), ckDst8 w, ckIs (fld w 2 3) 0]
    (mk (gd w) (dst8 w) (toSel (selA w)) (toSel (selB w)) (toW (vari w)))
/-- Start offset of an engine word (R73). -/
def eo (w : Nat) : BitVec 12 := BitVec.ofNat 12 (fld w 10 12)
/-- Field a of an engine word. -/
def ea (w : Nat) : Fin 32 := fin w 5 5
/-- Field b of an engine word. -/
def eb (w : Nat) : Fin 32 := fin w 0 5
/-- Queued engine word with two registers. -/
def e2 (s : Slot) (w : Nat) (mk : Guard → BitVec 12 → Fin 32 → Fin 32 → Instr) : Except Nat Instr :=
  chk s [] (mk (gd w) (eo w) (ea w) (eb w))
/-- The offset must be 0xFFF. -/
def ckOn (w : Nat) : Nat := ckIs (fld w 10 12) 0xFFF

/-- The scalar space (R76). -/
def decodeScalar (s : Slot) (L w : Nat) : Except Nat Instr :=
  match maj w with
  | 0x01 => match minor w with
    | 0 => rr3 s L w .add
    | 1 => rr3 s L w .sub
    | 2 => rr3 s L w .and
    | 3 => rr3 s L w .or
    | 4 => rr3 s L w .xor
    | 5 => rr3 s L w .andn
    | 6 => rr3 s L w .min
    | 7 => rr3 s L w .max
    | 8 => rr3 s L w .minl
    | 9 => rr3 s L w .maxl
    | _ => .error 6
  | 0x02 => match minor w with
    | 0 => rr3 s L w .shl
    | 1 => rr3 s L w .shr
    | 2 => rr3 s L w .sra
    | 3 => rr3 s L w .rol
    | _ => .error 6
  | 0x03 => match minor w with
    | 0 => rr3 s L w .mul
    | 1 => rr3 s L w .mulh
    | 2 => rr3 s L w .mulhl
    | _ => .error 6
  | 0x04 => match minor w with
    | 0 => rr3 s L w .extr
    | 1 => rr3 s L w .ins
    | 2 => rr2 s L w .clz
    | 3 => rr2 s L w .ctz
    | 4 => rr2 s L w .popc
    | 5 => rr2 s L w .brev
    | _ => .error 6
  | 0x05 => if 8 ≤ minor w then .error 6 else rr3 s L w fun g d a b => .addsh g d a b (fin w 0 3)
  | 0x06 => match minor w with
    | 0 => rrq s L w .cmpeq
    | 1 => rrq s L w .cmpne
    | 2 => rrq s L w .cmplt
    | 3 => rrq s L w .cmple
    | 4 => rrq s L w .cmplo
    | 5 => rrq s L w .cmpls
    | _ => .error 6
  | 0x07 => match minor w with
    | 0 => rrp s w .pand
    | 1 => rrp s w .por
    | 2 => rrp s w .pxor
    | 3 => rrp s w .pandn
    | _ => .error 6
  | 0x08 => ri s L w .addi
  | 0x09 => ri s L w .andi
  | 0x0A => ri s L w .ori
  | 0x0B => ri s L w .xori
  | 0x0C => ri6 s L w .shli
  | 0x0D => ri6 s L w .shri
  | 0x0E => ri6 s L w .srai
  | 0x0F => riq s L w .cmpeqi
  | 0x10 => riq s L w .cmplti
  | 0x11 => riq s L w .cmploi
  | 0x12 => chk s [ckSel L (selA w), ckIs (fld w 17 5) 0, ckIs (fld w 2 9) 0] (.lcset (gd w) (toSel (selA w)) (fin w 0 2))
  | 0x13 => chk s [ckSel L (selA w), ckIs (fld w 17 5) 0] (.nopw (gd w) (toSel (selA w)) (imm11 w))
  | 0x14 => fi s w .movi
  | 0x15 => fi s w .movhi
  | 0x16 => fi s w .addl
  | 0x17 => fi s w .fmovi
  | 0x18 => fi s w .faddi
  | 0x19 => fi s w .fmuli
  | 0x1A => match minor w with
    | 0 => rr3 s L w .fadd
    | 1 => rr3 s L w .fsub
    | 2 => rr3 s L w .fmul
    | 3 => rr3 s L w .fmin
    | 4 => rr3 s L w .fmax
    | 5 => rr2 s L w .fabs
    | 6 => rr2 s L w .fneg
    | _ => .error 6
  | 0x1B => match minor w with
    | 0 => rr3 s L w .fma
    | 1 => rr3 s L w .fmaD
    | _ => .error 6
  | 0x1C => match minor w with
    | 0 => rrq s L w .fcmpeq
    | 1 => rrq s L w .fcmplt
    | 2 => rrq s L w .fcmple
    | 3 => rrq s L w .fcmpun
    | _ => .error 6
  | 0x1D => match minor w with
    | 0 => rrc s L w .fcvtI64F32
    | 1 => rrc s L w .fcvtF32I64
    | 2 => rrc s L w .fcvtF16F32
    | 3 => rrc s L w .fcvtBf16F32
    | 4 => rrc s L w .fcvtF32F16
    | 5 => rrc s L w .fcvtF32Bf16
    | _ => .error 6
  | 0x1E => match minor w with
    | 0 => rr2 s L w .mov
    | 1 => rr1 s w .pkq
    | 2 => rr0 s L w .upkq
    | _ => .error 6
  | 0x1F => match minor w with
    | 0 => rr1 s w .rdcad
    | 1 => rr1 s w .rdpcyc
    | 2 => rr1 s w .rdtime
    | 3 => rr1 s w .rdcore
    | 4 => rr1 s w .flog
    | 5 => rr1 s w .rdtimeFrac
    | _ => .error 6
  | 0x20 => match minor w with
    | 0 => rr0 s L w .setcb
    | 1 => rr0b s L w .cbwr
    | _ => .error 6
  | 0x21 => match minor w with
    | 0 => rr0b s L w .waitt
    | _ => .error 6
  | 0x22 => chk s [ckIs (fld w 17 5) 0, ckIs (selA w) 35] (.trap (gd w) (imm11 w))
  | 0x23 => match minor w with
    | 0 => chk s [ckIs (fld w 17 5) 0, ckIs (selA w) 35, ckIs (selB w) 35] (.rfd (gd w))
    | 1 => rr1 s w fun g d => .rdtrap g d 0
    | 2 => rr1 s w fun g d => .rdtrap g d 1
    | 3 => rr1 s w fun g d => .rdtrap g d 2
    | 4 => rr0 s L w .settv
    | _ => .error 6
  | 0x24 => if minor w = 0 ∨ 16 ≤ minor w then .error 6
    else chk s [ckIs (fld w 17 5) 0, ckIs (selA w) 35, ckIs (selB w) 35] (.xfence (gd w) (toPC (fld w 0 2)) (toPC (fld w 2 2)))
  | 0x28 => brw s w .br
  | 0x29 => brw s w .call
  | 0x2A => match minor w with
    | 0 => rr0 s L w .jr
    | 1 => rr2 s L w .jalr
    | _ => .error 6
  | 0x2B => brw s w .loop
  | _ => .error 6

/-- The vector space (R76). -/
def decodeVector (s : Slot) (L w : Nat) : Except Nat Instr :=
  match maj w with
  | 0x01 => vi3 s L w .vadd
  | 0x02 => vi3 s L w .vsub
  | 0x03 => vi3 s L w .vmul
  | 0x04 => vi3 s L w .vmin
  | 0x05 => vi3 s L w .vmax
  | 0x06 => vi3 s L w .vminl
  | 0x07 => vi3 s L w .vmaxl
  | 0x08 => vi3 s L w .vand
  | 0x09 => vi3 s L w .vor
  | 0x0A => vi3 s L w .vxor
  | 0x0B => vi3 s L w .vshl
  | 0x0C => vi3 s L w .vshr
  | 0x0D => vi3 s L w .vsra
  | 0x0E => vi3 s L w .vadds
  | 0x0F => vi3 s L w .vsubs
  | 0x10 => vf3 s L w .vfadd
  | 0x11 => vf3 s L w .vfsub
  | 0x12 => vf3 s L w .vfmul
  | 0x13 => vf3 s L w .vfma
  | 0x14 => vf3 s L w .vfmad
  | 0x15 => vf3 s L w .vfmin
  | 0x16 => vf3 s L w .vfmax
  | 0x17 => vf2 s L w .vfabs
  | 0x18 => vf2 s L w .vfneg
  | 0x19 => vic s L w .vcmpeq
  | 0x1A => vic s L w .vcmplt
  | 0x1B => vic s L w .vcmple
  | 0x1C => vfc s L w .vfcmpeq
  | 0x1D => vfc s L w .vfcmplt
  | 0x1E => vfc s L w .vfcmple
  | 0x1F => vfc s L w .vfcmpun
  | 0x20 => vw3 s L w .vsel
  | 0x21 => vcv s L w .vcvtf
  | 0x22 => vcv s L w .vcvti
  | 0x23 => vcv s L w .vcvtif
  | 0x24 => vcv s L w .vwiden
  | 0x25 => vcv s L w .vnarrow
  | 0x26 => chk s [ckSel L (selA w), ckIs (selB w) 35] (.vmov (gd w) (dst w) (toSel (selA w)) (mask w) (toW (vari w)))
  | 0x28 => ri s L w .vaddi
  | 0x29 => ri5 s L w .vshli
  | 0x2A => ri5 s L w .vshri
  | 0x2B => ri5 s L w .vsrai
  | 0x2C => ri s L w .vandi
  | 0x30 => fi s w .vfmovi
  | 0x31 => fi s w .vfaddi
  | 0x32 => fi s w .vfmuli
  | 0x33 => fi s w .vmovi
  | 0x34 => match vari w with
    | 0 => rrk s w .kand
    | 1 => rrk s w .kor
    | 2 => rrk s w .kxor
    | _ => rrk s w .kandn
  | 0x35 => match vari w with
    | 0 => kst0 s w (ckCount L (selA w)) .ksetFirst
    | 1 => kst0 s w (ckSel L (selA w)) .ksetNz
    | 2 => kst0 s w (ckSel L (selA w)) .ksetNeg
    | _ => .error 6
  | 0x38 => if vari w = 3 then .error 6 else vw3 s L w .vperm
  | 0x39 => vwc s L w .vshuf
  | 0x3A => vwc s L w .vrot
  | 0x3B => vwc s L w .vbcst
  | 0x3C => match vari w with
    | 0 => rrc s L w fun g d a c => .vscan g d a c (mask w) 0
    | 1 => rrc s L w fun g d a c => .vscan g d a c (mask w) 1
    | 2 => rrc s L w fun g d a c => .vscan g d a c (mask w) 2
    | _ => .error 6
  | 0x3D => match toFT (vari w) with
    | none => .error 6
    | some t => rrc s L w fun g d a c => .vredf g d a c (mask w) t
  | 0x3E => match toIT (vari w) with
    | none => .error 6
    | some t => rrc s L w fun g d a c => .vredi g d a c (mask w) t
  | _ => .error 6

/-- The special-function space (R76, R185, R189). -/
def decodeSpecial (s : Slot) (L w : Nat) : Except Nat Instr :=
  match maj w with
  | 0x01 => sf1 s L w .exp2
  | 0x02 => sf1 s L w .log2
  | 0x03 => sf1 s L w .rcp
  | 0x04 => sf1 s L w .rsq
  | 0x05 => sf1 s L w .sqrt
  | 0x06 => sf1 s L w .sin
  | 0x07 => sf1 s L w .cos
  | 0x08 => sf2 s L w .rcpnr
  | 0x09 => sf2 s L w .rsqnr
  | 0x0A => sf1 s L w .tanh
  | 0x0B => sf1 s L w .sigm
  | 0x0C =>
    if selA w = 35 then chk s [ckIs (selB w) 35, ckIs (vari w) 0] (.vrand (gd w) (dst w) (mask w))
    else chk s [ckReg (selA w), ckIs (selB w) 35, ckIs (fld w 17 5) 0, ckIs (fld w 2 3) 0, ckIs (vari w) 0]
      (.vrandSeed (gd w) (fin w 11 5))
  | _ => .error 6

/-- The memory space (R76). -/
def decodeMemory (s : Slot) (L w : Nat) : Except Nat Instr :=
  match maj w with
  | 0x01 => match fld w 0 3 with
    | 0 => ldw .z8
    | 1 => ldw .z16
    | 2 => ldw .z32
    | 3 => ldw .d64
    | 4 => ldw .x8
    | 5 => ldw .x16
    | 6 => ldw .x32
    | _ => .error 6
  | 0x02 => match vari w with
    | 0 => stw .n8
    | 1 => stw .n16
    | 2 => stw .n32
    | _ => stw .n64
  | 0x03 => vw3 s L w .vld
  | 0x04 => vw3 s L w .vst
  | 0x05 => ms3 s L w .vlds
  | 0x06 => ms3 s L w .vsts
  | 0x07 => mx3 s L w .vldx
  | 0x08 => mx3 s L w .vstx
  | 0x09 => match vari w with
    | 0 => rr3 s L w fun g d a b => .vldb g d a b (mask w) false
    | 1 => rr3 s L w fun g d a b => .vldb g d a b (mask w) true
    | _ => .error 6
  | 0x0A => mk3 s L w .kld
  | 0x0B => mk3 s L w .kst
  | 0x0C => ri s L w .ldi
  | 0x0D => ri s L w .sti
  | 0x0E => ri s L w .vldi
  | 0x0F => ri s L w .vsti
  | _ => .error 6
where
  /-- LD (R197): minor [4:3] must be 0. -/
  ldw (t : LdType) : Except Nat Instr :=
    chk s [ckSel L (selA w), ckSel L (selB w), ckIs (fld w 3 2) 0] (.ld (gd w) (dst w) (toSel (selA w)) (toSel (selB w)) t)
  /-- ST (R198): minor [4:2] must be 0. -/
  stw (t : StType) : Except Nat Instr :=
    chk s [ckSel L (selA w), ckSel L (selB w), ckIs (fld w 2 3) 0] (.st (gd w) (dst w) (toSel (selA w)) (toSel (selB w)) t)

/-- The engine space (R76). -/
def decodeEngine (s : Slot) (w : Nat) : Except Nat Instr :=
  match maj w with
  | 0x01 => chk s [ckIs (fld w 3 2) 0] (.mset (gd w) (eo w) (ea w) (fin w 0 3))
  | 0x02 => e2 s w .mcall
  | 0x03 => e2 s w .mload
  | 0x04 => e2 s w .cpyaSpm
  | 0x05 => e2 s w .cpyaAcc
  | 0x08 => e2 s w .tlgo
  | 0x10 => e2 s w .get
  | 0x11 => e2 s w .put
  | 0x12 => e2 s w .putMc
  | 0x13 => e2 s w .racc
  | 0x18 => chk s [ckOn w, ckIs (fld w 0 5) 0] (.wpost (gd w) (ea w))
  | 0x19 => e2 s w .wstart
  | 0x1A => e2 s w .wcompl
  | 0x1B => chk s [ckOn w, ckIs (fld w 0 5) 0] (.wwait (gd w) (ea w))
  | 0x1C => e2 s w .wlock
  | 0x1D => e2 s w .wunlock
  | 0x20 => chk s [ckOn w, ckIs (fld w 5 5) 0] (.hwait (gd w) (fin w 0 4) (fld w 4 1 == 1))
  | 0x21 => chk s [ckOn w] (.htest (gd w) (ea w) (fin w 0 4) (fld w 4 1 == 1))
  | 0x28 => chk s [ckIs (fld w 4 1) 0] (.coll (gd w) (eo w) (ea w) (fin w 0 4))
  | 0x30 => chk s [ckOn w] (.launch (gd w) (ea w) (eb w))
  | 0x38 => chk s [ckOn w] (.cadv (gd w) (ea w) (eb w))
  | 0x39 => chk s [ckOn w] (.cadvEnd (gd w) (ea w) (eb w))
  | 0x3A => chk s [ckOn w, ckIs (fld w 0 10) 0] (.barQuad (gd w))
  | 0x3B => chk s [ckOn w, ckIs (fld w 0 10) 0] (.barDie (gd w))
  | _ => .error 6

/-- The word of a slot of a bundle with L literals; an error is the sub-code of R382. -/
def decodeWord (s : Slot) (L w : Nat) : Except Nat Instr :=
  match s.space with
  | .scalar => decodeScalar s L w
  | .vector => decodeVector s L w
  | .special => decodeSpecial s L w
  | .memory => decodeMemory s L w
  | _ => decodeEngine s w

/-- A micro-step (R221): an unnamed bit that is set, or a reserved opcode, has no instruction. -/
def decodeMicro (w : Nat) : Option Instr :=
  match fld w 58 6 with
  | 0x01 => guardO (fld w 0 58 = 0) .mend
  | 0x02 => guardO (fld w 16 42 = 0) (.mnop (BitVec.ofNat 16 w))
  | 0x03 => guardO (fld w 32 23 = 0) (.mseta (fin w 55 3) (BitVec.ofNat 32 w))
  | 0x04 => guardO (fld w 32 23 = 0) (.madda (fin w 55 3) (BitVec.ofNat 32 w))
  | 0x05 => guardO (fld w 32 24 = 0) (.msetc (fin w 56 2) (BitVec.ofNat 32 w))
  | 0x06 => guardO (fld w 13 43 = 0) (.mloop (fin w 56 2) (BitVec.ofNat 13 w))
  | 0x07 => guardO (fld w 4 54 = 0) (.msync (BitVec.ofNat 4 w))
  | 0x08 => guardO (fld w 11 24 = 0) (.agath (fin w 55 3) (fin w 52 3) (fin w 50 2) (fld w 49 1 == 1) (fin w 46 3)
      (BitVec.ofNat 11 (fld w 35 11)) (BitVec.ofNat 11 w))
  | 0x09 => guardO (fld w 2 37 = 0) (.wld (fin w 55 3) (BitVec.ofNat 16 (fld w 39 16)) (fld w 1 1 == 1) (fld w 0 1 == 1))
  | 0x0A => guardO (fld w 6 49 = 0 ∧ fld w 1 1 = 0) (.wldp (fin w 55 3) (fin w 2 4) (fld w 0 1 == 1))
  | 0x0B => guardO (fld w 11 33 = 0) (.aclr (fin w 55 3) (BitVec.ofNat 11 (fld w 44 11)) (BitVec.ofNat 11 w))
  | 0x0C => guardO (fld w 11 13 = 0) (.mma (fin w 55 3) (BitVec.ofNat 11 (fld w 44 11)) (fin w 41 3)
      (BitVec.ofNat 11 (fld w 30 11)) (fin w 26 4) (fld w 25 1 == 1) (fld w 24 1 == 1) (BitVec.ofNat 11 w))
  | _ => none
where
  /-- An instruction if its unnamed bits are 0. -/
  guardO (p : Prop) [Decidable p] (i : Instr) : Option Instr := if p then some i else none

/-- A chain command (R244, R245): a reserved op or an unnamed bit that is set has no instruction. -/
def decodeChain (w : Nat) : Option Instr :=
  let dt := BitVec.ofNat 11 w
  match fld w 28 4 with
  | 0x1 => some (.act (fin w 26 2) (BitVec.ofNat 15 (fld w 11 15)) dt)
  | 0x2 => if fld w 11 6 = 0 then some (.rd (BitVec.ofNat 7 (fld w 21 7)) (BitVec.ofNat 4 (fld w 17 4)) dt) else none
  | 0x3 => if fld w 11 6 = 0 then some (.wr (BitVec.ofNat 7 (fld w 21 7)) (BitVec.ofNat 4 (fld w 17 4)) dt) else none
  | 0x4 => if fld w 11 10 = 0 then some (.pre (BitVec.ofNat 7 (fld w 21 7)) dt) else none
  | 0x5 => if fld w 11 10 = 0 ∧ fld w 22 6 = 0 then some (.prea (fin w 21 1) dt) else none
  | 0x6 => if fld w 11 10 = 0 ∧ fld w 22 6 = 0 then some (.refab (fin w 21 1) dt) else none
  | 0x7 => if fld w 11 10 = 0 then some (.refpb (BitVec.ofNat 7 (fld w 21 7)) dt) else none
  | 0x8 => if fld w 11 10 = 0 ∧ fld w 22 6 = 0 then some (.maint (fin w 21 1) dt) else none
  | 0x9 => some (.chainWaitt (fld w 27 1 == 1) (BitVec.ofNat 16 (fld w 11 16)) dt)
  | 0xA => some (.ptr (fin w 27 1) (BitVec.ofNat 16 (fld w 11 16)) dt)
  | 0xB => some (.rowb (fin w 26 2) (BitVec.ofNat 15 (fld w 11 15)) dt)
  | 0xC => if fld w 25 2 = 0 then some (.lcnt (fin w 27 1) (BitVec.ofNat 14 (fld w 11 14)) dt) else none
  | 0xD => if fld w 25 2 = 0 then some (.chainLoop (fin w 27 1) (BitVec.ofNat 14 (fld w 11 14)) dt) else none
  | 0xE => if fld w 11 17 = 0 then some (.chainEnd dt) else none
  | _ => none

/-- A decoded bundle (R57). -/
structure Bundle where
  size : Nat
  k : Bool
  stall : Nat
  scope : Nat
  quiesce : Bool
  words : List (Slot × Instr)
  lits : List W32
deriving DecidableEq, Repr

/-- What the fetch of a bundle gives (R63, R65): a filler, a bundle, or a decode fault with its sub-code and slot. -/
inductive Fetched where
  | filler
  | fault (info : Nat) (slot : Nat)
  | bundle (b : Bundle)
deriving DecidableEq, Repr

/-- The number of a slot (R89, R372). -/
def Slot.num : Slot → Nat
  | .s0 => 0 | .s1 => 1 | .v0 => 2 | .v1 => 3 | .v2 => 4 | .f => 5 | .m0 => 6 | .m1 => 7 | .eng => 8

/-- The slots present in a head (R57, R58), in slot order. -/
def headSlots (h : Nat) : List Slot :=
  [(0, Slot.s0), (1, .s1), (2, .v0), (3, .v1), (4, .v2), (5, .f), (6, .m0), (7, .m1), (8, .eng)].filterMap
    fun (i, s) => if fld h i 1 = 1 then some s else none

/-- The parcels read as 32-bit words, little-endian (R57). -/
def pairUp : List Parcel → List Nat
  | a :: b :: r => (a.toNat + 2 ^ 16 * b.toNat) :: pairUp r
  | _ => []

/-- The words of the slots: of their faults the lowest row, and of equal rows the earliest slot (R369, R382). -/
def decodeSlots (L : Nat) : List (Slot × Nat) → Except (Nat × Nat) (List (Slot × Instr))
  | [] => .ok []
  | (s, w) :: r =>
    match decodeWord s L w, decodeSlots L r with
    | .ok i, .ok is => .ok ((s, i) :: is)
    | .ok _, .error x => .error x
    | .error e, .error x => .error (if x.1 < e then x else (e, s.num))
    | .error e, .ok _ => .error (e, s.num)

/-- The target of a BR-family offset (R71), as an integer. -/
def brTarget (addr : Nat) (off : BitVec 22) : Int := (addr : Int) + 2 * off.toInt

/-- A target is on an 8-byte boundary within IMEM (R64, R65). -/
def targetOk (t : Int) : Bool := decide (0 ≤ t ∧ t < 0x80000 ∧ t % 8 = 0)

/-- The bundle whose head is the first of the parcels, at IMEM address addr, the parcels running to the end of its
line; flow is true in sequential flow (R63, R65, R382 in the order of its rows). -/
def decodeBundle (addr : Nat) (flow : Bool) (ps : List Parcel) : Fetched :=
  match ps with
  | [] => .fault 1 15
  | h0 :: rest =>
    let h := h0.toNat
    if fld h 15 1 = 0 then
      if flow ∧ h = 0 then (if rest.all (· == 0) then .filler else .fault 2 15) else .fault 1 15
    else
      let sc := fld h 9 1
      let slots := headSlots h
      let L := fld h 10 2
      let size := 2 + 2 * sc + 4 * (slots.length + L)
      if 2 * ps.length < size then .fault 3 15
      else
        let scope := if sc = 1 then (rest.headD 0).toNat else 0
        let ws := pairUp (if sc = 1 then rest.tail else rest)
        let named := slots.zip ws
        let t := named.find? fun (s, w) => s == .s1 && (maj w == 0x28 || maj w == 0x29 || maj w == 0x2B)
                  && !targetOk (brTarget addr (BitVec.ofNat 22 w))
        if t.isSome then .fault 4 1
        else if fld scope 4 12 ≠ 0 ∨ 5 ≤ fld scope 0 3 then .fault 5 15
        else match decodeSlots L named with
          | .error (e, n) => .fault e n
          | .ok is => .bundle
              { size := size, k := fld h 14 1 = 1, stall := fld h 12 2, scope := fld scope 0 3,
                quiesce := fld scope 3 1 = 1, words := is,
                lits := ((ws.drop slots.length).take L).map (BitVec.ofNat 32) }

/-! ### The encoder -/

/-- The guard field. -/
def Guard.enc (g : Guard) : Nat := g.q.val * 2 + g.inv.toNat
/-- The value of a selector (R74). -/
def Sel.enc : Sel → Nat | .reg r => r.val | .lit n => 32 + n.val | .zero => 35 | .one => 36 | .cb n => 40 + n.val
/-- The value of a predicate selector. -/
def PSel.enc : PSel → Nat | .q n => n.val | .zero => 35 | .one => 36
/-- The value of a mask selector. -/
def KSel.enc : KSel → Nat | .k n => n.val | .zero => 35 | .one => 36
/-- The minor of LD. -/
def LdType.code : LdType → Nat | .z8 => 0 | .z16 => 1 | .z32 => 2 | .d64 => 3 | .x8 => 4 | .x16 => 5 | .x32 => 6
/-- The minor of ST. -/
def StType.code : StType → Nat | .n8 => 0 | .n16 => 1 | .n32 => 2 | .n64 => 3
/-- RR word (R68). -/
def encRR (m : Nat) (g : Guard) (d a b mi : Nat) : Nat := m * 2 ^ 26 + g.enc * 2 ^ 22 + d * 2 ^ 17 + a * 2 ^ 11 + b * 2 ^ 5 + mi
/-- RI word (R68). -/
def encRI (m : Nat) (g : Guard) (d a imm : Nat) : Nat := m * 2 ^ 26 + g.enc * 2 ^ 22 + d * 2 ^ 17 + a * 2 ^ 11 + imm
/-- FI word (R68). -/
def encFI (m : Nat) (d : Fin 32) (imm : BitVec 20) : Nat := m * 2 ^ 26 + d.val * 2 ^ 21 + imm.toNat
/-- BR word (R68). -/
def encBR (m : Nat) (g : Guard) (off : BitVec 22) : Nat := m * 2 ^ 26 + g.enc * 2 ^ 22 + off.toNat
/-- Engine word (R68). -/
def encE (m : Nat) (g : Guard) (o a b : Nat) : Nat := m * 2 ^ 26 + g.enc * 2 ^ 22 + o * 2 ^ 10 + a * 2 ^ 5 + b
/-- Chain command (R244). -/
def encC (op x : Nat) (dt : BitVec 11) : Nat := op * 2 ^ 28 + x + dt.toNat

/-- The word of an instruction; an event row has none and gives 0. -/
def encode : Instr → Nat
  | .add g d a b => encRR 0x01 g d.val a.enc b.enc 0
  | .sub g d a b => encRR 0x01 g d.val a.enc b.enc 1
  | .and g d a b => encRR 0x01 g d.val a.enc b.enc 2
  | .or g d a b => encRR 0x01 g d.val a.enc b.enc 3
  | .xor g d a b => encRR 0x01 g d.val a.enc b.enc 4
  | .andn g d a b => encRR 0x01 g d.val a.enc b.enc 5
  | .min g d a b => encRR 0x01 g d.val a.enc b.enc 6
  | .max g d a b => encRR 0x01 g d.val a.enc b.enc 7
  | .minl g d a b => encRR 0x01 g d.val a.enc b.enc 8
  | .maxl g d a b => encRR 0x01 g d.val a.enc b.enc 9
  | .shl g d a b => encRR 0x02 g d.val a.enc b.enc 0
  | .shr g d a b => encRR 0x02 g d.val a.enc b.enc 1
  | .sra g d a b => encRR 0x02 g d.val a.enc b.enc 2
  | .rol g d a b => encRR 0x02 g d.val a.enc b.enc 3
  | .mul g d a b => encRR 0x03 g d.val a.enc b.enc 0
  | .mulh g d a b => encRR 0x03 g d.val a.enc b.enc 1
  | .mulhl g d a b => encRR 0x03 g d.val a.enc b.enc 2
  | .extr g d a b => encRR 0x04 g d.val a.enc b.enc 0
  | .ins g d a b => encRR 0x04 g d.val a.enc b.enc 1
  | .clz g d a => encRR 0x04 g d.val a.enc 35 2
  | .ctz g d a => encRR 0x04 g d.val a.enc 35 3
  | .popc g d a => encRR 0x04 g d.val a.enc 35 4
  | .brev g d a => encRR 0x04 g d.val a.enc 35 5
  | .addsh g d a b n => encRR 0x05 g d.val a.enc b.enc n.val
  | .cmpeq g d a b => encRR 0x06 g d.val a.enc b.enc 0
  | .cmpne g d a b => encRR 0x06 g d.val a.enc b.enc 1
  | .cmplt g d a b => encRR 0x06 g d.val a.enc b.enc 2
  | .cmple g d a b => encRR 0x06 g d.val a.enc b.enc 3
  | .cmplo g d a b => encRR 0x06 g d.val a.enc b.enc 4
  | .cmpls g d a b => encRR 0x06 g d.val a.enc b.enc 5
  | .pand g d a b => encRR 0x07 g d.val a.enc b.enc 0
  | .por g d a b => encRR 0x07 g d.val a.enc b.enc 1
  | .pxor g d a b => encRR 0x07 g d.val a.enc b.enc 2
  | .pandn g d a b => encRR 0x07 g d.val a.enc b.enc 3
  | .addi g d a imm => encRI 0x08 g d.val a.enc imm.toNat
  | .andi g d a imm => encRI 0x09 g d.val a.enc imm.toNat
  | .ori g d a imm => encRI 0x0A g d.val a.enc imm.toNat
  | .xori g d a imm => encRI 0x0B g d.val a.enc imm.toNat
  | .cmpeqi g d a imm => encRI 0x0F g d.val a.enc imm.toNat
  | .cmplti g d a imm => encRI 0x10 g d.val a.enc imm.toNat
  | .cmploi g d a imm => encRI 0x11 g d.val a.enc imm.toNat
  | .vaddi g d a imm => encRI 0x28 g d.val a.enc imm.toNat
  | .vandi g d a imm => encRI 0x2C g d.val a.enc imm.toNat
  | .ldi g d a imm => encRI 0x0C g d.val a.enc imm.toNat
  | .sti g d a imm => encRI 0x0D g d.val a.enc imm.toNat
  | .vldi g d a imm => encRI 0x0E g d.val a.enc imm.toNat
  | .vsti g d a imm => encRI 0x0F g d.val a.enc imm.toNat
  | .shli g d a n => encRI 0x0C g d.val a.enc n.val
  | .shri g d a n => encRI 0x0D g d.val a.enc n.val
  | .srai g d a n => encRI 0x0E g d.val a.enc n.val
  | .vshli g d a n => encRI 0x29 g d.val a.enc n.val
  | .vshri g d a n => encRI 0x2A g d.val a.enc n.val
  | .vsrai g d a n => encRI 0x2B g d.val a.enc n.val
  | .lcset g a e => encRI 0x12 g 0 a.enc e.val
  | .nopw g a imm => encRI 0x13 g 0 a.enc imm.toNat
  | .movi d imm => encFI 0x14 d imm
  | .movhi d imm => encFI 0x15 d imm
  | .addl d imm => encFI 0x16 d imm
  | .fmovi d imm => encFI 0x17 d imm
  | .faddi d imm => encFI 0x18 d imm
  | .fmuli d imm => encFI 0x19 d imm
  | .vfmovi d imm => encFI 0x30 d imm
  | .vfaddi d imm => encFI 0x31 d imm
  | .vfmuli d imm => encFI 0x32 d imm
  | .vmovi d imm => encFI 0x33 d imm
  | .fadd g d a b => encRR 0x1A g d.val a.enc b.enc 0
  | .fsub g d a b => encRR 0x1A g d.val a.enc b.enc 1
  | .fmul g d a b => encRR 0x1A g d.val a.enc b.enc 2
  | .fmin g d a b => encRR 0x1A g d.val a.enc b.enc 3
  | .fmax g d a b => encRR 0x1A g d.val a.enc b.enc 4
  | .fabs g d a => encRR 0x1A g d.val a.enc 35 5
  | .fneg g d a => encRR 0x1A g d.val a.enc 35 6
  | .fma g d a b => encRR 0x1B g d.val a.enc b.enc 0
  | .fmaD g d a b => encRR 0x1B g d.val a.enc b.enc 1
  | .fcmpeq g d a b => encRR 0x1C g d.val a.enc b.enc 0
  | .fcmplt g d a b => encRR 0x1C g d.val a.enc b.enc 1
  | .fcmple g d a b => encRR 0x1C g d.val a.enc b.enc 2
  | .fcmpun g d a b => encRR 0x1C g d.val a.enc b.enc 3
  | .fcvtI64F32 g d a b => encRR 0x1D g d.val a.enc b.enc 0
  | .fcvtF32I64 g d a b => encRR 0x1D g d.val a.enc b.enc 1
  | .fcvtF16F32 g d a b => encRR 0x1D g d.val a.enc b.enc 2
  | .fcvtBf16F32 g d a b => encRR 0x1D g d.val a.enc b.enc 3
  | .fcvtF32F16 g d a b => encRR 0x1D g d.val a.enc b.enc 4
  | .fcvtF32Bf16 g d a b => encRR 0x1D g d.val a.enc b.enc 5
  | .mov g d a => encRR 0x1E g d.val a.enc 35 0
  | .pkq g d => encRR 0x1E g d.val 35 35 1
  | .upkq g a => encRR 0x1E g 0 a.enc 35 2
  | .rdcad g d => encRR 0x1F g d.val 35 35 0
  | .rdpcyc g d => encRR 0x1F g d.val 35 35 1
  | .rdtime g d => encRR 0x1F g d.val 35 35 2
  | .rdcore g d => encRR 0x1F g d.val 35 35 3
  | .flog g d => encRR 0x1F g d.val 35 35 4
  | .rdtimeFrac g d => encRR 0x1F g d.val 35 35 5
  | .setcb g a => encRR 0x20 g 0 a.enc 35 0
  | .cbwr g a b => encRR 0x20 g 0 a.enc b.enc 1
  | .waitt g a b => encRR 0x21 g 0 a.enc b.enc 0
  | .trap g imm => encRI 0x22 g 0 35 imm.toNat
  | .rfd g => encRR 0x23 g 0 35 35 0
  | .rdtrap g d n => encRR 0x23 g d.val 35 35 (n.val + 1)
  | .settv g a => encRR 0x23 g 0 a.enc 35 4
  | .xfence g p q => encRR 0x24 g 0 35 35 (q.code * 4 + p.code)
  | .br g off => encBR 0x28 g off
  | .call g off => encBR 0x29 g off
  | .loop g off => encBR 0x2B g off
  | .jr g a => encRR 0x2A g 0 a.enc 35 0
  | .jalr g d a => encRR 0x2A g d.val a.enc 35 1
  | .vadd g d a b k t => encRR 0x01 g d.val a.enc b.enc (k.val * 4 + t.code)
  | .vsub g d a b k t => encRR 0x02 g d.val a.enc b.enc (k.val * 4 + t.code)
  | .vmul g d a b k t => encRR 0x03 g d.val a.enc b.enc (k.val * 4 + t.code)
  | .vmin g d a b k t => encRR 0x04 g d.val a.enc b.enc (k.val * 4 + t.code)
  | .vmax g d a b k t => encRR 0x05 g d.val a.enc b.enc (k.val * 4 + t.code)
  | .vminl g d a b k t => encRR 0x06 g d.val a.enc b.enc (k.val * 4 + t.code)
  | .vmaxl g d a b k t => encRR 0x07 g d.val a.enc b.enc (k.val * 4 + t.code)
  | .vand g d a b k t => encRR 0x08 g d.val a.enc b.enc (k.val * 4 + t.code)
  | .vor g d a b k t => encRR 0x09 g d.val a.enc b.enc (k.val * 4 + t.code)
  | .vxor g d a b k t => encRR 0x0A g d.val a.enc b.enc (k.val * 4 + t.code)
  | .vshl g d a b k t => encRR 0x0B g d.val a.enc b.enc (k.val * 4 + t.code)
  | .vshr g d a b k t => encRR 0x0C g d.val a.enc b.enc (k.val * 4 + t.code)
  | .vsra g d a b k t => encRR 0x0D g d.val a.enc b.enc (k.val * 4 + t.code)
  | .vadds g d a b k t => encRR 0x0E g d.val a.enc b.enc (k.val * 4 + t.code)
  | .vsubs g d a b k t => encRR 0x0F g d.val a.enc b.enc (k.val * 4 + t.code)
  | .vfadd g d a b k t => encRR 0x10 g d.val a.enc b.enc (k.val * 4 + t.code)
  | .vfsub g d a b k t => encRR 0x11 g d.val a.enc b.enc (k.val * 4 + t.code)
  | .vfmul g d a b k t => encRR 0x12 g d.val a.enc b.enc (k.val * 4 + t.code)
  | .vfma g d a b k t => encRR 0x13 g d.val a.enc b.enc (k.val * 4 + t.code)
  | .vfmad g d a b k t => encRR 0x14 g d.val a.enc b.enc (k.val * 4 + t.code)
  | .vfmin g d a b k t => encRR 0x15 g d.val a.enc b.enc (k.val * 4 + t.code)
  | .vfmax g d a b k t => encRR 0x16 g d.val a.enc b.enc (k.val * 4 + t.code)
  | .vcmpeq g d a b k t => encRR 0x19 g d.val a.enc b.enc (k.val * 4 + t.code)
  | .vcmplt g d a b k t => encRR 0x1A g d.val a.enc b.enc (k.val * 4 + t.code)
  | .vcmple g d a b k t => encRR 0x1B g d.val a.enc b.enc (k.val * 4 + t.code)
  | .vfcmpeq g d a b k t => encRR 0x1C g d.val a.enc b.enc (k.val * 4 + t.code)
  | .vfcmplt g d a b k t => encRR 0x1D g d.val a.enc b.enc (k.val * 4 + t.code)
  | .vfcmple g d a b k t => encRR 0x1E g d.val a.enc b.enc (k.val * 4 + t.code)
  | .vfcmpun g d a b k t => encRR 0x1F g d.val a.enc b.enc (k.val * 4 + t.code)
  | .vsel g d a b k w => encRR 0x20 g d.val a.enc b.enc (k.val * 4 + w.code)
  | .vfabs g d a k t => encRR 0x17 g d.val a.enc 35 (k.val * 4 + t.code)
  | .vfneg g d a k t => encRR 0x18 g d.val a.enc 35 (k.val * 4 + t.code)
  | .vcvtf g d a c k => encRR 0x21 g d.val a.enc c.enc (k.val * 4)
  | .vcvti g d a c k => encRR 0x22 g d.val a.enc c.enc (k.val * 4)
  | .vcvtif g d a c k => encRR 0x23 g d.val a.enc c.enc (k.val * 4)
  | .vwiden g d a c k => encRR 0x24 g d.val a.enc c.enc (k.val * 4)
  | .vnarrow g d a c k => encRR 0x25 g d.val a.enc c.enc (k.val * 4)
  | .vmov g d a k w => encRR 0x26 g d.val a.enc 35 (k.val * 4 + w.code)
  | .kand g d a b => encRR 0x34 g d.val a.enc b.enc 0
  | .kor g d a b => encRR 0x34 g d.val a.enc b.enc 1
  | .kxor g d a b => encRR 0x34 g d.val a.enc b.enc 2
  | .kandn g d a b => encRR 0x34 g d.val a.enc b.enc 3
  | .ksetFirst g d a w => encRR 0x35 g d.val a.enc 35 (w.code * 4 + 0)
  | .ksetNz g d a w => encRR 0x35 g d.val a.enc 35 (w.code * 4 + 1)
  | .ksetNeg g d a w => encRR 0x35 g d.val a.enc 35 (w.code * 4 + 2)
  | .vperm g d a b k w => encRR 0x38 g d.val a.enc b.enc (k.val * 4 + w.code)
  | .vshuf g d a b k w => encRR 0x39 g d.val a.enc b.enc (k.val * 4 + w.code)
  | .vrot g d a b k w => encRR 0x3A g d.val a.enc b.enc (k.val * 4 + w.code)
  | .vbcst g d a b k w => encRR 0x3B g d.val a.enc b.enc (k.val * 4 + w.code)
  | .vscan g d a c k v => encRR 0x3C g d.val a.enc c.enc (k.val * 4 + v.val)
  | .vredf g d a b k t => encRR 0x3D g d.val a.enc b.enc (k.val * 4 + t.code)
  | .vredi g d a b k t => encRR 0x3E g d.val a.enc b.enc (k.val * 4 + t.code)
  | .exp2 g d a k => encRR 0x01 g d.val a.enc 35 (k.val * 4)
  | .log2 g d a k => encRR 0x02 g d.val a.enc 35 (k.val * 4)
  | .rcp g d a k => encRR 0x03 g d.val a.enc 35 (k.val * 4)
  | .rsq g d a k => encRR 0x04 g d.val a.enc 35 (k.val * 4)
  | .sqrt g d a k => encRR 0x05 g d.val a.enc 35 (k.val * 4)
  | .sin g d a k => encRR 0x06 g d.val a.enc 35 (k.val * 4)
  | .cos g d a k => encRR 0x07 g d.val a.enc 35 (k.val * 4)
  | .tanh g d a k => encRR 0x0A g d.val a.enc 35 (k.val * 4)
  | .sigm g d a k => encRR 0x0B g d.val a.enc 35 (k.val * 4)
  | .rcpnr g d a b k => encRR 0x08 g d.val a.enc b.enc (k.val * 4)
  | .rsqnr g d a b k => encRR 0x09 g d.val a.enc b.enc (k.val * 4)
  | .vrand g d k => encRR 0x0C g d.val 35 35 (k.val * 4)
  | .vrandSeed g a => encRR 0x0C g 0 a.val 35 0
  | .ld g d a b t => encRR 0x01 g d.val a.enc b.enc t.code
  | .st g d a b t => encRR 0x02 g d.val a.enc b.enc t.code
  | .vld g d a b k w => encRR 0x03 g d.val a.enc b.enc (k.val * 4 + w.code)
  | .vst g d a b k w => encRR 0x04 g d.val a.enc b.enc (k.val * 4 + w.code)
  | .vlds g d a b k p => encRR 0x05 g d.val a.enc b.enc (k.val * 4 + p.val)
  | .vsts g d a b k p => encRR 0x06 g d.val a.enc b.enc (k.val * 4 + p.val)
  | .vldx g d a b k p => encRR 0x07 g d.val a.enc b.val (k.val * 4 + p.val)
  | .vstx g d a b k p => encRR 0x08 g d.val a.enc b.val (k.val * 4 + p.val)
  | .vldb g d a b k int => encRR 0x09 g d.val a.enc b.enc (k.val * 4 + int.toNat)
  | .kld g d a b w => encRR 0x0A g d.val a.enc b.enc w.code
  | .kst g d a b w => encRR 0x0B g d.val a.enc b.enc w.code
  | .mset g o a k => encE 0x01 g o.toNat a.val k.val
  | .mcall g o a b => encE 0x02 g o.toNat a.val b.val
  | .mload g o a b => encE 0x03 g o.toNat a.val b.val
  | .cpyaSpm g o a b => encE 0x04 g o.toNat a.val b.val
  | .cpyaAcc g o a b => encE 0x05 g o.toNat a.val b.val
  | .tlgo g o a b => encE 0x08 g o.toNat a.val b.val
  | .get g o a b => encE 0x10 g o.toNat a.val b.val
  | .put g o a b => encE 0x11 g o.toNat a.val b.val
  | .putMc g o a b => encE 0x12 g o.toNat a.val b.val
  | .racc g o a b => encE 0x13 g o.toNat a.val b.val
  | .wstart g o a b => encE 0x19 g o.toNat a.val b.val
  | .wcompl g o a b => encE 0x1A g o.toNat a.val b.val
  | .wlock g o a b => encE 0x1C g o.toNat a.val b.val
  | .wunlock g o a b => encE 0x1D g o.toNat a.val b.val
  | .wpost g a => encE 0x18 g 0xFFF a.val 0
  | .wwait g a => encE 0x1B g 0xFFF a.val 0
  | .hwait g h vis => encE 0x20 g 0xFFF 0 (vis.toNat * 16 + h.val)
  | .htest g d h clr => encE 0x21 g 0xFFF d.val (clr.toNat * 16 + h.val)
  | .coll g o a h => encE 0x28 g o.toNat a.val h.val
  | .launch g a d => encE 0x30 g 0xFFF a.val d.val
  | .cadv g a b => encE 0x38 g 0xFFF a.val b.val
  | .cadvEnd g a b => encE 0x39 g 0xFFF a.val b.val
  | .barQuad g => encE 0x3A g 0xFFF 0 0
  | .barDie g => encE 0x3B g 0xFFF 0 0
  | .mend => 0x01 * 2 ^ 58
  | .mnop n => 0x02 * 2 ^ 58 + n.toNat
  | .mseta k imm => 0x03 * 2 ^ 58 + k.val * 2 ^ 55 + imm.toNat
  | .madda k imm => 0x04 * 2 ^ 58 + k.val * 2 ^ 55 + imm.toNat
  | .msetc k imm => 0x05 * 2 ^ 58 + k.val * 2 ^ 56 + imm.toNat
  | .mloop k t => 0x06 * 2 ^ 58 + k.val * 2 ^ 56 + t.toNat
  | .msync m => 0x07 * 2 ^ 58 + m.toNat
  | .agath s i wd st a aoff nm => 0x08 * 2 ^ 58 + s.val * 2 ^ 55 + i.val * 2 ^ 52 + wd.val * 2 ^ 50 + st.toNat * 2 ^ 49 + a.val * 2 ^ 46 +
      aoff.toNat * 2 ^ 35 + nm.toNat
  | .wld d j int h => 0x09 * 2 ^ 58 + d.val * 2 ^ 55 + j.toNat * 2 ^ 39 + int.toNat * 2 + h.toNat
  | .wldp d fmt h => 0x0A * 2 ^ 58 + d.val * 2 ^ 55 + fmt.val * 4 + h.toNat
  | .aclr c coff nm => 0x0B * 2 ^ 58 + c.val * 2 ^ 55 + coff.toNat * 2 ^ 44 + nm.toNat
  | .mma c coff a aoff afmt x2 h nm => 0x0C * 2 ^ 58 + c.val * 2 ^ 55 + coff.toNat * 2 ^ 44 + a.val * 2 ^ 41 + aoff.toNat * 2 ^ 30 + afmt.val * 2 ^ 26 +
      x2.toNat * 2 ^ 25 + h.toNat * 2 ^ 24 + nm.toNat
  | .act k off dt => encC 0x1 (k.val * 2 ^ 26 + off.toNat * 2 ^ 11) dt
  | .rd ba col dt => encC 0x2 (ba.toNat * 2 ^ 21 + col.toNat * 2 ^ 17) dt
  | .wr ba col dt => encC 0x3 (ba.toNat * 2 ^ 21 + col.toNat * 2 ^ 17) dt
  | .pre ba dt => encC 0x4 (ba.toNat * 2 ^ 21) dt
  | .prea pc dt => encC 0x5 (pc.val * 2 ^ 21) dt
  | .refab pc dt => encC 0x6 (pc.val * 2 ^ 21) dt
  | .refpb ba dt => encC 0x7 (ba.toNat * 2 ^ 21) dt
  | .maint pc dt => encC 0x8 (pc.val * 2 ^ 21) dt
  | .chainWaitt nx n dt => encC 0x9 (nx.toNat * 2 ^ 27 + n.toNat * 2 ^ 11) dt
  | .ptr p v dt => encC 0xA (p.val * 2 ^ 27 + v.toNat * 2 ^ 11) dt
  | .rowb k v dt => encC 0xB (k.val * 2 ^ 26 + v.toNat * 2 ^ 11) dt
  | .lcnt j v dt => encC 0xC (j.val * 2 ^ 27 + v.toNat * 2 ^ 11) dt
  | .chainLoop j v dt => encC 0xD (j.val * 2 ^ 27 + v.toNat * 2 ^ 11) dt
  | .chainEnd dt => encC 0xE 0 dt
  | _ => 0

/-- The words of a bundle as parcels: head, scope parcel when one is needed, slot words in order, literals (R57, R58). -/
def encodeBundle (b : Bundle) : List Parcel :=
  let pres := b.words.foldl (fun n (s, _) => n + 2 ^ s.num) 0
  let sc := if b.scope = 0 ∧ b.quiesce = false then 0 else 1
  let head := 2 ^ 15 + b.k.toNat * 2 ^ 14 + b.stall * 2 ^ 12 + b.lits.length * 2 ^ 10 + sc * 2 ^ 9 + pres
  let split := fun (w : Nat) => [BitVec.ofNat 16 w, BitVec.ofNat 16 (w / 2 ^ 16)]
  BitVec.ofNat 16 head :: (if sc = 1 then [BitVec.ofNat 16 (b.scope + 8 * b.quiesce.toNat)] else []) ++
    (b.words.map fun (_, i) => split (encode i)).flatten ++ (b.lits.map fun l => split l.toNat).flatten

/-- The little-endian bytes of the n-byte word w, lowest address first (R4). -/
def leBytes : Nat → Nat → List Byte
  | 0, _ => []
  | n + 1, w => BitVec.ofNat 8 w :: leBytes n (w / 256)

/-- The value of little-endian bytes (R4). -/
def ofLe : List Byte → Nat
  | [] => 0
  | b :: r => b.toNat + 256 * ofLe r

/-- Bytes as parcels. -/
def toParcels : List Byte → List Parcel
  | a :: b :: r => BitVec.ofNat 16 (a.toNat + 256 * b.toNat) :: toParcels r
  | _ => []

/-- The instruction read from bits numbered as the opcode table numbers them: 32 bits are a chain command (R244), the
only rows to which the table gives bits; 64 bits are a micro-step (R221); any other length is a bundle at IMEM
offset 0, of which the first word is answered (R57). -/
def decodeTableWord (nbits w : Nat) : Option Instr :=
  if nbits = 32 then decodeChain (ofLe (leBytes 4 w))
  else if nbits = 64 then decodeMicro (ofLe (leBytes 8 w))
  else match decodeBundle 0 true (toParcels (leBytes 64 w)) with
    | .bundle b => b.words.head?.map (·.2)
    | _ => none

end Sys2Proof
end

