-- ==== Sys2Proof/Machine/State.lean ====
section
/-! DEFINITION. The state of the module as plain data: what the specification gives the machine, the agenda of pending
operations and landings in the order in which they come about, and the state after reset. -/

namespace Sys2Proof.Machine

open Sys2Proof

/-! ### Sparse tables -/

/-- The entry at an index of a sparse table whose unlisted entries read d. -/
def Sp.get {α : Type} (d : α) : List (Nat × α) → Nat → α
  | [], _ => d
  | (j, y) :: r, i => if j = i then y else Sp.get d r i

/-- Insert or replace in ascending order. -/
def Sp.put {α : Type} (i : Nat) (x : α) : List (Nat × α) → List (Nat × α)
  | [] => [(i, x)]
  | (j, y) :: r => if j < i then (j, y) :: Sp.put i x r else if j = i then (i, x) :: r else (i, x) :: (j, y) :: r

/-- Write an entry; the value that an unlisted entry reads is not listed. -/
def Sp.set {α : Type} [DecidableEq α] (d : α) (m : List (Nat × α)) (i : Nat) (x : α) : List (Nat × α) :=
  if x = d then m.filter (fun e => e.1 ≠ i) else Sp.put i x m

/-- The canonical form: indices strictly rising, and no entry equal to what an unlisted one reads. -/
def Sp.wf {α : Type} [DecidableEq α] (d : α) : List (Nat × α) → Bool
  | [] => true
  | [(_, x)] => x ≠ d
  | (i, x) :: (j, y) :: r => decide (x ≠ d) && decide (i < j) && Sp.wf d ((j, y) :: r)

/-- A byte memory: cells in ascending order, unlisted bytes read 0 (log entry 1). -/
abbrev Memory := List Host.Cell

/-- What a byte that nothing has written reads as (log entry 1, DESIGN CHOICE). -/
def Memory.unlisted : Byte := 0

/-! ### Registers of a core -/

/-- A completion handle (R276). -/
structure Handle where
  err : BitVec 4
  nr : Byte
  nv : Byte
  tagv : Bool
  tag : BitVec 16
deriving DecidableEq, Repr

/-- The registers that a daymark's shadow holds (R377). -/
structure Regs where
  s : Vector W64 32
  v : Vector VReg 32
  k : Vector KReg 8
  q : Vector Bool 8
  mp : Vector W64 8
  lcN : W32
  lcE : Fin 4
  rb : Fin 8
  cbase : Byte
  rngs : W64
  flash : W64
  tvec : W64
  latch : BitVec 16
deriving DecidableEq, Repr

/-- Recovery actions in the order of R355, the weakest first. -/
inductive Recovery where
  | n | b | p | h | e | r | q
deriving DecidableEq, Repr

/-- A detected error (R354, R372, R390): class, sub-code, reporting slot and bundle, FLTREC, and the action. -/
structure Err where
  cls : Nat
  info : Nat
  slot : Nat
  addr : Nat
  loc : W32
  aux : Nat
  val0 : W32
  val1 : W32
  act : Recovery
deriving DecidableEq, Repr

/-- The storages that soft errors mark (R366). -/
inductive Store where
  | spm | dmem | acc | s | v | k | q | mp | h | lcrb | cbase | rngs | abuf | latch | operand | residue
  | imem | cbank | rtab | rstore | chainMem | shadow | window | ttab | hbm | lq | chunk
deriving DecidableEq, Repr

/-- A soft error: the unit of protection that it marks, and whether it is uncorrectable (R366). The units of v are the 64 words of v0, then
those of v1 and so on, and of k likewise 16 words a register; those of chain memory are 8 bytes, two commands. -/
structure Mark where
  store : Store
  unit : Nat
  hard : Bool
deriving DecidableEq, Repr

/-! ### The matrix engine and the copy engine -/

/-- A weight latch half (R214): its listed entries, by row × 128 + column, are present; the others are absent. -/
structure Half where
  entries : List (Nat × Weight)
  int : Bool
  sparse : Bool
deriving DecidableEq, Repr

/-- The sequencer of a running routine (R217-R220). Cycles are absolute. -/
structure Seq where
  step : Nat
  last : Nat
  next : Nat
  routine : Nat
  addr : Nat
  portFree : Nat
  arrayFree : Nat
  sw0 : Nat
  sw1 : Nat
  gLand : Nat
  aLand : Nat
  stopped : Bool
deriving DecidableEq, Repr

/-- The matrix engine (R210). `accWrote` lists what the array has written in its latest landing cycle: the cycle, the element and its value
before (R237, R398). -/
structure Matrix where
  ma : Vector W32 8
  mc : Vector W32 4
  abuf : Memory
  half0 : Half
  half1 : Half
  acc : List (Nat × W32)
  rtab : List (Nat × W64)
  rstore : List (Nat × W64)
  seq : Option Seq
  began : Nat
  busyTo : Nat
  copyBegan : Nat
  copyFree : Nat
  accWrote : List (Nat × Nat × W32)
deriving DecidableEq, Repr

/-- A gather in progress (R223). -/
structure Gather where
  base : Nat
  width : Nat
  stride : Option Int
  row0 : Nat
  n : Nat
  list : Nat
  idx : List Nat
deriving DecidableEq, Repr

/-- A latch load in progress (R225, R226, R234). -/
structure Load where
  half : Bool
  int : Bool
  mload : Bool
  base : Nat
  count : Nat
  fmt : Nat
  entries : List (Nat × Weight)
  col : Nat
  second : Bool
  allSparse : Bool
deriving DecidableEq, Repr

/-- A work of the port unit at one cycle: the step, and which of its port cycles. -/
inductive Port where
  | gatherList (g : Gather) (k : Nat)
  | gatherRows (g : Gather) (m : Nat)
  | entry (l : Load) (addr : Nat)
  | blocks (l : Load) (k : Nat)
  | plain (l : Load) (k : Nat)
deriving DecidableEq, Repr

/-- An MMA in progress (R228): its step address and issue cycle, and its operands. -/
structure MmaOp where
  step : Nat
  start : Nat
  c0 : Nat
  a0 : Nat
  afmt : Nat
  x2 : Bool
  half : Bool
  n : Nat
deriving DecidableEq, Repr

/-- What one array landing does to an ACC element (R120, R122, R227). -/
inductive AccUpd where
  | f (groups : List W32)
  | i (x : W32)
  | clear
deriving DecidableEq, Repr

/-- A CPYA in progress (R235, R236). -/
structure CopyOp where
  toSpm : Bool
  addr : Nat
  row0 : Nat
  n : Nat
  fmt : Nat
  int : Bool
  mode : Nat
  scale : Option Int
  pitch : Nat
  clr : Bool
  bundle : Nat
deriving DecidableEq, Repr

/-! ### Channel, chain and translation -/

/-- A bank of the channel: its open row with the rights of the entry that opened it, and the ticks of its latest
commands (R252, R261). -/
structure Bank where
  row : Option Nat
  rd : Bool
  wr : Bool
  va : Nat
  act : Option Nat
  pre : Option Nat
  rdT : Option Nat
  wrT : Option Nat
  ref : Option Nat
deriving DecidableEq, Repr

/-- A pseudo-channel: the ticks of its latest commands, its debts, and the tick at which its maintenance slot ends (R252, R255-R257). -/
structure Pseudo where
  acts : List Nat
  rw : Option Nat
  wrT : Option Nat
  prea : Option Nat
  closed : Option Nat
  refab : Option Nat
  maint : Option Nat
  debtD : Int
  debtM : Nat
  refpb : List Nat
  scrub : Nat
  repairReq : List Nat
deriving DecidableEq, Repr

/-- A running chain (R242, R243): next command, tick of the previous command, start cycle, the bundle that started it,
the phase tick of a WAITT that waits for the next phase, the commands left once a sampling has failed (R391), and the ticks of the commands
to come whose samplings or lookups have been made (R249, R261). -/
structure ChainRun where
  idx : Nat
  last : Nat
  start : Nat
  issued : Nat
  addr : Nat
  waitNext : Option Nat
  firmware : Bool
  left : Option Nat
  scope : Nat
  read : List Nat
deriving DecidableEq, Repr

/-- The chain sequencer and its channel (R239-R258); lastRun is the start cycle of the chain that ran last. -/
structure Channel where
  mem : List (Nat × W32)
  hbm : Memory
  run : Option ChainRun
  lastRun : Option Nat
  ptr : Vector Nat 2
  rowb : Vector Nat 4
  lc : Vector Nat 2
  banks : List (Nat × Bank)
  pc : Vector Pseudo 2
  rowBus : Option Nat
  colBus : Option Nat
  ports : List (Nat × Nat)
  tim : Vector W64 3
  timNew : Vector W64 3
deriving DecidableEq, Repr

/-- A translation entry with what is pending on it (R260, R262, R405): an invalidate, the cycle of its request, and a
validation of the entry written; the record whose lease wrote it (R307, R314); and whether the package controller has changed it since
the context of its halted core was saved (R421, R422). -/
structure Tte where
  word : W64
  inval : Option Nat
  valid : Option W64
  owner : Option Nat
  fresh : Bool
deriving DecidableEq, Repr

/-! ### Windows and remote operations -/

/-- The kinds of operation that reach a window (R268). -/
inductive OpKind where
  | get | put | putMc | racc | wstart | wcompl | wlock | wunlock
deriving DecidableEq, Repr

/-- An operation staged at a target port (R272): kind, origin rank, order of issue, start cycle, offset, elements. -/
structure Staged where
  kind : OpKind
  rank : Nat
  serial : Nat
  start : Nat
  off : Nat
  op : Nat
  type : Nat
  data : List Byte
deriving DecidableEq, Repr

/-- What a GET may find for a byte of an open window (R272, R297, R298, R414): the opening value is the first of `first` that no fence
hides, and `later` are the values of timed writes since; each with the cycle from whose operations on a fence hides it. -/
structure Opening where
  first : List (Byte × Option Nat)
  later : List (Byte × Option Nat)
deriving DecidableEq, Repr

/-- A window-table entry (R266): word 0, the descriptor's valid bit held back to the first phase (R267), word 1 by
fields, the staged operations, what a GET may find for the bytes that have more than the value in SPM, the ranks that hold access and the
waiting requests (R271, R287, R289), the apply (R275, R286), the unlock whose event awaits it (R277), the interval's accepted operations by
rank and order of issue (R300), and the bytes that the apply under way gives (R273). -/
structure Window where
  word0 : W64
  expect : Byte
  count : Byte
  tag : BitVec 16
  state : Fin 4
  holders : Nat
  staged : List Staged
  opened : List (Nat × Opening)
  grants : List Nat
  waiting : List Nat
  validNext : Bool
  applying : Bool
  wwait : Bool
  doneAt : Nat
  unlock : Option Nat
  origins : List (Nat × Nat)
  result : List (Nat × Byte)
deriving DecidableEq, Repr

/-- A remote operation between its start and its last event (R279-R283, R424, R425): `task` is the task of its core that started it,
`heard` the targets that have answered, `saw` the operations whose effects a GET has read, by rank and order of issue (R300). -/
structure RemoteOp where
  id : Nat
  kind : OpKind
  dev : Nat
  core : Nat
  part : Nat
  rank : Nat
  tag : BitVec 16
  handle : Option (Fin 16)
  target : List Nat
  entry : Nat
  off : Nat
  loc : Nat
  n : Nat
  op : Nat
  type : Nat
  excl : Bool
  scope : Nat
  start : Nat
  phase : Nat
  data : List Byte
  left : Nat
  nrDone : Bool
  nvDone : Bool
  late : Bool
  got : List Nat
  heard : List Nat
  task : Nat
  saw : List (Nat × Nat)
deriving DecidableEq, Repr

/-! ### Issue -/

/-- What a core that has issued a wait is waiting for (R141). -/
inductive Wait where
  | handle (h : Fin 16) (vis : Bool)
  | time (t : W64)
  | window (e : Fin 32)
  | barrier (die : Bool)
deriving DecidableEq, Repr

/-- The bundle last issued, until the next one is placed (R60, R140, R141): its address and size, issue cycle, stall,
the target of its taken branch, the waits it set, and its arrival. -/
structure Issued where
  addr : Nat
  size : Nat
  cyc : Nat
  stall : Nat
  scope : Nat
  taken : Option Nat
  until_ : Nat
  waits : List Wait
deriving DecidableEq, Repr

/-- A queued engine command (R231, R320): its word, the values of its registers, its start cycle, bundle and scope. -/
structure Cmd where
  instr : Instr
  a : W64
  b : W64
  start : Nat
  issued : Nat
  addr : Nat
  scope : Nat
  tag : BitVec 16
  replayed : Bool
deriving DecidableEq, Repr

/-- An arrival (R36): its cycle, operands, whether the task ends, the cycle at which it counts (R292), and whether it stands for a task
end (R362). -/
structure Arrival where
  cyc : Nat
  fence : W32
  pclass : Nat
  budget : Nat
  ends : Bool
  counted : Option Nat
  forced : Bool
deriving DecidableEq, Repr

/-- The life of a core between tasks (R28-R31, R315, R363, R420). -/
inductive Life where
  | free | prep | task | halted | retired
deriving DecidableEq, Repr

/-- The two-rerun verification (R397, R398): the signature of the cycles before cyc, and the writes of cyc in the order of their
writers. -/
structure Verify where
  stage : Nat
  count : Nat
  sig : W32
  count1 : Nat
  sig1 : W32
  began : Nat
  waited : Nat
  cyc : Nat
  writes : List (Nat × List Byte)
deriving DecidableEq, Repr

/-- The state of a trap sequence or rollback between the fault and the end of its drain (R369-R371, R361): the fault cycle f,
the cadence count and the phase cycle at f (R372), TVEC as readable at f (R371), the start cycle of the stopped chain whose
landings belong to it (R370), whether a matrix data error has joined it (R355, R397), whether the core has been parked in place of its
rollback (R355, R416), and the bundle last issued, the pending branch target and RFD that issue then goes on with. -/
structure Drain where
  err : Err
  f : Nat
  cad : Nat
  cyc : Nat
  tvec : W64
  multi : Bool
  rfd : Bool
  verify : Bool
  chain : Option Nat
  matrix : Bool
  parked : Bool
  wasIssued : Option Issued
  wasDelay : Option Nat
  wasRfd : Bool
deriving DecidableEq, Repr

/-- A halted core (R420-R422): the count of the phase that its arrival ended, whether its context is saved, and the cycle at
which its restore ended. -/
structure Saved where
  core : Nat
  count : BitVec 48
  done : Bool
  ready : Option Nat
deriving DecidableEq, Repr

/-- The training registers and generators of one lane of one pseudo-channel (R437-R442): the delays in force and as written, and what
the routine notes of a sweep (R443): the passing codes up to the last, and the eyes, each by its lowest code and its width. -/
structure Lane where
  rdly : BitVec 7
  wdly : BitVec 7
  rnew : BitVec 7
  wnew : BitVec 7
  err : BitVec 16
  wgen : BitVec 7
  cgen : BitVec 7
  run : Nat
  eye : Nat × Nat
  readEye : Nat × Nat
deriving DecidableEq, Repr

/-- The steps of the training routine that take more than a cycle (R443). -/
inductive TrainStage where
  | read | write | repair | confirm
deriving DecidableEq, Repr

/-- A training routine that runs on a channel (R443): its step, the code of a sweep, whether the step's chain or message is out, whether
that chain broke a rule (R442), and the repairs to come, by pseudo-channel, lane and spare. -/
structure Train where
  stage : TrainStage
  code : Nat
  begun : Bool
  broke : Bool
  repairs : List (Nat × Nat × Nat)
deriving DecidableEq, Repr

/-- The training state of a channel (R437-R444): its registers, whether pattern mode is in force, the running routine, and the bits of the
lanes 32-37 that pattern WRs have left in a block, 16 beats to a lane (R441). -/
structure Phy where
  lanes : Vector (Vector Lane 38) 2
  map : Vector W64 2
  ctl : W64
  pat : Bool
  trnst : W64
  train : Option Train
  extra : List (Nat × BitVec 96)
deriving DecidableEq, Repr

/-- A byte of SPM that two paths have touched without an order between them (R296): the value that a reader may find in
place of the one in SPM, the value that the write itself gives, the class of the write, the operations behind it by rank and order of
issue (R300), the operation, handle or window whose completion the core can read, whether
the write has yet to land, the cycle from which its completion is readable, the cycle at which the core has read it, and
the fences since, each with the class that it orders and the cycle from which it does (R298). -/
structure Loose where
  addr : Nat
  other : Byte
  value : Byte
  writer : PathClass
  origins : List (Nat × Nat)
  op : Option Nat
  handle : Option (Fin 16)
  entry : Option (Fin 32)
  early : Bool
  done : Option Nat
  seen : Option Nat
  fenced : List (PathClass × Nat)
deriving DecidableEq, Repr

/-- A core: control core, engines, port and channel. `known` is the latest operation of each rank whose effect the core has seen, by its
order of issue (R300), and `parking` says that the core is parked in this cycle and that the cycle's errors are yet to be resolved (R355,
R416). -/
structure Core where
  regs : Regs
  handles : Vector Handle 16
  cbank : Vector W32 256
  slim : BitVec 18
  trap0 : W64
  trap1 : W64
  trap2 : W64
  flt0 : W64
  flt1 : W64
  cerrst : W64
  werr : W64
  werrBy : Nat × Nat
  spm : Memory
  dmem : Memory
  imem : Memory
  spmOld : List (Nat × Nat × Byte)
  loose : List Loose
  known : List (Nat × Nat)
  spmRegion : List (Nat × Bool)
  dmemRegion : List (Nat × Bool)
  accRegion : List (Nat × Bool)
  marks : List Mark
  mx : Matrix
  ch : Channel
  tt : List (Nat × Tte)
  win : Vector Window 32
  srcFree : Nat
  applyFree : Nat
  hbmFixed : Nat
  queues : Vector (List Cmd) 5
  -- issue
  pc : Nat
  flow : Bool
  delay : Option Nat
  issued : Option Issued
  lastAddr : Nat
  rfd : Bool
  errs : List Err
  drain : Option Drain
  parking : Bool
  -- task
  life : Life
  record : Option Nat
  lastRecord : Option Nat
  iter : Nat
  task : Nat
  arrival : Option Arrival
  pclass : Nat
  deftClass : Nat
  phase : Option (Nat × Nat)
  barQ : Bool
  barD : Bool
  part : Fin 8
  image : Option Nat
  prepEnd : Nat
  opsLeft : Nat
  -- daymark
  shadow : Option (Nat × Regs)
  dayFirst : Nat
  dayLast : Nat
  dayNext : Option Nat
  replay : List (Nat × Nat)
  replayed : Nat
  rolls : Nat
  shift : Nat
  verify : Option Verify
  phy : Phy
deriving DecidableEq, Repr

/-! ### The agenda -/

/-- Where an operation runs (the model's own, log entry 2): core, slot, bundle address, literals and scope, and for an
event row the operation, command slot or entry on which it acts. -/
structure Focus where
  core : Fin 256
  slot : Slot
  addr : Nat
  lits : List W32
  scope : Nat
  quiesce : Bool
  arg : Nat
deriving DecidableEq, Repr

/-- A write that lands (R9, R90, R194). A vector write carries the bits that it writes (R154), and
a store of 4-bit elements the bits of each byte (R200). -/
inductive Land where
  | s (d : Fin 32) (x : W64)
  | v (p : Fin 32) (m x : VReg)
  | k (d : Fin 8) (m x : KReg)
  | q (d : Fin 8) (x : Bool)
  | qs (x : BitVec 8)
  | loop (n : W32) (e : Fin 4) (rb : Fin 8) (q4 q5 q6 q7 : Bool)
  | cbase (x : Byte)
  | cbank (i : Byte) (x : W32)
  | tvec (x : W64)
  | latch (x : BitVec 16)
  | flash (slot : Nat) (addr : Nat) (classes : BitVec 4)
  | spm (bytes : List (Nat × Byte))
  | dmem (bytes : List (Nat × Byte))
  | nibbles (spm : Bool) (cells : List (Nat × Byte × Byte))
deriving DecidableEq, Repr

/-- A load between its issue and its read point (R194). -/
inductive LoadReq where
  | s (d : Fin 32) (ea : Nat) (t : LdType)
  | v (p : Fin 32) (ea : Nat) (m : VReg)
  | k (d : Fin 8) (ea : Nat) (w : Width)
  | gather (p : Fin 32) (eas : List (Nat × Nat))
  | block (p : Fin 32) (ea : Nat) (k : KReg) (int : Bool)
deriving DecidableEq, Repr

/-- The pending operations. `run` is an instruction in execution; the others are the parts of operations that fall at
later cycles. -/
inductive Ev where
  | run (f : Focus) (i : Instr)
  | issue
  | endCycle
  | lateEnd (stopped : Bool)
  | land (slot : Nat) (l : Land)
  | load (f : Focus) (r : LoadReq)
  | seed (x : W64)
  | flogClear
  | setHandle (h : Fin 16) (tag : Option (BitVec 16)) (dnr dnv : Bool) (code : BitVec 4)
  | clearErr (h : Fin 16) (e : BitVec 4)
  | countHandle (h : Fin 16)
  | seqStep
  | port (p : Port) (addr : Nat)
  | array (o : MmaOp) (m : Nat) (addr : Nat)
  | abuf (bytes : List (Nat × Byte))
  | latch (h : Bool) (x : Half)
  | acc (src : Option (MmaOp × Nat × Nat)) (ups : List (Nat × AccUpd))
  | copyRow (o : CopyOp) (k : Nat)
  | copySpm (bytes : List (Nat × Byte))
  | copyAcc (els : List (Nat × W32))
  | chain
  | chainSample
  | chainLook
  | tte (e : Nat) (w : W64)
  | source (id : Nat) (k : Nat)
  | wpost (e : Fin 32)
  | apply (e : Fin 32)
  | wwaited (e : Fin 32)
  | badEntry (entry : Nat)
  | switchPages
  | mcArrival (id group : Nat)
  | barWrite (addr : Nat) (data : List Byte)
  | train
  | getLand (id : Nat) (bytes : List (Nat × Byte))
  | launchRead (f : Focus) (a : Nat) (d : Fin 32)
  | collRead (id : Nat)
  | decide
  | firmware
deriving DecidableEq, Repr

/-- A pending operation with its tick, its place within the cycle, and its core (log entry 2). -/
structure Item where
  tick : Nat
  prio : Nat
  core : Nat
  ev : Ev
deriving DecidableEq, Repr

/-! ### The package -/

/-- An MSI-X vector that has been raised (R337, R359): its number, and for the completion of a record the identifier that it
reports and whether the record failed (R307, R308, R362). -/
structure Msi where
  number : Nat
  record : Option (W32 × Bool)
deriving DecidableEq, Repr

/-- A loop-nest record accepted by the scheduler (R306-R314): its entry in its queue, its words, whether its lease work has begun and its leases
are granted, the next iteration never bound and those returned, the bound iterations that have not ended, and the order of
activation. -/
structure Record where
  id : Nat
  entry : Nat
  word : BitVec 1024
  part : Nat
  prio : Nat
  begun : Bool
  granted : Bool
  active : Bool
  order : Nat
  next : Nat
  returned : List Nat
  running : Nat
  failed : Bool
deriving DecidableEq, Repr

/-- The copying of one replicated lease entry to the other gang cores (R314), into each of their copies (R303): blocks read and
written, by pseudo-channel, the data of the blocks that have been read, and a number of its own. -/
structure Move where
  record : Nat
  home : Nat
  base : Nat
  blocks : Nat
  copies : Nat
  read : Vector Nat 2
  dst : List (Nat × Nat × Nat)
  bad : Bool
  data : List (Nat × BitVec 512)
  id : Nat
deriving DecidableEq, Repr

/-- A write of the owner of a replicated page (R302): block of the range, scope of the chain, tick at which the data
reaches the row, data. -/
structure Upd where
  block : Nat
  scope : Nat
  reach : Nat
  data : BitVec 512
deriving DecidableEq, Repr

/-- A replica of a range (R301-R303): its core, the physical base, whether the second copy is in use, whether it switches at
the next compute boundary, and the blocks that the copy in use lacks, or will lack once it is not. -/
structure Replica where
  core : Nat
  base : Nat
  second : Bool
  switching : Bool
  prev : List (Nat × BitVec 512)
deriving DecidableEq, Repr

/-- A replicated range (R301-R304): its owner, propagation, page base and blocks, the replicas, the owner's writes that
belong to no update yet, and the blocks still to copy into replicas. -/
structure Repl where
  record : Nat
  owner : Nat
  atomic : Bool
  vbase : Nat
  base : Nat
  blocks : Nat
  replicas : List Replica
  fresh : List Upd
  todo : List (Nat × Nat × BitVec 512)
deriving DecidableEq, Repr

/-- A group of the group table (R324, R331, R332): the members as 256 × device + core in ascending order, the sequence
counter, the calls so far, and where in the chunk store the accumulator of a thinned group stands, and its elements, while it holds a
value. -/
structure Group where
  members : List Nat
  seq : BitVec 16
  calls : Nat
  acc : Option (Nat × Nat)
deriving DecidableEq, Repr

/-- A member core's part in a collective call (R326-R332), in a phase and for a task of the core, and its place in the order of issue
(R300). -/
structure CollMember where
  core : Nat
  handle : Option (Fin 16)
  pb : BitVec 1024
  start : Nat
  phase : Nat
  task : Nat
  serial : Nat
deriving DecidableEq, Repr

/-- A collective call in progress: stage 0 gathers members or waits for its number, 1 reads its sources, 2 has read them. -/
structure Call where
  id : Nat
  group : Nat
  seq : BitVec 16
  members : List CollMember
  stage : Nat
  sums : List W32
  blocks : List (List W32)
deriving DecidableEq, Repr

/-- A command to HBM under way (R349): its slot, core, whether it writes, the next block and the blocks, whether one was
uncorrectable, and the response as far as it has been read, with its addresses. -/
structure HbmCmd where
  slot : Nat
  core : Nat
  write : Bool
  addr : Nat
  next : Nat
  blocks : Nat
  bad : Bool
  got : List (Nat × Byte)
deriving DecidableEq, Repr

/-- The cadence control registers (R41, R42). -/
structure Cad where
  ctl : W64
  tbase : W64
  tper : W64
deriving DecidableEq, Repr

/-- An arming of the time-driven drive that awaits its waiting phase (R44): the command slot, the registers it would
write, and the armed count. -/
structure Arming where
  slot : Nat
  regs : Cad
  count : Option (BitVec 48)
deriving DecidableEq, Repr

/-- The module (agents, memories and package). `streams` are the header-compressed stream contexts (R333, R423; log entry 51): the station
and the device at the other end of each. -/
structure State where
  now : Nat
  agenda : List Item
  focus : Focus
  freeCtr : Nat
  cores : List (Nat × Core)
  -- phases
  released : Bool
  count : BitVec 48
  phStart : Nat
  decided : Option Nat
  budget : Nat
  cad : Cad
  cadNew : Cad
  driven : Bool
  reverting : Bool
  needsArmtd : Bool
  tbound : W64
  arming : Option Arming
  armed : Option (BitVec 48)
  -- launch
  lqs : List (Nat × List Nat)
  lqTail : List (Nat × Nat)
  lastAct : List (Nat × Nat)
  records : List Record
  moves : List Move
  pages : List Repl
  nextId : Nat
  credits : List (Nat × Nat)
  wrrw : List (Nat × W64)
  -- power
  pwradm : W64
  pcwlo : W64
  pcwhi : W64
  pwrNew : Vector W64 3
  credit : Int
  creditAt : Nat
  draw : Nat
  held : Nat
  alarm : Bool
  emergency : Bool
  temps : Vector Byte 8
  -- time
  timeBase : Nat
  timeFrom : Nat
  rate : Int
  disciplined : Bool
  ptp : Bool
  tstat : W64
  -- remote and collective
  ops : List RemoteOp
  groups : List (Nat × Group)
  calls : List Call
  chunk : Memory
  device : BitVec 10
  stmap : List (Nat × BitVec 4)
  fabctl : W64
  fabNew : W64
  retries : Vector Nat 16
  trained : BitVec 16
  -- firmware
  cmd : Memory
  doorbells : List Nat
  fwBusy : Bool
  fwdSlots : List Nat
  bootst : W64
  mboxIn : List (Nat × BitVec 512)
  mboxOut : List (Nat × BitVec 512)
  mboxWait : List (Nat × Instr × BitVec 512)
  perrst : W64
  events : List (Nat × List W64)
  vectors : List Msi
  partset : List (Nat × Nat)
  quarantine : List Nat
  shut : List Nat
  preempt : List Nat
  halted : List Nat
  resuming : List Nat
  saved : List Saved
  hbmCmd : Option HbmCmd
  marks : List Mark
  forwarded : List (Nat × W64)
  streams : List (Nat × Nat)
deriving DecidableEq, Repr

/-! ### Stops -/

/-- The only fault: the agenda is empty, so no operation is left to step. Raised by step; unsafe for no claim, since no
run of the machine reaches it once its debt counters run (R255). -/
inductive Fault where
  /-- Raised by step when the agenda is empty (log entry 2); safe: the model stops. -/
  | agendaEmpty
deriving DecidableEq, Repr

/-- The refusals. -/
inductive Refusal where
  /-- Raised by an arm of exec that has no meaning yet; safe: the model stops. -/
  | notModelled (mnemonic : String)
deriving DecidableEq, Repr

/-! ### Reset -/

/-- R276: complete, no error. -/
def Handle.reset : Handle := ⟨0, 0, 0, false, 0⟩

/-- The seed of R109. -/
def rngSeed : W64 := 0x9E3779B97F4A7C15

/-- The registers after device reset and, but for s1-s4, s29, s30 and RNGS, at task start (R92). -/
def Regs.reset : Regs where
  s := Vector.replicate 32 0
  v := Vector.replicate 32 0
  k := Vector.replicate 8 0
  q := Vector.replicate 8 false
  mp := Vector.replicate 8 0
  lcN := 0
  lcE := 0
  rb := 0
  cbase := 0
  rngs := rngSeed
  flash := 0
  tvec := 0
  latch := 0

/-- R210: every entry absent, path float, sparse tag 0. -/
def Half.reset : Half := ⟨[], false, false⟩

/-- R210. -/
def Matrix.reset : Matrix where
  ma := Vector.replicate 8 0
  mc := Vector.replicate 4 0
  abuf := []
  half0 := Half.reset
  half1 := Half.reset
  acc := []
  rtab := []
  rstore := []
  seq := none
  began := 0
  busyTo := 0
  copyBegan := 0
  copyFree := 0
  accWrote := []

/-- A closed bank without history (R258). -/
def Bank.reset : Bank := ⟨none, false, false, 0, none, none, none, none, none⟩

/-- R255, R256: no debt, no history. -/
def Pseudo.reset : Pseudo := ⟨[], none, none, none, none, none, none, 0, 0, [], 0, []⟩

/-- The timing registers after reset (R253). -/
def timReset : Vector W64 3 := #v[0x021B043C1B1B0C1A, 0x1B6C027600090E1D, 0x6DB00168]

/-- R239-R258 after reset: every bank closed, the idle chain running. -/
def Channel.reset : Channel where
  mem := []
  hbm := []
  run := none
  lastRun := none
  ptr := Vector.replicate 2 0
  rowb := Vector.replicate 4 0
  lc := Vector.replicate 2 0
  banks := []
  pc := Vector.replicate 2 Pseudo.reset
  rowBus := none
  colBus := none
  ports := []
  tim := timReset
  timNew := timReset

/-- R260: an invalid entry. -/
def Tte.reset : Tte := ⟨0, none, none, none, false⟩

/-- R266: an invalid entry. -/
def Window.reset : Window := ⟨0, 0, 0, 0, 0, 0, [], [], [], [], false, false, false, 0, none, [], []⟩

/-- The training registers of lane l after reset (R437-R441). -/
def Lane.reset (l : Nat) : Lane := ⟨64, 64, 64, 64, 0, BitVec.ofNat 7 (l + 1), BitVec.ofNat 7 (l + 1), 0, (0, 0), (0, 0)⟩

/-- R437-R444 after reset. -/
def Phy.reset : Phy where
  lanes := Vector.replicate 2 (Vector.ofFn fun l => Lane.reset l.val)
  map := Vector.replicate 2 0
  ctl := 0x1800
  pat := false
  trnst := 0
  train := none
  extra := []

/-- A core after reset (R92, R210, and the chapters of the parts). -/
def Core.reset : Core where
  regs := Regs.reset
  handles := Vector.replicate 16 Handle.reset
  cbank := Vector.replicate 256 0
  slim := 0
  trap0 := 0
  trap1 := 0
  trap2 := 0
  flt0 := 0
  flt1 := 0
  cerrst := 0
  werr := 0
  werrBy := (0, 0)
  spm := []
  dmem := []
  imem := []
  spmOld := []
  loose := []
  known := []
  spmRegion := []
  dmemRegion := []
  accRegion := []
  marks := []
  mx := Matrix.reset
  ch := Channel.reset
  tt := []
  win := Vector.replicate 32 Window.reset
  srcFree := 0
  applyFree := 0
  hbmFixed := 0
  queues := Vector.replicate 5 []
  pc := 0
  flow := false
  delay := none
  issued := none
  lastAddr := 0
  rfd := false
  errs := []
  drain := none
  parking := false
  life := .free
  record := none
  lastRecord := none
  iter := 0
  task := 0
  arrival := none
  pclass := 0
  deftClass := 0
  phase := none
  barQ := false
  barD := false
  part := 0
  image := none
  prepEnd := 0
  opsLeft := 0
  shadow := none
  dayFirst := 0
  dayLast := 0
  dayNext := none
  replay := []
  replayed := 0
  rolls := 0
  shift := 0
  verify := none
  phy := Phy.reset

/-- No operation in execution (the model's own). -/
def Focus.reset : Focus := ⟨0, .s0, 0, [], 0, false, 0⟩

/-- R41, R42. -/
def Cad.reset : Cad := ⟨0, 0, 0⟩

/-- The module right after reset: the release of reset is the one pending operation (R32, R347; log entries 3 and 4). -/
def State.reset : State where
  now := 0
  agenda := [⟨0, 0, 0, .run Focus.reset .resetRelease⟩]
  focus := Focus.reset
  freeCtr := 0
  cores := []
  released := false
  count := 0
  phStart := 0
  decided := none
  budget := 0
  cad := Cad.reset
  cadNew := Cad.reset
  driven := false
  reverting := false
  needsArmtd := false
  tbound := 0
  arming := none
  armed := none
  lqs := []
  lqTail := []
  lastAct := []
  records := []
  moves := []
  pages := []
  nextId := 0
  credits := []
  wrrw := []
  pwradm := 0x0400_0960_5DC0
  pcwlo := 0x27221D18130E0904
  pcwhi := 0x4F4A45403B36312C
  pwrNew := #v[0x0400_0960_5DC0, 0x27221D18130E0904, 0x4F4A45403B36312C]
  credit := 24576000
  creditAt := 0
  draw := 0
  held := 0
  alarm := false
  emergency := false
  temps := Vector.replicate 8 0
  timeBase := 0
  timeFrom := 0
  rate := 0
  disciplined := false
  ptp := false
  tstat := 0
  ops := []
  groups := []
  calls := []
  chunk := []
  device := 0x3FF
  stmap := []
  fabctl := 0x1FFFE
  fabNew := 0x1FFFE
  retries := Vector.replicate 16 0
  trained := 0
  cmd := []
  doorbells := []
  fwBusy := false
  fwdSlots := []
  bootst := 0
  mboxIn := []
  mboxOut := []
  mboxWait := []
  perrst := 0
  events := []
  vectors := []
  partset := []
  quarantine := []
  shut := []
  preempt := []
  halted := []
  resuming := []
  saved := []
  hbmCmd := none
  marks := []
  forwarded := []
  streams := []

end Sys2Proof.Machine
end

