-- ==== Sys2Proof/Machine/Ops.lean ====
section
/-! DEFINITION. The named operations over the state: the agenda, cores, memories, registers, landings, and taking an
exception with its drain, handler entry, rollback and task end (R354-R373). -/

namespace Sys2Proof.Machine

open Sys2Proof

/-! ### Time and the agenda -/

/-- The current core cycle (R5). -/
def State.cyc (s : State) : Nat := s.now / 3

/-- Whether an item comes before another (log entry 2). -/
def Item.before (a b : Item) : Bool :=
  a.tick < b.tick || (a.tick == b.tick && (a.prio < b.prio || (a.prio == b.prio && a.core < b.core)))

/-- Insert behind every item that does not come after: of two landings of slots in one cycle the one of the later-issued bundle comes later
and prevails (R62), an F write over a V write of a later bundle too (R155, R185; log entry 73, DESIGN CHOICE). -/
def insertItem (it : Item) : List Item → List Item
  | [] => [it]
  | x :: r => if it.before x then it :: x :: r else x :: insertItem it r

/-- Add a pending operation. -/
def State.post (s : State) (it : Item) : State := { s with agenda := insertItem it s.agenda }

/-- Places within a cycle (log entry 2): boundary, network landings, chain landings, copy-engine landings in SPM, slot and array
landings, copy-engine landings in ACC, engine starts, steps, read points and array cycles, issue, port cycles, copy-engine reads, end of cycle;
then, tick by tick, the channel's own events, chain commands, and what takes effect after the cycle's first tick. -/
def pBoundary : Nat := 0
/-- See pBoundary. -/
def pNet : Nat := 1
/-- See pBoundary. -/
def pChainLand : Nat := 2
/-- See pBoundary: the copy engine's rows land in SPM before the stores of M0, which prevail over them (R195). -/
def pCopySpm : Nat := 3
/-- See pBoundary. -/
def pLand : Nat := 4
/-- See pBoundary. -/
def pCopyLand : Nat := 5
/-- See pBoundary. -/
def pStart : Nat := 6
/-- See pBoundary. -/
def pEngine : Nat := 7
/-- See pBoundary. -/
def pRead : Nat := 8
/-- See pBoundary. -/
def pIssue : Nat := 10
/-- See pBoundary: a port cycle comes after issue, so that it sees an arrival of its own cycle (R48). -/
def pPort : Nat := 11
/-- See pBoundary. -/
def pCopyRead : Nat := 12
/-- See pBoundary. -/
def pEnd : Nat := 13
/-- See pBoundary. -/
def pTick : Nat := 14
/-- See pBoundary. -/
def pChain : Nat := 15
/-- See pBoundary. -/
def pTte : Nat := 16
/-- See pBoundary: the lookup of a translation entry takes what the tick has left (R261). -/
def pLook : Nat := 17
/-- See pBoundary: what is met in one cycle of a drain under way is resolved together. -/
def pLate : Nat := 18
/-- See pBoundary: a drain is over after the last tick of its last cycle. -/
def pLast : Nat := 19

/-- Add an operation of a core at a place of a cycle, no earlier than now. -/
def State.at (s : State) (core cyc prio : Nat) (ev : Ev) : State := s.post ⟨max (3 * cyc) s.now, prio, core, ev⟩

/-- Add an operation of a core after the last tick of a cycle. -/
def State.atLast (s : State) (core cyc : Nat) (ev : Ev) : State := s.post ⟨max (3 * cyc + 2) s.now, pLast, core, ev⟩

/-- Remove the pending operations of a core that satisfy p. -/
def State.drop (s : State) (core : Nat) (p : Ev → Bool) : State :=
  { s with agenda := s.agenda.filter fun it => !(it.core == core && p it.ev) }

/-- Draw a fresh index of the free values (log entry 7). -/
def State.fresh (s : State) : Nat × State := (s.freeCtr, { s with freeCtr := s.freeCtr + 1 })

/-! ### Cores -/

/-- A core. -/
def State.core (s : State) (c : Nat) : Core := Sp.get Core.reset s.cores c

/-- Replace a core. -/
def State.setCore (s : State) (c : Nat) (k : Core) : State := { s with cores := Sp.set Core.reset s.cores c k }

/-- Change a core. -/
def State.modCore (s : State) (c : Nat) (f : Core → Core) : State := s.setCore c (f (s.core c))

/-- The core on which an operation acts. -/
def State.cur (s : State) : Core := s.core s.focus.core.val

/-- Change the core on which an operation acts. -/
def State.modCur (s : State) (f : Core → Core) : State := s.modCore s.focus.core.val f

/-- Add an operation of the focused core. -/
def State.later (s : State) (cyc prio : Nat) (ev : Ev) : State := s.at s.focus.core.val cyc prio ev

/-- The cadence count of a core's own phase: a parked core keeps its own (R32, R417). -/
def State.countOf (s : State) (c : Nat) : BitVec 48 :=
  match (s.core c).phase with | some (n, _) => BitVec.ofNat 48 n | none => s.count

/-- Cycle 0 of a core's own phase. -/
def State.startOf (s : State) (c : Nat) : Nat :=
  match (s.core c).phase with | some (_, t) => t | none => s.phStart

/-- The cycle number within a core's phase (R5, R88). -/
def State.phaseCyc (s : State) (c : Nat) : Nat := s.cyc - s.startOf c

/-- Whether a core's phase is an exchange phase (R32). -/
def State.exchange (s : State) (c : Nat) : Bool := (s.countOf c).getLsbD 0

/-- COREID (R23): the core's position, its device and partition. -/
def State.coreId (s : State) (c : Nat) : W64 :=
  BitVec.ofNat 64 (c + 2 ^ 8 * s.device.toNat + 2 ^ 18 * (s.core c).part.val)

/-- The part of TIME that has run, in units of 2^-16 ns: a core cycle is 5/3 ns, at the disciplined rate (R339). -/
def State.timeFix (s : State) (cyc : Nat) : Nat :=
  if s.disciplined then
    s.timeBase + ((((cyc - s.timeFrom) * 5 * 65536 : Nat) : Int) * (1000000000 + s.rate) / 3000000000).toNat
  else 0

/-- TIME.ns at the start of a cycle (R88). -/
def State.timeNs (s : State) (cyc : Nat) : W64 := BitVec.ofNat 64 (s.timeFix cyc / 65536)

/-! ### Bytes -/

/-- A byte of a memory. -/
def Memory.byte (m : Memory) (a : Nat) : Byte := Sp.get Memory.unlisted m a

/-- Write one byte. -/
def Memory.store (m : Memory) (a : Nat) (b : Byte) : Memory := Sp.set Memory.unlisted m a b

/-- Write the bytes of a list, in order. -/
def Memory.storeAll (m : Memory) (bs : List (Nat × Byte)) : Memory := bs.foldl (fun m (a, b) => m.store a b) m

/-- The canonical form of a memory. -/
abbrev Memory.wf (m : Memory) : Prop := Sp.wf Memory.unlisted m = true

/-- n bytes from an address, lowest first. -/
def Memory.bytes (m : Memory) (a n : Nat) : List Byte := (List.range n).map fun i => m.byte (a + i)

/-- The little-endian value of n bytes (R4). -/
def Memory.le (m : Memory) (a n : Nat) : Nat := ofLe (m.bytes a n)

/-- Bytes with their addresses. -/
def addressed (a : Nat) (bs : List Byte) : List (Nat × Byte) := (List.range bs.length).map (a + ·) |>.zip bs

/-- The little-endian bytes of a value with their addresses. -/
def leCells (a n v : Nat) : List (Nat × Byte) := addressed a (leBytes n v)

/-- Bits hi..lo of a word (R4). -/
def bits (x : Nat) (lo n : Nat) : Nat := x / 2 ^ lo % 2 ^ n

/-! ### Error reports -/

/-- Raise an MSI-X vector (R337, R359). The PCIe port is active only on the bridge (R18). -/
def State.msi (s : State) (v : Msi) : State := if Config.isBridge then { s with vectors := s.vectors ++ [v] } else s

/-- Raise an MSI-X vector that reports nothing but its number. -/
def State.vector (s : State) (v : Nat) : State := s.msi ⟨v, none⟩

/-- The number of an action in EVR.act (R358). -/
def Recovery.code : Recovery → Nat | .n => 0 | .b => 1 | .e => 2 | .r => 3 | .p => 4 | .h => 5 | .q => 6

/-- The rank of an action (R355). -/
def Recovery.rank : Recovery → Nat | .n => 0 | .b => 1 | .p => 2 | .h => 3 | .e => 4 | .r => 5 | .q => 6

/-- The vector that a record raises (R359); a record with act N of another class than 0x17-0x19 raises none. -/
def eventVector (part cls act : Nat) : Option Nat :=
  if cls = 0x17 then some (8 * part + 5)
  else if cls = 0x18 ∨ cls = 0x19 then some (8 * part + 7)
  else if act = 1 then some (8 * part + 3)
  else if act = 0 then none
  else some (8 * part + 2)

/-- Raise the vector of a record, if it has one (R359). -/
def State.eventMsi (s : State) (part cls act : Nat) : State :=
  match eventVector part cls act with
  | some v => s.vector v
  | none => s

/-- Add a record to the event queue of a partition (R358). -/
def State.pushEvent (s : State) (part : Nat) (r : W64) : State :=
  let q := Sp.get [] s.events part
  if 64 ≤ q.length then
    let n := s.perrst.toNat % 65536
    { s with perrst := BitVec.ofNat 64 (s.perrst.toNat - n + min 65535 (n + 1)) }
  else { s with events := Sp.set [] s.events part (q ++ [r]) }

/-- The image of an event record (R358). -/
def eventRecord (cls core dev act cad : Nat) : W64 :=
  BitVec.ofNat 64 (cls + 2 ^ 5 * core + 2 ^ 13 * dev + 2 ^ 23 * act + 2 ^ 26 * (cad % 2 ^ 38))

/-- Post a record of a core, with the cadence count of the phase of its detection, to its partition's queue, with its vector
(R358, R359). A device that is not the bridge forwards the record over UALink. -/
def State.postAt (s : State) (part core cls : Nat) (act : Recovery) (cad : Nat) : State :=
  let r := eventRecord cls core s.device.toNat act.code cad
  let s := if Config.isBridge then s.pushEvent part r
    else { (s.pushEvent part r) with forwarded := s.forwarded ++ [(part, r)] }
  s.eventMsi part cls act.code

/-- Post a record of an error detected in this phase (R358). -/
def State.postEvent (s : State) (part core cls : Nat) (act : Recovery) : State :=
  s.postAt part core cls act (s.countOf core).toNat

/-- Post a package event to every partition (R358). -/
def State.postPackage (s : State) (cls : Nat) : State :=
  (List.range 8).foldl (fun s p => s.postAt p 0 cls .n s.count.toNat) s

/-- A register with a field replaced. -/
def setField (r : W64) (lo n v : Nat) : W64 :=
  BitVec.ofNat 64 (r.toNat - bits r.toNat lo n * 2 ^ lo + v % 2 ^ n * 2 ^ lo)

/-- A counting field that saturates. -/
def bump (r : W64) (lo n k : Nat) : W64 := setField r lo n (min (2 ^ n - 1) (bits r.toNat lo n + k))

/-! ### Taking an exception -/

/-- Whether a class is one of those that detection at the core's own issue or engines raises with slot 8, and so on:
the recovery that R354 gives a class, before the region is taken into account. -/
def classAct (cls : Nat) : Recovery :=
  if cls = 0x0C ∨ cls = 0x0D ∨ cls = 0x0E then .b
  else if cls = 0x12 ∨ cls = 0x1A then .q
  else if cls = 0x1B then .r
  else if cls = 0x15 then .p
  else if cls = 0x16 then .h
  else if cls = 0x17 ∨ cls = 0x18 ∨ cls = 0x19 then .n
  else .e

/-- Whether the core is inside a region (R360): a daymark since its last boundary, and no arrival. -/
def Core.inRegion (k : Core) : Bool := k.shadow.isSome && k.arrival.isNone

/-- Detect an error on a core (R354, R369, R388): it joins the errors of the cycle, which the end of the cycle resolves. -/
def State.raiseOn (s : State) (c : Nat) (e : Err) : State :=
  (s.modCore c fun k => { k with errs := k.errs ++ [e] }).at c s.cyc pEnd .endCycle

/-- An error with no fault record. -/
def Err.plain (cls info slot addr : Nat) : Err := ⟨cls, info, slot, addr, 0, 0, 0, 0, classAct cls⟩

/-- Raise a class from the slot in execution (R369): no effect but the report. -/
def State.trap (s : State) (cls info : Nat) : State :=
  s.raiseOn s.focus.core.val (Err.plain cls info s.focus.slot.num s.focus.addr)

/-- The classes that CERRST.ue counts (R354, R356): uncorrectable data and parity. -/
def countsUe (cls : Nat) : Bool := cls == 0x0C || cls == 0x0D || cls == 0x0E || cls == 0x13 || cls == 0x1A || cls == 0x1C

/-- CERRST when an error is recorded (R356): its class, and whether it was met with others in one cycle. -/
def Core.noteError (k : Core) (cls : Nat) (multi : Bool) : Core :=
  let r := setField k.cerrst 32 5 cls
  { k with cerrst := if multi then setField r 38 1 1 else r }

/-- CERRST.ue takes every uncorrectable error of a cycle (R356). -/
def Core.countUe (k : Core) (es : List Err) : Core :=
  { k with cerrst := bump k.cerrst 16 8 (es.filter fun e => countsUe e.cls).length }

/-- The error that a core reports when it meets several in one cycle (R355, R369, R382): the highest action, then the
lowest class, then the lowest sub-code, then the earliest slot. -/
def pickErr : List Err → Option Err
  | [] => none
  | e :: r => match pickErr r with
    | none => some e
    | some x =>
      let lex := fun (a b : Err) => a.act.rank > b.act.rank || (a.act.rank == b.act.rank && (a.cls < b.cls ||
        (a.cls == b.cls && ((a.cls == 1 && a.info < b.info) || ((a.cls != 1 || a.info == b.info) && a.slot < b.slot)))))
      if lex x e then some x else some e

/-- Whether a pending operation is one whose end the drain awaits (R370). -/
def Ev.awaited : Ev → Bool
  | .land .. | .load _ _ | .launchRead _ _ _ => true
  | _ => false

/-- Whether an item is a slot or engine result of a core that has yet to land (R370, R378). -/
def State.slotBusy (s : State) (c : Nat) : Bool := s.agenda.any fun it => it.core == c && it.ev.awaited

/-- Whether a pending operation is a landing of the copy engine. -/
def Ev.isCopy : Ev → Bool
  | .copySpm _ | .copyAcc _ => true
  | _ => false

/-- Whether results of a core's slots, matrix engine or copy engine are in flight (R378). -/
def State.inFlight (s : State) (c : Nat) : Bool :=
  let m := (s.core c).mx
  s.slotBusy c || m.seq.isSome || s.cyc < m.busyTo || s.cyc < m.copyFree || s.agenda.any fun it => it.core == c && it.ev.isCopy

/-- Whether the drain of a fault at cycle f still awaits slot results, or a command of the matrix engine or the copy engine that
began before f (R370). -/
def State.drainBusy (s : State) (c f : Nat) : Bool :=
  let m := (s.core c).mx
  s.slotBusy c || (m.began < f && (m.seq.isSome || s.cyc < m.busyTo)) || (m.copyBegan < f && s.cyc < m.copyFree)

/-- Whether an RD of the core has yet to land (R315, R421). -/
def State.rdBusy (s : State) (c : Nat) : Bool :=
  s.agenda.any fun it => it.core == c && (match it.ev with | .run _ (.chainRdLanding ..) => true | _ => false)

/-- Whether an RD of the core's chain that began at a cycle has yet to land (R370); the landing's argument names its chain. -/
def State.rdOf (s : State) (c start : Nat) : Bool :=
  s.agenda.any fun it => it.core == c && (match it.ev with | .run f (.chainRdLanding ..) => f.arg == start | _ => false)

/-- The first three words of TRAPREC (R372). -/
def trapWord0 (e : Err) : W64 :=
  BitVec.ofNat 64 (e.cls % 32 + 2 ^ 5 * (e.slot % 16) + 2 ^ 9 * (e.addr % 2 ^ 19) + 2 ^ 28 * (e.info % 2 ^ 11) + 2 ^ 39)

/-- Whether a class writes FLTREC (R389). -/
def hasFltrec (cls : Nat) : Bool := (0x0A ≤ cls && cls ≤ 0x13) || (0x1A ≤ cls && cls ≤ 0x1C)

/-- TRAPREC and FLTREC written at the end of a drain (R371, R372, R389): cause, slot, address and sub-code; the cadence
count at f; f in the phase's cycles and the drain's length. -/
def Core.writeTrap (k : Core) (e : Err) (cad f drain : Nat) : Core :=
  { k with
    trap0 := trapWord0 e
    trap1 := BitVec.ofNat 64 (cad % 2 ^ 48)
    trap2 := BitVec.ofNat 64 (f % 2 ^ 32 + 2 ^ 32 * (drain % 2 ^ 32))
    flt0 := if hasFltrec e.cls then BitVec.ofNat 64 (e.loc.toNat + 2 ^ 32 * (e.aux % 2 ^ 14)) else k.flt0
    flt1 := if hasFltrec e.cls then BitVec.ofNat 64 (e.val0.toNat + 2 ^ 32 * e.val1.toNat) else k.flt1 }

/-- The operation of issue, which a fault stops. -/
def Ev.isIssue : Ev → Bool
  | .issue => true
  | _ => false

/-- The focus of an event of a core. -/
def coreFocus (c : Nat) : Focus := { Focus.reset with core := ⟨c % 256, Nat.mod_lt _ (by decide)⟩ }

/-- The focus of an event of a core with its argument. -/
def argFocus (c x : Nat) : Focus := { coreFocus c with arg := x }

/-- Whether an item starts a queued command. -/
def Ev.isStart : Ev → Bool
  | .run _ (.engineCommandStart ..) => true
  | _ => false

/-- The idle chain looks for a command at a tick (R258), once. -/
def State.wakeIdle (s : State) (c t : Nat) : State :=
  let f := coreFocus c
  if s.agenda.any fun it => it.core == c && it.ev == .run f .idleChainCommand then s
  else s.post ⟨t, pChain, c, .run f .idleChainCommand⟩

/-- The operations of a running chain that end with it; the idle chain looks for its next command anew. -/
def Ev.ofChain (c : Nat) (e : Ev) : Bool :=
  e == .chain || e == .chainSample || e == .chainLook || e == .run (coreFocus c) .idleChainCommand

/-- Stop a chain of the core (R362, R370, R400): no further command; the idle chain takes over from a tick. -/
def State.stopChain (s : State) (c t : Nat) : State :=
  ((s.drop c (Ev.ofChain c)).modCore c fun k =>
    { k with ch := { k.ch with run := none, lastRun := (k.ch.run.map (·.start)).or k.ch.lastRun } }).wakeIdle c t

/-- Whether an error stopped the chain that detected it (R391, R393, R400). -/
def Err.ofChain (e : Err) : Bool :=
  e.slot == 8 && ((0x0F ≤ e.cls && e.cls ≤ 0x11) || (e.cls == 0x1C && e.info == 5) || (e.cls == 0x1A && e.info == 2) ||
    (e.cls == 0x0D && e.info / 16 == 3))

/-- Whether the error of a drain enters the task's handler, by TVEC as readable at the fault cycle (R371). -/
def Core.entersHandler (k : Core) (d : Drain) : Bool :=
  1 ≤ d.err.cls && d.err.cls ≤ 9 && d.tvec.getLsbD 19 && k.arrival.isNone && k.life == .task

/-- Whether a rollback is still open to the region (R361, R380). -/
def Core.mayRoll (k : Core) : Bool := k.rolls < 3 && k.replay.length ≤ 32

/-- The action of an error at a core, with B turned into E outside a region, at or after the arrival, or at the fourth
error of a region (R355, R360, R361). -/
def Core.finalAct (k : Core) (e : Err) : Recovery :=
  match e.act with
  | .b => if k.inRegion && k.mayRoll then .b else .e
  | a => a

/-- Whether a taken RFD returns to a daymark (R361, R376): one of this phase, before the arrival (log entry 57). -/
def Core.returns (k : Core) : Bool := k.inRegion && k.mayRoll

/-- Whether a drain leads to the end of the task (R362, R371, R376). -/
def Core.endsTask (k : Core) (d : Drain) : Bool :=
  if d.verify || d.parked then false else if d.rfd then !k.returns else !k.entersHandler d && k.finalAct d.err != .b

/-- A drain that begins at this cycle (R369-R372). -/
def State.drainFrom (s : State) (c : Nat) (e : Err) (multi rfd verify : Bool) : Drain :=
  let k := s.core c
  ⟨e, s.cyc, (s.countOf c).toNat, s.phaseCyc c, k.regs.tvec, multi, rfd, verify, none, e.cls == 0x0C, false, k.issued, k.delay, k.rfd⟩

/-- Whether a drain stops the running chain (R370): one started since the core's last daymark, and any when the task ends (R362); a chain
whose own sampling or lookup has failed goes on to its last command (R391). -/
def Core.stopsChain (k : Core) (d : Drain) : Bool :=
  match k.ch.run with
  | some r => !r.firmware && r.left.isNone && (k.endsTask d || (k.shadow.isSome && k.dayLast ≤ r.issued))
  | none => false

/-- The drain of a core, and the chain that it stops (R370). The drain awaits the landings of that chain, or, where `own` says so, of the
chain whose own command has detected an error of the drain. -/
def State.setDrain (s : State) (c : Nat) (d : Drain) (own : Bool) : State :=
  let k := s.core c
  let stop := k.stopsChain d
  let chain := (k.ch.run.map (·.start)).or k.ch.lastRun
  let s := s.modCore c fun k => { k with drain := some { d with chain := if stop || own then chain else d.chain } }
  if stop then s.stopChain c s.now else s

/-- Begin a drain (R369, R370): issue stops, and commands that have not begun are discarded. A taken RFD whose delay bundle has not
issued is forgotten with the target of any other branch. -/
def State.beginDrain (s : State) (c : Nat) (d : Drain) (own : Bool) : State :=
  let s := (s.drop c fun e => e.isIssue || e.isStart).modCore c fun k =>
    { k with errs := [], queues := Vector.replicate 5 [], issued := none, delay := none, rfd := false, dayNext := none }
  (s.setDrain c d own).atLast c s.cyc (.run (coreFocus c) .trapDrainCompletion)

/-- An arrival recorded at a cycle (R36, R292); the caller posts its counting. A region ends at an arrival (R360). -/
def Core.arrive (k : Core) (cyc : Nat) (fence : W32) (pclass budget : Nat) (ends : Bool) : Core :=
  { k with arrival := some ⟨cyc, fence, pclass, budget, ends, none, false⟩ }

/-- Post the check that counts an arrival (R292). -/
def State.checkArrival (s : State) (c cyc : Nat) : State := s.at c cyc pEnd (.run (coreFocus c) .arrivalCount)

/-- A record fails (R362): none of its remaining iterations is bound, and those of cores in preparation are dropped. It completes
when no task of it runs (R307). -/
def State.failRecord (s : State) (id : Nat) : State :=
  let preps := (s.cores.filter fun x => x.2.life == .prep && x.2.record == some id).map (·.1)
  let s := preps.foldl (fun s c => s.modCore c fun k => if k.life = .prep then { k with life := .free, record := none } else k) s
  let s := { s with records := s.records.map fun (r : Record) =>
      if r.id = id then { r with failed := true, running := r.running - preps.length } else r }
  if s.records.any fun r => r.id == id && r.running == 0 then s.at 0 s.cyc pEnd (.run (argFocus 0 id) .recordCompletion) else s

/-- Task end (R362): the core counts as arrived at the last cycle of its drain, its record is marked failed and none of
its remaining iterations is bound. -/
def State.endTask (s : State) (c : Nat) (cls : Nat) : State :=
  let k := s.core c
  let s := match k.ch.run with
    | some r => if r.firmware ∨ r.left.isSome then s else s.stopChain c s.now
    | none => s
  let s := s.modCore c fun k =>
    let k := if k.arrival.isSome then k else k.arrive s.cyc 0 0 0 true
    let k := { k with arrival := k.arrival.map fun (a : Arrival) => { a with ends := true, forced := true } }
    { k with drain := none, verify := none, shadow := none, image := if cls = 0x1C then none else k.image }
  let s := match k.record with | some id => s.failRecord id | none => s
  s.checkArrival c s.cyc

/-- The marks of a store on units of a list (R366). -/
def Core.marked (k : Core) (st : Store) (units : List Nat) (hard : Bool) : Option Mark :=
  k.marks.find? fun m => m.store == st && m.hard == hard && units.contains m.unit

/-- The uncorrectable units among some of a store, each once (R366). -/
def Core.badUnits (k : Core) (st : Store) (units : List Nat) : List Nat :=
  ((k.marks.filter fun m => m.store == st && m.hard && units.contains m.unit).map (·.unit)).dedup

/-- Count corrected errors in CERRST.ce, which saturates, with the vector of each multiple of 4,096 passed (R356, R359, R367). -/
def State.corrected (s : State) (c n : Nat) : State :=
  let old := bits (s.core c).cerrst.toNat 0 16
  let s := s.modCore c fun k => { k with cerrst := bump k.cerrst 0 16 n }
  if old / 4096 < min 65535 (old + n) / 4096 then s.vector (8 * (s.core c).part.val + 4) else s

/-- A read of units of an SRAM counts each that it corrects (R356, R366, R367). -/
def State.fixes (s : State) (c : Nat) (st : Store) (units : List Nat) : State :=
  match (((s.core c).marks.filter fun m => m.store == st && !m.hard && units.contains m.unit).map (·.unit)).dedup.length with
  | 0 => s
  | n => s.corrected c n

/-- A register is written anew: its parity is right (R366). -/
def Core.unmark (k : Core) (st : Store) (u : Nat) : Core :=
  if k.marks = [] then k else { k with marks := k.marks.filter fun m => !(m.store == st && m.unit == u) }

/-- A write of a register of n words changes those that `whole` names whole, with their parity; a word that it writes in part keeps an error
(R366, R392; DEDUCED, log entry 104). -/
def Core.unmarkWords (k : Core) (st : Store) (n r : Nat) (whole : Nat → Bool) : Core :=
  if k.marks = [] then k
  else { k with marks := k.marks.filter fun m => !(m.store == st && m.unit / n == r && whole (m.unit % n)) }

/-- A store is written anew, whole. -/
def Core.unmarkAll (k : Core) (st : Store) : Core :=
  if k.marks = [] then k else { k with marks := k.marks.filter (·.store != st) }

/-- Every register that a daymark's shadow holds is written anew (R366, R377). -/
def Core.unmarkRegs (k : Core) : Core :=
  if k.marks = [] then k
  else { k with marks := k.marks.filter fun m => !([Store.s, .v, .k, .q, .mp, .lcrb, .cbase, .rngs].contains m.store) }

/-- The signature and the counts of a rerun that begins at a cycle (R397, R398). -/
def Verify.begin (v : Verify) (cyc : Nat) : Verify := { v with sig := BitVec.allOnes 32, began := cyc, waited := 0, writes := [] }

/-- The daymark bundle is to issue again (R361, R376): the registers are those of the shadow. An uncorrectable shadow makes the
rollback a task end (R393); a correctable one is corrected at its read (R366). -/
def State.restore (s : State) (c e : Nat) : State :=
  match (s.core c).shadow with
  | none => s
  | some (addr, regs) =>
    let k := s.core c
    match (k.badUnits .shadow (k.marks.map (·.unit))).map fun u => { Err.plain 0x1C 6 15 k.lastAddr with loc := BitVec.ofNat 32 u } with
    | err :: errs =>
      let s := s.modCore c fun k =>
        ((k.writeTrap err (s.countOf c).toNat (s.phaseCyc c) 0).noteError 0x1C (errs != [])).countUe (err :: errs)
      (s.postEvent k.part.val c 0x1C .e).endTask c 0x1C
    | [] =>
      let again := e + 24
      let s := s.fixes c .shadow ((k.marks.filter (·.store == .shadow)).map (·.unit))
      let s := s.modCore c fun k => { k.unmarkRegs with
        regs := regs, pc := addr, flow := true, drain := none, rfd := false, replayed := k.replay.length,
        dayNext := some again, opsLeft := 0, verify := k.verify.map (·.begin again), cerrst := bump k.cerrst 24 8 1 }
      s.at c again pIssue .issue

/-- Handler entry (R371, R373): TVEC.en := 0, and the bundle at the TVEC.addr that was readable at the fault cycle issues four
cycles after the drain. -/
def State.enterHandler (s : State) (c e : Nat) (d : Drain) : State :=
  (s.modCore c fun k => { k with
    regs := { k.regs with tvec := setField k.regs.tvec 19 1 0 }
    pc := bits d.tvec.toNat 0 19, flow := false, drain := none }).at c (e + 4) pIssue .issue

/-- The end of a drain at cycle e (R371): TRAPREC is written, then the handler is entered or the recovery starts. The record of
an error that quarantines the partition was posted at its detection (State.raiseQuarantine). A matrix data error that has joined a
rollback is verified as well (R397). -/
def State.finishDrain (s : State) (c : Nat) (d : Drain) : State :=
  let e := s.cyc
  let k := s.core c
  let s := s.modCore c fun k => k.writeTrap d.err d.cad d.cyc (e - d.f)
  let s := s.modCore c fun k => k.noteError d.err.cls d.multi
  if k.entersHandler d then s.enterHandler c e d
  else
    let act := k.finalAct d.err
    let s := if act = .q then s else s.postAt k.part.val c d.err.cls act d.cad
    match act with
    | .b =>
      let v : Option Verify := if d.matrix ∨ k.verify.isSome then some ⟨1, 0, 0, 0, 0, 0, 0, 0, []⟩ else none
      (s.modCore c fun k => { k with rolls := k.rolls + 1, verify := v }).restore c e
    | .r => ((s.modCore c fun k => { k with life := .retired, cerrst := setField k.cerrst 37 1 1 }).endTask c d.err.cls)
    | _ => s.endTask c d.err.cls

/-- The class with which an RFD that returns to no daymark ends its task (R376). -/
def Core.rfdClass (k : Core) : Nat := if k.trap0.getLsbD 39 then bits k.trap0.toNat 0 5 else 9

/-- The return from a handler (R376): the end of the drain that follows a taken RFD's delay bundle. -/
def State.finishRfd (s : State) (c : Nat) (d : Drain) : State :=
  let e := s.cyc
  let k := s.core c
  if k.returns then
    (s.modCore c fun k => { k with rolls := k.rolls + 1, verify := k.verify.map fun v => { v with stage := 1 } }).restore c e
  else ((s.modCore c (·.noteError k.rfdClass false)).postAt k.part.val c k.rfdClass .e d.cad).endTask c k.rfdClass

/-- CRC-32 of R398 over a byte. -/
def crc32Step (crc : Nat) : Nat → Nat
  | 0 => crc
  | n + 1 => crc32Step (if crc / 2 ^ 31 % 2 = 1 then (crc * 2 % 2 ^ 32) ^^^ 0x04C11DB7 else crc * 2 % 2 ^ 32) n

/-- CRC-32 of R398 continued over bytes. -/
def crc32 (crc : Nat) (bs : List Byte) : Nat := bs.foldl (fun c b => crc32Step (c ^^^ (b.toNat * 2 ^ 24)) 8) crc

/-- The writes of one cycle enter the signature in the order of R398. -/
def Verify.close (v : Verify) : Verify :=
  { v with sig := v.writes.foldl (fun g w => BitVec.ofNat 32 (crc32 g.toNat w.2)) v.sig, writes := [] }

/-- The disagreement of two reruns (R390, R397): rerun 1's count, rerun 2's less rerun 1's in 14 bits, and the signatures, each with every
write so far. One found in rerun 1 has no count and no signature of rerun 2, which are blank (DESIGN CHOICE, log entry 105). -/
def Verify.disagree (v : Verify) (count addr : Nat) : Err :=
  let diff : Int := max (-8192) (min 8191 ((count : Int) - v.count1))
  let e := Err.plain 0x1B 0 15 addr
  if v.stage = 1 then { e with loc := BitVec.ofNat 32 count, val0 := v.close.sig }
  else { e with loc := BitVec.ofNat 32 v.count1, aux := (BitVec.ofInt 14 diff).toNat, val0 := v.sig1, val1 := v.close.sig }

/-- A matrix data error during a rerun ends the verification as a disagreement (R397). -/
def Core.inRerun (k : Core) (cyc : Nat) (e : Err) : Err :=
  match k.verify with
  | some v =>
    if e.cls = 0x0C ∧ v.began ≤ cyc then { v.disagree (cyc - v.began - v.waited) e.addr with slot := e.slot } else e
  | none => e

/-- The errors of a core's cycle, each with the action that it calls for (R355, R360, R361, R397), with class 0x15 of a core that is parked
in the cycle (R354, R416). -/
def Core.judged (k : Core) (cyc : Nat) : List Err :=
  (k.errs.map fun e => { k.inRerun cyc e with act := k.finalAct (k.inRerun cyc e) }) ++
    if k.parking then [Err.plain 0x15 0 15 k.lastAddr] else []

/-- An error that calls for Q posts its record at its detection, and its partition is quarantined at the boundary that follows the
detection (R358, R364). -/
def State.raiseQuarantine (s : State) (c cls : Nat) : State :=
  let p := (s.core c).part.val
  let s := s.postEvent p c cls .q
  if s.quarantine.contains p then s else { s with quarantine := s.quarantine ++ [p] }

/-- Whether a core holds a task: one that runs, or one that a pre-emption has halted (R420). -/
def Life.holds : Life → Bool
  | .task | .halted => true
  | _ => false

/-- A fault of a core that runs no task (R388): the record of the task that has ended, or is halted, is marked failed, and an event tells
of it. Of a task that has ended nothing else changes. -/
def State.lateFault (s : State) (c : Nat) (e : Err) (multi : Bool) : State :=
  let k := s.core c
  let s := if e.act = .q ∨ k.life = .halted then s.modCore c fun k => k.noteError e.cls multi else s
  let s := if e.act = .q then s else s.postEvent k.part.val c e.cls .e
  match if k.life = .halted then k.record else k.lastRecord with
  | some id => s.failRecord id
  | none => s

/-- The action that a drain leads to: a handler's entry gives way to every recovery (R355, R371; log entry 77). -/
def Core.drainAct (k : Core) (d : Drain) : Recovery :=
  if d.parked then .p else if d.verify then .b else if d.rfd then (if k.returns then .b else .e)
  else if k.entersHandler d then .n else k.finalAct d.err

/-- An error met during a drain (R355): one of the drain's own cycle is resolved with the drain's; one that calls for B joins a
rollback under way and counts toward its limit; a higher action replaces the drain's; any other posts its record. `stopped` says that an
error of the cycle has stopped the chain whose landings the drain then awaits (R370). -/
def State.errInDrain (s : State) (c : Nat) (d : Drain) (e : Err) (multi stopped : Bool) : State :=
  let k := s.core c
  let own := d.rfd || d.verify
  let act := k.drainAct d
  if d.f = s.cyc ∧ !own then
    s.setDrain c { d with
      err := (pickErr [{ d.err with act := k.finalAct d.err }, e]).getD e, multi := true, matrix := d.matrix || e.cls == 0x0C } stopped
  else
    let e := if act = .b && !d.verify && e.act = .b && 2 ≤ k.rolls then { e with act := .e } else e
    if act = .b ∧ e.act = .b ∧ !own then
      let s := (s.modCore c fun k => { k.noteError e.cls multi with rolls := k.rolls + 1 }).postEvent k.part.val c e.cls .b
      s.setDrain c { d with matrix := d.matrix || e.cls == 0x0C } stopped
    else if (own ∧ e.act.rank = Recovery.b.rank) ∨ act.rank < e.act.rank then
      let s := if d.rfd then s.modCore c fun k => { k with rolls := k.rolls + 1 } else s
      let s := if own || d.parked then s else s.postAt k.part.val c d.err.cls e.act d.cad
      s.setDrain c { s.drainFrom c e (multi || d.multi) false false with chain := d.chain } stopped
    else
      (s.modCore c fun k => k.noteError e.cls multi).postEvent k.part.val c e.cls act

/-- Whether the core is being restored: its daymark is yet to issue again (R355, R361). -/
def Core.restoring (k : Core) (cyc : Nat) : Bool := k.dayNext.any (cyc < ·)

/-- Whether an earlier fault's drain, or the restore that follows it, is under way (R355). -/
def Core.inRollback (k : Core) (cyc : Nat) : Bool := k.drain.any (fun d => d.f < cyc || d.rfd || d.verify) || k.restoring cyc

/-- An error that calls for B during the restore joins the rollback and counts toward its limit (R355). -/
def State.errInRestore (s : State) (c : Nat) (e : Err) (multi : Bool) : State :=
  let part := (s.core c).part.val
  (s.modCore c fun k => { k.noteError e.cls multi with
    rolls := k.rolls + 1
    verify := if e.cls = 0x0C ∧ k.verify.isNone then some (Verify.begin ⟨1, 0, 0, 0, 0, 0, 0, 0, []⟩ (k.dayNext.getD 0)) else k.verify }).postEvent
      part c e.cls .b

/-! ### Parking (R355, R397, R416) -/

/-- Whether a region awaits its verification (R397): its reruns have begun, or the drain of its matrix data error leads to them. -/
def Core.unverified (k : Core) : Bool :=
  k.verify.isSome || k.drain.any fun d => d.matrix && !d.rfd && k.finalAct d.err == .b

/-- Issue goes on at the next cycle where nothing else is to make it: its cycle's errors have kept a bundle from issuing. -/
def State.resumeIssue (s : State) (c : Nat) : State :=
  if (s.agenda.any fun it => it.core == c && it.ev.isIssue) || (s.core c).arrival.isSome then s else s.at c (s.cyc + 1) pIssue .issue

/-- A drain whose rollback parking has replaced ends (R355): issue goes on where the drain has held it back. -/
def State.resumeParked (s : State) (c : Nat) (d : Drain) : State :=
  (s.modCore c fun k => { k with drain := none, issued := d.wasIssued, delay := d.wasDelay, rfd := d.wasRfd }).resumeIssue c

/-- Parking counts among the errors of its cycle (R355, R416): its event is posted, with class 0x0C where it leaves a region unverified
(R397), CERRST takes class 0x15, TRAPREC stays, and the core goes on. Errors of the cycle that call for less come to nothing else, and a
rollback whose drain is under way is replaced and keeps its record; the return of an RFD is not (log entry 77). -/
def State.park (s : State) (c : Nat) (multi : Bool) : State :=
  let k := s.core c
  let part := k.part.val
  let s := (s.modCore c fun k => { k.noteError 0x15 multi with verify := none }).postEvent part c (if k.unverified then 0x0C else 0x15) .p
  match k.drain with
  | none => s.resumeIssue c
  | some d =>
    if k.drainAct d = .b ∧ !d.rfd then
      let s := if d.verify then s else s.postAt part c d.err.cls .p d.cad
      s.modCore c fun k => { k with drain := some { d with parked := true } }
    else s

/-- An error that a core meets in the cycle in which it is parked prevails (R355): a task that it ends is not parked, and where it enters the
handler the core is parked as well (log entry 77). -/
def State.unpark (s : State) (c : Nat) (e : Err) : State :=
  if (s.core c).endsTask (s.drainFrom c e false false false) then s.modCore c fun k => { k with phase := none } else s.park c true

/-- Resolve the errors of a cycle (R355): the one that counts begins a drain, or joins or replaces the one under way. A task that has
ended counts nothing (R388). -/
def State.resolveNow (s : State) (c : Nat) (stopped : Bool) : State :=
  let k := s.core c
  let es := k.judged s.cyc
  match pickErr es with
  | none => s
  | some e =>
    let multi := 1 < es.length
    let stopped := stopped || es.any (·.ofChain)
    let s := s.modCore c fun k => { (if k.life.holds || e.act == .q then k.countUe es else k) with errs := [], parking := false }
    let s := if e.act = .q then s.raiseQuarantine c e.cls else s
    if k.life != .task then s.lateFault c e multi
    else if e.act = .p then s.park c multi
    else
      let s := if k.parking then s.unpark c e else s
      match k.drain with
      | some d => s.errInDrain c d e multi stopped
      | none =>
        if k.restoring s.cyc && e.act == .b then s.errInRestore c e multi
        else s.beginDrain c (s.drainFrom c e multi false false) stopped

/-- Errors of a drain or a restore under way wait for the end of their cycle, so that all of one cycle are resolved together (R355); a
chain that they stop issues nothing more from now on (R370). -/
def State.resolveLate (s : State) (c : Nat) : State :=
  let k := s.core c
  match pickErr (k.judged s.cyc) with
  | none => s
  | some e =>
    let stop := e.act != .p && k.stopsChain (s.drainFrom c e false false false)
    let was := s.agenda.any fun it => it.core == c && it.ev == .lateEnd true
    let s := (s.drop c fun ev => ev == .lateEnd false || ev == .lateEnd true).post
      ⟨max (3 * s.cyc + 2) s.now, pLate, c, .lateEnd (stop || was)⟩
    if stop then s.stopChain c s.now else s

/-- Whether the decision of a scheduled boundary is still to come in this cycle (R38, R44): it may park the core. -/
def State.deciding (s : State) : Bool :=
  s.agenda.any fun it => it.tick == s.now && it.ev == .run Focus.reset .timeDrivenBoundary

/-- The errors of a cycle are resolved (R355): behind a decision of the cycle, and late where the core is being parked or an earlier fault's
drain or restore is under way. -/
def State.resolve (s : State) (c : Nat) : State :=
  let k := s.core c
  if k.life != .task then s.resolveNow c false
  else if s.deciding then (if k.errs = [] then s else s.post ⟨s.now, pTick, c, .endCycle⟩)
  else if k.parking || k.inRollback s.cyc then s.resolveLate c
  else s.resolveNow c false

/-! ### Writes that land -/

/-- The physical register of a vector name (R84). -/
def physV (rb : Fin 8) (d : Fin 32) : Fin 32 :=
  if d.val < 24 then d else ⟨24 + (d.val - 24 + 8 - rb.val) % 8, by omega⟩

/-- The 8-byte words of some bytes. -/
def wordsOf (as : List Nat) : List Nat := (as.map (· / 8)).dedup

/-- The recovery for an uncorrectable word by its region bit (R360). -/
def Core.wordAct (k : Core) (region : Bool) : Recovery := if region && k.inRegion then .b else .e

/-- The store of a slot's memory. -/
def memStore (spm : Bool) : Store := if spm then .spm else .dmem

/-- Detection of an uncorrectable word of SPM or DMEM, or of an uncorrectable ACC element (R360, R390, R391). -/
def Core.wordErr (k : Core) (st : Store) (reader slot addr u : Nat) : Err :=
  let (memory, region, loc) := match st with
    | .acc => (3, k.accRegion, u)
    | .dmem => (2, k.dmemRegion, 8 * u)
    | _ => (1, k.spmRegion, 8 * u)
  { Err.plain 0x0D (memory + 16 * reader) slot addr with loc := BitVec.ofNat 32 loc, act := k.wordAct (Sp.get false region u) }

/-- A read, or a write in part, meets words of SPM or DMEM or ACC elements (R356, R366, R367, R391): each that it corrects counts, and each
that is uncorrectable is detected, with the recovery of its own region bit (R360). Whether none is uncorrectable. -/
@[inline] def State.meet (s : State) (c : Nat) (st : Store) (reader slot addr : Nat) (units : List Nat) : Bool × State :=
  let k := s.core c
  if k.marks = [] then (true, s)
  else
    let bad := k.badUnits st units
    (bad.isEmpty, bad.foldl (fun s u => s.raiseOn c (k.wordErr st reader slot addr u)) (s.fixes c st units))

/-- Insert a write behind those of its cycle whose writer comes no later (R398). -/
def insertWrite (w : Nat × List Byte) : List (Nat × List Byte) → List (Nat × List Byte)
  | [] => [w]
  | x :: r => if w.1 < x.1 then w :: x :: r else x :: insertWrite w r

/-- The places of the writers beside the slots in the order of R398: an engine word's result, the copy engine, the matrix engine and
the chain sequencer. -/
def rEngine : Nat := 8
/-- See rEngine. -/
def rCopy : Nat := 9
/-- See rEngine. -/
def rMatrix : Nat := 10
/-- See rEngine. -/
def rChain : Nat := 11

/-- A write of a writer enters the signature of a rerun (R398), from the issue of its daymark on. -/
def Core.sign (k : Core) (cyc who tag index : Nat) (data : List Byte) : Core :=
  match k.verify with
  | none => k
  | some v =>
    if cyc < v.began then k
    else
      let v := if v.cyc = cyc then v else { v.close with cyc := cyc }
      { k with verify := some { v with writes := insertWrite (who, leBytes 4 (tag + 16 * (index % 2 ^ 28)) ++ data) v.writes } }

/-- Bytes in ascending order of address, the last of one address alone (R205, R398). -/
def byAddress (bs : List (Nat × Byte)) : List (Nat × Byte) := bs.foldl (fun m b => Sp.put b.1 b.2 m) []

/-- The old bytes of the last cycles' writes, so that a WR samples SPM two cycles back (R249). -/
def Core.keepOld (k : Core) (cyc : Nat) (as : List Nat) : Core :=
  { k with spmOld := as.map (fun a => (cyc, a, k.spm.byte a)) ++ k.spmOld.filter (fun e => cyc < e.1 + 3) }

/-- A byte of SPM as it stood at the end of a cycle at most two back (R249). -/
def Core.spmAt (k : Core) (cyc a : Nat) : Byte :=
  match (k.spmOld.filter fun e => cyc < e.1 && e.2.1 = a).getLast? with
  | some (_, _, b) => b
  | none => k.spm.byte a

/-- The region bits and the marks after a write of whole words (R360, R366). -/
def Core.touch (k : Core) (spm set : Bool) (ws : List Nat) : Core :=
  let k := if k.marks = [] then k else
    { k with marks := k.marks.filter fun m => !(m.store == (if spm then .spm else .dmem) && ws.contains m.unit) }
  if spm then { k with spmRegion := ws.foldl (fun r w => Sp.set false r w set) k.spmRegion }
  else { k with dmemRegion := ws.foldl (fun r w => Sp.set false r w set) k.dmemRegion }

/-- The window error record takes a rejection (R293): the first since the last read, and within one cycle that of the
lowest rank. -/
def State.werr (s : State) (c code entry dev core tag rank : Nat) : State :=
  s.modCore c fun k =>
    let n := min 65535 (bits k.werr.toNat 44 16 + 1)
    if k.werr.getLsbD 0 && !(k.werrBy.1 == s.cyc && rank < k.werrBy.2) then
      { k with werr := setField k.werr 44 16 n }
    else { k with
      werrBy := (s.cyc, rank)
      werr := BitVec.ofNat 64 (1 + 2 * (code % 16) + 2 ^ 5 * (entry % 32) + 2 ^ 10 * (dev % 1024) + 2 ^ 20 * (core % 256)
        + 2 ^ 28 * (tag % 65536) + 2 ^ 44 * n) }

/-- The rank of a core of this device (R265). -/
def State.rankOf (s : State) (c : Nat) : Nat := 256 * s.device.toNat + c

/-- A record that names the target itself (R293, R413). -/
def State.werrSelf (s : State) (c e : Nat) (code : Nat) : State :=
  s.werr c code e s.device.toNat c (match (s.core c).win.toList[e]? with | some w => w.tag.toNat | none => 0) (s.rankOf c)

/-- First SPM byte of a window (R266). -/
def Window.base (w : Window) : Nat := 64 * bits w.word0.toNat 8 16
/-- Bytes of a window (R266). -/
def Window.size (w : Window) : Nat := 64 * (bits w.word0.toNat 24 16 + 1)
/-- Synchronisation mode (R266). -/
def Window.mode (w : Window) : Nat := bits w.word0.toNat 1 2
/-- Whether the entry is valid (R266). -/
def Window.valid (w : Window) : Bool := w.word0.getLsbD 0
/-- Whether a byte of SPM lies in the window. -/
def Window.holds (w : Window) (a : Nat) : Bool := w.base ≤ a && a < w.base + w.size
/-- Whether the opening values of the window matter: it is open (R272, R273). -/
def Window.watched (w : Window) : Bool := w.state != 0

/-- The opening values of bytes that are written are kept, with the values of timed writes after them (R272, R414). -/
def Window.keep (w : Window) (spm : Memory) (timed : Bool) (bs : List (Nat × Byte)) : Window :=
  { w with opened := bs.foldl (fun (os : List (Nat × Opening)) b =>
      let new := if timed then [(b.2, none)] else []
      if os.any (·.1 == b.1) then os.map fun o => if o.1 = b.1 then (o.1, { o.2 with later := o.2.later ++ new }) else o
      else os ++ [(b.1, ⟨[(spm.byte b.1, none)], new⟩)]) w.opened }

/-- A write meets the windows of its core but for one that it applies itself (R272, R297): the opening values of its bytes are kept,
and for a timed write an open window records code 13 (R414). -/
def State.watch (s : State) (c : Nat) (timed : Bool) (own : Option (Fin 32)) (bs : List (Nat × Byte)) : State :=
  if (s.core c).win.toList.any (·.watched) then
    (List.finRange 32).foldl (fun (s : State) (e : Fin 32) =>
      let k := s.core c
      let w := k.win[e]
      let hit := bs.filter fun b => w.holds b.1
      if w.watched ∧ hit ≠ [] ∧ own ≠ some e then
        let s := s.setCore c { k with win := k.win.set e (w.keep k.spm timed hit) }
        if timed then s.werrSelf c e.val 13 else s
      else s) s
  else s

/-- The words that bytes write in part: not every byte of the word, or bytes of the list `half` not whole. -/
def partWords (half : List Nat) (as : List Nat) : List Nat :=
  (wordsOf as).filter fun w => !((List.range 8).all fun i => as.contains (8 * w + i) && !half.contains (8 * w + i))

/-- A core stores bytes in SPM or DMEM (R194, R360): set is true for a slot or the copy engine and false for another path, and a write of a
timed path names its writer for the signature (R398). -/
def Core.storeBytes (k : Core) (cyc : Nat) (spm set : Bool) (who : Option Nat) (bs : List (Nat × Byte)) : Core :=
  let as := bs.map (·.1)
  let k := if spm then k.keepOld cyc as else k
  let k := if spm then { k with spm := k.spm.storeAll bs } else { k with dmem := k.dmem.storeAll bs }
  let k := k.touch spm set (wordsOf as)
  match who with
  | none => k
  | some w => if k.verify.isNone ∨ bs = [] then k
    else let xs := byAddress bs; k.sign cyc w (if spm then 4 else 5) ((xs.map (·.1)).headD 0) (xs.map (·.2))

/-- Bytes land in SPM or DMEM (R194, R360). Of the bytes of the list `half` one half is written. A partial write of uncorrectable words
writes nothing and is their detection (R391, reader 6); one of a correctable word corrects it (R366, R367). `pre` is what the write means
for the readers of SPM, with the bytes as they stood. -/
def State.landRaw (s : State) (c : Nat) (spm set : Bool) (who : Option Nat) (half : List Nat) (bs : List (Nat × Byte))
    (pre : State → State) : State :=
  match s.meet c (memStore spm) 6 15 (s.core c).lastAddr (partWords half (bs.map (·.1))) with
  | (false, s) => s
  | (true, s) => (pre s).modCore c fun k => k.storeBytes s.cyc spm set who bs

/-- A timed write is unordered against the untimed writes of its bytes, whose own values a reader may find in its place, and in an
exchange phase against the collective reads to come (R296). -/
def State.loosen (s : State) (c : Nat) (bs : List (Nat × Byte)) : State :=
  if (s.core c).loose = [] ∧ s.exchange c = false then s
  else s.modCore c fun k => { k with
    loose := (k.loose.map fun x =>
        if (bs.any fun b => b.1 == x.addr) && x.writer != .t && !x.early then { x with other := x.value } else x)
      ++ if s.exchange c then bs.map fun b =>
          ⟨b.1, k.spm.byte b.1, b.2, .t, [], none, none, none, false, some s.cyc, some s.cyc, []⟩ else [] }

/-- A timed landing of bytes, of which those of the list `half` are written by halves (R194, R414). -/
def State.landBytes (s : State) (c : Nat) (spm set : Bool) (who : Nat) (half : List Nat) (bs : List (Nat × Byte)) : State :=
  s.landRaw c spm set (some who) half bs fun s => if spm then (s.watch c true none bs).loosen c bs else s

/-- What an untimed write of a byte leaves of the timed writes before it (R296): the value that the latest of them gave may still be
found in its place; the value after a close is the applied one, whatever the timed writes before it were (R273, R414). -/
def afterUntimed (entry : Option (Fin 32)) (bs : List (Nat × Byte)) (xs : List Loose) : List Loose :=
  let hit := fun (x : Loose) => x.writer == .t && bs.any fun b => b.1 == x.addr
  if entry.isSome then xs.filter fun x => !hit x else xs.map fun x => if hit x then { x with other := x.value } else x

/-- An untimed landing in SPM (R294): until an order reaches a reader, it may find the byte as it was (R296). -/
def State.landUntimed (s : State) (c : Nat) (cls : PathClass) (op : Option Nat) (handle : Option (Fin 16)) (entry : Option (Fin 32))
    (origins : List (Nat × Nat)) (done : Option Nat) (bs : List (Nat × Byte)) : State :=
  let s := s.modCore c fun k => { k with loose := k.loose.filter fun x => !(x.early && x.entry == entry) }
  if bs = [] then s
  else s.landRaw c true false none [] bs fun s => (s.modCore c fun k => { k with
    loose := afterUntimed entry bs k.loose ++
      bs.map fun b => ⟨b.1, k.spm.byte b.1, b.2, cls, origins, op, handle, entry, false, done, none, []⟩ }).watch c false entry bs

/-- Whether a write is unordered for a read of a class that begins at a cycle (R295, R296, R298): a class sees its own
writes, and the source reads of the network port follow the timed writes (R283). -/
def Loose.unordered (x : Loose) (cls : PathClass) (key : Nat) : Bool :=
  x.writer != cls && !(cls == .n && x.writer == .t) && !(x.fenced.any fun f => f.1 == cls && f.2 ≤ key)

/-- Whether a write is the effect of an operation that its origin issued before one of a list (R300): each operation by its rank and its
order of issue. -/
def Loose.before (x : Loose) (ys : List (Nat × Nat)) : Bool :=
  x.entry.isSome && x.origins.any fun o => ys.any fun y => o.1 == y.1 && o.2 < y.2

/-- What a core has seen of each rank, its latest operation, with operations seen now (R300). -/
def learn (known ys : List (Nat × Nat)) : List (Nat × Nat) :=
  ys.foldl (fun m y => Sp.put y.1 (max y.2 (Sp.get 0 m y.1)) m) known

/-- A complete write that the core has seen to be so at a cycle (R298). -/
def Loose.see (x : Loose) (cyc : Nat) (told : Bool) : Loose :=
  if told && x.seen.isNone && x.done.any (· ≤ cyc) then { x with seen := some cyc } else x

/-- The core has seen what completes on a handle or a window, and the effects of operations (R298, R300). -/
def State.sees (s : State) (c : Nat) (p : Loose → Bool) (ys : List (Nat × Nat)) : State :=
  if (s.core c).loose = [] ∧ ys = [] then s
  else s.modCore c fun k => { k with loose := k.loose.map fun x => x.see s.cyc (p x), known := learn k.known ys }

/-- What a read of bytes of SPM returns (R296): for a byte that an unordered write touches, either value. A timed read that shows an
operation's effect has seen it (R300). -/
def State.settle (s : State) (c : Nat) (cls : PathClass) (key : Nat) (as : List Nat) (bs : List Byte) : List Byte × State :=
  let xs := (s.core c).loose.filter fun x => as.contains x.addr && x.unordered cls key
  if xs = [] then (bs, s)
  else
    let free := s.freeCtr
    let vs := (as.zip bs).map fun (a, b) =>
      (a, (xs.zipIdx.filter fun (x : Loose × Nat) => x.1.addr == a).foldl (fun v (x : Loose × Nat) => if Config.unorderedByte (free + x.2) then x.1.other else v) b)
    let s := { s with freeCtr := free + xs.length }
    let shown := vs.flatMap fun v => (xs.filter fun (x : Loose) => x.addr == v.1 && x.value == v.2 && x.other != v.2).flatMap (·.origins)
    (vs.map (·.2), if cls = .t ∧ shown ≠ [] then s.sees c (fun _ => false) shown else s)

/-- The completion of an operation is readable from the next cycle on, on its handle (R277, R298): of a GET, its landing, and of the
core's own WUNLOCK, the apply that it awaited. -/
def State.completes (s : State) (c id : Nat) (handle : Option (Fin 16)) : State :=
  if (s.core c).loose = [] then s
  else s.modCore c fun k => { k with
    loose := k.loose.map fun x => if x.op == some id then { x with done := some (s.cyc + 1), handle := handle } else x }

/-- A fence orders the writes of a class that the core has read as complete before reads of another class from nine cycles
later on (R298): of a byte, the latest such write and all that came before it. -/
def fenceLoose (cyc : Nat) (p q : PathClass) : List Loose → List Loose
  | [] => []
  | x :: r =>
    let r' := fenceLoose cyc p q r
    let hit := (x :: r).any fun y => y.addr == x.addr && y.writer == p && !y.early && y.seen.any (· ≤ cyc)
    (if hit && !x.early then { x with fenced := x.fenced ++ [(q, cyc + 9)] } else x) :: r'

/-- A value that a fence hides from operations that start nine cycles later or after (R298). -/
def hideValue (cyc : Nat) (x : Byte × Option Nat) : Byte × Option Nat := if x.2.isNone then (x.1, some (cyc + 9)) else x

/-- A fence hides all values of a byte but the latest. -/
def hideEarlier (cyc : Nat) : List (Byte × Option Nat) → List (Byte × Option Nat)
  | [] => []
  | [x] => [x]
  | x :: r => hideValue cyc x :: hideEarlier cyc r

/-- A fence for the reads of the network port hides what a GET might have found in place of the latest value, from nine cycles later on (R297,
R298): of the values at the opening, where `all` says that every write behind them is ordered; of a byte that timed writes have changed
since, where the fence is one of the timed writes. -/
def Opening.fenced (o : Opening) (cyc : Nat) (timed all : Bool) : Opening :=
  if o.later = [] then (if all then { o with first := hideEarlier cyc o.first } else o)
  else if timed then ⟨o.first.map (hideValue cyc), hideEarlier cyc o.later⟩ else o

/-- Whether every write of a byte that has landed is ordered for the reads of the network port (R297, R298). -/
def allFenced (loose : List Loose) (a : Nat) : Bool :=
  loose.all fun x => x.addr != a || x.early || x.fenced.any (·.1 == .n)

/-- See Opening.fenced. -/
def Window.fenced (w : Window) (cyc : Nat) (timed : Bool) (loose : List Loose) : Window :=
  { w with opened := w.opened.map fun o => (o.1, o.2.fenced cyc timed (allFenced loose o.1)) }

/-- See fenceLoose and Window.fenced. With the effects of operations the core has seen what their origins' earlier operations have applied
here (R300). -/
def State.fence (s : State) (c : Nat) (p q : PathClass) : State :=
  if (s.core c).loose = [] ∧ (q ≠ .n ∨ (s.core c).win.toList.all (·.opened == [])) then s
  else s.modCore c fun k =>
    let loose := fenceLoose s.cyc p q (k.loose.map fun x => x.see s.cyc (x.before k.known))
    { k with loose := loose, win := if q = .n then k.win.map (·.fenced s.cyc (p == .t) loose) else k.win }

/-- What a boundary leaves unordered (R299): not the timed writes that have landed, not the untimed writes complete at the decision cycle,
and nothing that came before such an untimed write of the same byte; `done` is the cycle after a write's completion. Of two writes of a
byte that nothing has ordered, the one that landed last remains: R296 gives either (DESIGN CHOICE, log entry 116). -/
def orderedLoose (d : Nat) : List Loose → List Loose
  | [] => []
  | x :: r =>
    let complete := fun (y : Loose) => y.writer != .t && y.done.any (· ≤ d + 1)
    if x.writer == .t || complete x || (!x.early && r.any fun y => y.addr == x.addr && complete y) then orderedLoose d r
    else x :: orderedLoose d r

/-- See orderedLoose. -/
def Core.ordered (k : Core) (d : Nat) : Core := { k with loose := orderedLoose d k.loose }

/-- The bytes of SPM or DMEM that a reader finds (R391): none when words are uncorrectable, which are then detected. -/
def State.readRaw (s : State) (c : Nat) (spm : Bool) (reader slot addr : Nat) (as : List Nat) : Option (List Byte) × State :=
  match s.meet c (memStore spm) reader slot addr (wordsOf as) with
  | (false, s) => (none, s)
  | (true, s) => (some (as.map (if spm then (s.core c).spm else (s.core c).dmem).byte), s)

/-- A read of SPM or DMEM by a reader of a class that begins at a cycle (R296, R391). -/
def State.readBy (s : State) (cls : PathClass) (key c : Nat) (spm : Bool) (reader slot addr : Nat) (as : List Nat) :
    Option (List Byte) × State :=
  match s.readRaw c spm reader slot addr as with
  | (none, s) => (none, s)
  | (some bs, s) => if spm then let (bs, s) := s.settle c cls key as bs; (some bs, s) else (some bs, s)

/-- A timed read of SPM or DMEM (R295, R391). -/
def State.readBytes (s : State) (c : Nat) (spm : Bool) (reader slot addr : Nat) (as : List Nat) : Option (List Byte) × State :=
  s.readBy .t s.cyc c spm reader slot addr as

/-- FLASHLOG records a result (R89): sticky flags of every class, and the first record is kept. -/
def Core.flashRecord (k : Core) (slot addr : Nat) (cl : BitVec 4) : Core :=
  if cl = 0 then k
  else
    let f := k.regs.flash ||| (cl.zeroExtend 64 <<< 32)
    let low := if cl.getLsbD 0 then 0 else if cl.getLsbD 1 then 1 else if cl.getLsbD 2 then 2 else 3
    let f := if f.getLsbD 24 then f
      else f ||| BitVec.ofNat 64 (addr % 2 ^ 19 + 2 ^ 19 * (slot % 8) + 2 ^ 22 * low + 2 ^ 24)
    { k with regs := { k.regs with flash := f } }

/-- A scalar register is written; s0 discards it (R80). -/
def Core.writeS (k : Core) (d : Fin 32) (x : W64) : Core :=
  if d = 0 then k else { k with regs := { k.regs with s := k.regs.s.set d x } }
/-- A vector register's bits under m are written (R154). -/
def Core.writeV (k : Core) (p : Fin 32) (m x : VReg) : Core :=
  { k with regs := { k.regs with v := k.regs.v.set p ((k.regs.v[p] &&& ~~~m) ||| (x &&& m)) } }
/-- A lane mask's bits under m are written; k0 discards it (R80, R176). -/
def Core.writeK (k : Core) (d : Fin 8) (m x : KReg) : Core :=
  if d = 0 then k else { k with regs := { k.regs with k := k.regs.k.set d ((k.regs.k[d] &&& ~~~m) ||| (x &&& m)) } }
/-- A predicate is written; q0 discards it (R80). -/
def Core.writeQ (k : Core) (d : Fin 8) (x : Bool) : Core :=
  if d = 0 then k else { k with regs := { k.regs with q := k.regs.q.set d x } }

/-- A scalar register takes a value, with its parity, and the write is signed (R80, R366, R398). -/
def Core.landS (k : Core) (cyc who : Nat) (d : Fin 32) (x : W64) : Core :=
  if d = 0 then k else ((k.writeS d x).unmark .s d.val).sign cyc who 0 d.val (leBytes 8 x.toNat)

/-- A vector register takes bits, with its parity, and the write is signed (R154, R366, R398). -/
def Core.landV (k : Core) (cyc who : Nat) (p : Fin 32) (m x : VReg) : Core :=
  let k := (k.writeV p m x).unmarkWords .v 64 p.val fun i => bits m.toNat (64 * i) 64 == 2 ^ 64 - 1
  if k.verify.isNone then k else k.sign cyc who 1 p.val (leBytes 512 k.regs.v[p].toNat)

/-- A lane mask takes bits, with its parity, and the write is signed (R176, R366, R398). -/
def Core.landK (k : Core) (cyc who : Nat) (d : Fin 8) (m x : KReg) : Core :=
  if d = 0 then k
  else let k := (k.writeK d m x).unmarkWords .k 16 d.val fun i => bits m.toNat (64 * i) 64 == 2 ^ 64 - 1
    if k.verify.isNone then k else k.sign cyc who 2 d.val (leBytes 128 k.regs.k[d].toNat)

/-- A predicate takes a value, with its parity, and the write is signed (R80, R366, R398). -/
def Core.landQ (k : Core) (cyc who : Nat) (d : Fin 8) (x : Bool) : Core :=
  if d = 0 then k else ((k.writeQ d x).unmark .q d.val).sign cyc who 3 d.val [BitVec.ofBool x |>.zeroExtend 8]

/-- A register or memory write of a slot lands (R62, R194): the later of one cycle is applied last. -/
def State.land (s : State) (c who : Nat) (l : Land) : State :=
  match l with
  | .s d x => s.modCore c fun k => k.landS s.cyc who d x
  | .v p m x => s.modCore c fun k => k.landV s.cyc who p m x
  | .k d m x => s.modCore c fun k => k.landK s.cyc who d m x
  | .q d x => s.modCore c fun k => k.landQ s.cyc who d x
  | .qs x => s.modCore c fun k => (List.finRange 8).foldl (fun k i => k.landQ s.cyc who i (x.getLsbD i.val)) k
  | .loop n e rb q4 q5 q6 q7 => s.modCore c fun k =>
      let k := { k with regs := { k.regs with lcN := n, lcE := e, rb := rb } }.unmark .lcrb 0
      (((k.landQ s.cyc who 4 q4).landQ s.cyc who 5 q5).landQ s.cyc who 6 q6).landQ s.cyc who 7 q7
  | .cbase x => s.modCore c fun k => { k with regs := { k.regs with cbase := x } }.unmark .cbase 0
  | .cbank i x => s.modCore c fun k =>
      { k with cbank := k.cbank.set i.toNat x (by have := i.isLt; omega),
               marks := k.marks.filter fun m => !(m.store == .cbank && m.unit == i.toNat) }
  | .tvec x => s.modCore c fun k => { k with regs := { k.regs with tvec := x } }
  | .latch x => s.modCore c fun k => { k with regs := { k.regs with latch := x } }
  | .flash slot addr cl => s.modCore c fun k => k.flashRecord slot addr cl
  | .spm bs => s.landBytes c true true who [] bs
  | .dmem bs => s.landBytes c false true who [] bs
  | .nibbles spm cs => s.landBytes c spm true who ((cs.filter fun x => x.2.1 != 0xFF).map (·.1)) (cs.map fun (a, m, x) =>
      let old := (if spm then (s.core c).spm else (s.core c).dmem).byte a
      (a, (old &&& ~~~m) ||| (x &&& m)))

/-! ### Random words -/

/-- One draw (R109): the new generator state. -/
def drawRng (x : W64) : W64 :=
  let x := x ^^^ (x <<< 13)
  let x := x ^^^ (x >>> 7)
  let x := x ^^^ (x <<< 17)
  if x = 0 then rngSeed else x

/-- n draws: the words, and the generator afterwards. -/
def drawMany : Nat → W64 → List W64 × W64
  | 0, x => ([], x)
  | n + 1, x => let y := drawRng x; let (ws, z) := drawMany n y; (y :: ws, z)

/-- The random word of a draw (R109). -/
def rngWord (x : W64) : Nat := bits x.toNat 48 16

/-- Draw n words on a core (R109). -/
def State.drawWords (s : State) (c n : Nat) : List W64 × State :=
  let (ws, z) := drawMany n (s.core c).regs.rngs
  (ws, s.modCore c fun k => { k with regs := { k.regs with rngs := z } })

/-! ### Sorting -/

/-- Insert by a key, before the first that is greater. -/
def insertBy {α : Type} (key : α → Nat) (x : α) : List α → List α
  | [] => [x]
  | y :: r => if key x < key y then x :: y :: r else y :: insertBy key x r

/-- Sort in ascending order of a key; equal keys keep their order. -/
def sortBy {α : Type} (key : α → Nat) (xs : List α) : List α := xs.foldl (fun ys x => insertBy key x ys) []

end Sys2Proof.Machine
end

