-- ==== Sys2Proof/Machine/Operands.lean ====
section
/-! DEFINITION. The operand forms: selectors of every file and type (R74, R75, R123, R133, R153, R173, R177, R185), the
elements of a vector register (R81, R82), and the results that a form posts at its latency (R60, R90). -/

namespace Sys2Proof.Machine

open Sys2Proof

/-- A scalar register; s0 reads 0 (R80). -/
def Core.readS (k : Core) (r : Fin 32) : W64 := if r = 0 then 0 else k.regs.s[r]
/-- A vector register by its name (R84). -/
def Core.readV (k : Core) (r : Fin 32) : VReg := k.regs.v[physV k.regs.rb r]
/-- A lane mask; k0 reads ones (R80). -/
def Core.readK (k : Core) (r : Fin 8) : KReg := if r = 0 then BitVec.allOnes 1024 else k.regs.k[r]
/-- A predicate; q0 reads true (R80). -/
def Core.readQ (k : Core) (r : Fin 8) : Bool := if r = 0 then true else k.regs.q[r]

/-- A CBANK entry through a selector (R74, R86). -/
def Core.readCb (k : Core) (n : Fin 24) : W32 := k.cbank[(k.regs.cbase.toNat + n.val) % 256]'(Nat.mod_lt _ (by decide))

/-- The 32 bits that a literal or CBANK selector supplies (R75); 0 for another selector. -/
def State.word (s : State) (a : Sel) : W32 :=
  match a with
  | .lit n => s.focus.lits.getD n.val 0
  | .cb n => s.cur.readCb n
  | _ => 0

/-- A 64-bit integer or address operand (R75, R123). -/
def State.opS (s : State) (a : Sel) : W64 :=
  match a with
  | .reg r => s.cur.readS r
  | .zero => 0
  | .one => 1
  | a => (s.word a).signExtend 64

/-- An FP32 operand as bits (R75, R123). -/
def State.opF (s : State) (a : Sel) : Nat :=
  match a with
  | .reg r => (s.cur.readS r).toNat % 2 ^ 32
  | .zero => 0
  | .one => 0x3F800000
  | a => (s.word a).toNat

/-- A 16-bit floating-point operand of FCVT (R138). -/
def State.opH (s : State) (one : Nat) (a : Sel) : Nat :=
  match a with
  | .reg r => (s.cur.readS r).toNat % 2 ^ 16
  | .zero => 0
  | .one => one
  | a => (s.word a).toNat % 2 ^ 16

/-- A control word (R75): 35 supplies 0. -/
def State.opC (s : State) (a : Sel) : Nat := (s.word a).toNat

/-- A predicate operand (R133). -/
def State.opQ (s : State) (a : PSel) : Bool :=
  match a with
  | .q n => s.cur.readQ n
  | .zero => false
  | .one => true

/-- A mask operand (R173). -/
def State.opK (s : State) (a : KSel) : KReg :=
  match a with
  | .k n => s.cur.readK n
  | .zero => 0
  | .one => BitVec.allOnes 1024

/-! ### Elements -/

/-- Element i of width w (R81). -/
def elem (w : Nat) (x : VReg) (i : Nat) : Nat := x.toNat / 2 ^ (i * w) % 2 ^ w

/-- The number that holds elements of width w, the first lowest. -/
def joinElems (w : Nat) : List Nat → Nat
  | [] => 0
  | e :: r => e % 2 ^ w + 2 ^ w * joinElems w r

/-- A register whose element i of width w is f i (R81). -/
def ofElems (w : Nat) (f : Nat → Nat) : VReg := BitVec.ofNat 4096 (joinElems w ((List.range (4096 / w)).map f))

/-- A register with one value in every element (R75, R153). -/
def splat (w x : Nat) : VReg := ofElems w fun _ => x

/-- A vector operand for elements of width w, whose selector one supplies the pattern one (R75, R153). -/
def State.opV (s : State) (w one : Nat) (a : Sel) : VReg :=
  match a with
  | .reg r => s.cur.readV r
  | .zero => 0
  | .one => splat w one
  | a => splat w (s.word a).toNat

/-- Whether element i of width w is active (R82, R154). -/
def active (k : KReg) (w i : Nat) : Bool := k.getLsbD (i * w / 4)

/-- The register bits of the active elements (R154). -/
def activeBits (k : KReg) (w : Nat) : VReg := ofElems w fun i => if active k w i then 2 ^ w - 1 else 0

/-- A lane mask with the same value in the w / 4 bits of each element (R82). -/
def maskOf (w : Nat) (b : Nat → Bool) : KReg :=
  BitVec.ofNat 1024 (joinElems (w / 4) ((List.range (4096 / w)).map fun i => if b i then 2 ^ (w / 4) - 1 else 0))

end Sys2Proof.Machine

namespace Sys2Proof

open Machine

/-- Width of an integer element type. -/
def IType.bits : IType → Nat | .i32 => 32 | .i16 => 16 | .i8 => 8
/-- The format of a floating-point element type. -/
def FType.fmt : FType → Fmt | .f32 => fmtF32 | .f16 => fmtF16 | .bf16 => fmtBF16
/-- Width of a floating-point element type. -/
def FType.bits : FType → Nat | .f32 => 32 | _ => 16
/-- The pattern of 1.0 (R75). -/
def FType.one : FType → Nat | .f32 => 0x3F800000 | .f16 => 0x3C00 | .bf16 => 0x3F80
/-- Width named by a variant. -/
def Width.bits : Width → Nat | .w32 => 32 | .w16 => 16 | .w8 => 8 | .w4 => 4

end Sys2Proof

namespace Sys2Proof.Machine

open Sys2Proof

/-! ### Results -/

/-- A result that becomes readable after lat cycles (R60, R90). -/
def State.result (s : State) (lat : Nat) (l : Land) : State := s.later (s.cyc + lat) pLand (.land s.focus.slot.num l)

/-- The check of a write to s30 (R384): only S0 and S1 forms of latency 1 may make it, with a value from SLIM to the
end of DMEM. -/
def State.spBad (s : State) (d : Fin 32) (lat : Nat) (x : W64) : Option Nat :=
  if d = 30 then
    if lat = 1 ∧ (s.focus.slot = .s0 ∨ s.focus.slot = .s1) then
      if x.toNat < s.cur.slim.toNat ∨ 0x40000 < x.toNat then some 1 else none
    else some 2
  else none

/-- A scalar result (R90), checked by R384; the rest of the form's effect follows an accepted write. -/
def State.putThen (s : State) (d : Fin 32) (lat : Nat) (x : W64) (f : State → State) : State :=
  match s.spBad d lat x with
  | some i => s.trap 3 i
  | none => f (s.result lat (.s d x))

/-- A scalar result (R90), checked by R384. -/
def State.putS (s : State) (d : Fin 32) (lat : Nat) (x : W64) : State := s.putThen d lat x id

/-- A form that writes a scalar later than it knows the value: s30 is refused (R384). -/
def State.mayWrite (s : State) (d : Fin 32) (f : State → State) : State := if d = 30 then s.trap 3 2 else f s

/-- A vector result under the bits m (R154), into the physical register that the name denotes at issue (R84). -/
def State.putV (s : State) (d : Fin 32) (lat : Nat) (m x : VReg) : State :=
  s.result lat (.v (physV s.cur.regs.rb d) m x)

/-- A mask result under the bits m. -/
def State.putK (s : State) (d : Fin 8) (m x : KReg) : State := s.result 2 (.k d m x)

/-- A predicate result (R90). -/
def State.putQ (s : State) (d : Fin 8) (x : Bool) : State := s.result 1 (.q d x)

end Sys2Proof.Machine
end

