-- ==== Sys2Proof/Machine/Flags.lean ====
section
/-! DEFINITION. The guard (R61, R69), the flash log of a result (R89, R101, R156), phase legality (R47) and the outcome of
a slot. -/

namespace Sys2Proof.Machine

open Sys2Proof

/-- What every meaning answers. -/
abbrev Result := Host.Outcome State Fault Refusal

/-- The guard read at issue (R69). -/
def State.guard (s : State) (g : Guard) : Bool := s.cur.readQ g.q != g.inv

/-- A slot under its guard: no effect of any kind when it reads false (R61). -/
def State.slot (s : State) (g : Guard) (f : State → State) : Result := .next (if s.guard g then f s else s)

/-- The flash log takes the classes of a result when it lands (R89, R124, R156). -/
def State.flags (s : State) (lat : Nat) (cl : Classes) : State :=
  if cl = 0 then s else s.result lat (.flash s.focus.slot.num s.focus.addr cl)

/-- An FP32 scalar result, zero-extended (R123), with its classes. -/
def State.putF (s : State) (d : Fin 32) (lat : Nat) (r : Nat × Classes) : State :=
  s.putThen d lat (BitVec.ofNat 64 r.1) fun s => s.flags lat r.2

/-- The classes of the active elements (R154, R156). -/
def classesOf (k : KReg) (w : Nat) (rs : List (Nat × Classes)) : Classes :=
  ((List.range rs.length).zip rs).foldl (fun c (i, r) => if active k w i then c ||| r.2 else c) 0

/-- A vector result from elements with their classes, under a mask (R154, R156). -/
def State.putVF (s : State) (d : Fin 32) (lat w : Nat) (k : KReg) (rs : List (Nat × Classes)) : State :=
  (s.putV d lat (activeBits k w) (BitVec.ofNat 4096 (joinElems w (rs.map (·.1))))).flags lat (classesOf k w rs)

/-- An instruction that R47 forbids in a compute phase (R383). -/
def State.exchangeOnly (s : State) (f : State → State) : State :=
  if s.exchange s.focus.core.val then f s else s.trap 2 0

/-- An instruction that R47 forbids in an exchange phase (R383). -/
def State.computeOnly (s : State) (f : State → State) : State :=
  if s.exchange s.focus.core.val then s.trap 2 0 else f s

end Sys2Proof.Machine
end

