-- ==== Sys2Proof/Machine/Fetch.lean ====
section
/-! DEFINITION. Fetch from IMEM by lines (R57, R63-R65). -/

namespace Sys2Proof.Machine

open Sys2Proof

/-- The parcels from an address to the end of its line (R63). -/
def Core.parcels (k : Core) (a : Nat) : List Parcel := toParcels (k.imem.bytes a (64 - a % 64))

/-- One more than the lines of IMEM (R63, R190): sequential flow passes no more fillers than this. -/
def imemLines : Nat := 8193

/-- The head at or after an address in sequential flow: a filler moves to the start of the next line (R63). -/
def Core.skipFill (k : Core) : Nat → Nat → Nat
  | 0, a => a
  | n + 1, a => if k.imem.le a 2 = 0 ∧ a < 0x80000 then k.skipFill n (a + 64 - a % 64) else a

/-- The size of the bundle whose head stands at an address (R57). -/
def Core.headSize (k : Core) (a : Nat) : Nat :=
  let h := k.imem.le a 2
  2 + 2 * fld h 9 1 + 4 * ((headSlots h).length + fld h 10 2)

/-- The return address of a call in a bundle: the head of the bundle after the delay bundle (R64, R143). -/
def Core.returnAddr (k : Core) (addr size : Nat) : Nat :=
  let d := k.skipFill imemLines (addr + size)
  k.skipFill imemLines (d + k.headSize d)

end Sys2Proof.Machine
end

