-- ==== Sys2Proof/Machine/Control.lean ====
section
/-! DEFINITION. Control flow, loops and waits of the scalar slots (R140-R148), TRAP and RFD (R375, R376), XFENCE (R298). -/

namespace Sys2Proof.Machine

open Sys2Proof

/-- Change the record of the bundle in issue. -/
def State.modIssued (s : State) (f : Issued → Issued) : State :=
  s.modCur fun k => { k with issued := k.issued.map f }

/-- The next bundle issues no earlier than c + 1 + stall + n (R141, R147). -/
def State.waitMore (s : State) (n : Nat) : State :=
  s.modIssued fun i => { i with until_ := max i.until_ (s.cyc + 1 + i.stall + n) }

/-- The next bundle awaits an event (R141). -/
def State.waitFor (s : State) (w : Wait) : State := s.modIssued fun i => { i with waits := i.waits ++ [w] }

/-- A branch-class form is taken (R140); in a delay bundle it is class 0x06 (R142, R386). -/
def State.take (s : State) (target : Nat) : State :=
  if s.cur.delay.isSome then s.trap 6 0 else s.modIssued fun i => { i with taken := some target }

/-- The address of the bundle in issue and its size. -/
def State.here (s : State) : Nat × Nat := (s.focus.addr, match s.cur.issued with | some i => i.size | none => 0)

/-- The return address of a call in the bundle in issue (R143). -/
def State.linkAddr (s : State) : W64 := let (a, n) := s.here; BitVec.ofNat 64 (s.cur.returnAddr a n)

/-- Whether a register target is beyond IMEM or off an 8-byte boundary (R65, R144). -/
def badTarget (t : Nat) : Bool := 2 ^ 19 ≤ t || t % 8 != 0

/-- A register target (R144): class 0x01, info 4, for one that R65 refuses (R382). -/
def State.takeReg (s : State) (a : Sel) (f : Nat → State → State) : State :=
  let t := (s.opS a).toNat
  if badTarget t then s.trap 1 4 else f t s

/-- A call is taken (R143, R144): its link register is checked as any destination (R384) before the branch (R142, R369). -/
def State.callTo (s : State) (d : Fin 32) (t : Nat) : State :=
  match s.spBad d 1 s.linkAddr with
  | some i => s.trap 3 i
  | none => if s.cur.delay.isSome then s.trap 6 0 else (s.take t).result 1 (.s d s.linkAddr)

/-- R143. -/
def execBr (g : Guard) (off : BitVec 22) (s : State) : Result :=
  s.slot g fun s => s.take (brTarget s.focus.addr off).toNat

/-- R143. -/
def execCall (g : Guard) (off : BitVec 22) (s : State) : Result :=
  s.slot g fun s => s.callTo 31 (brTarget s.focus.addr off).toNat

/-- R144. -/
def execJr (g : Guard) (a : Sel) (s : State) : Result := s.slot g fun s => s.takeReg a fun t s => s.take t

/-- R144: a destination that is also the source branches to the old value. -/
def execJalr (g : Guard) (d : Fin 32) (a : Sel) (s : State) : Result :=
  s.slot g fun s => s.takeReg a fun t s => s.callTo d t

/-- The trip count that LCSET reads (R145). -/
def tripCount (a : W64) : W32 :=
  if a.toInt ≤ 0 then 0 else if 2 ^ 32 ≤ a.toInt then BitVec.allOnes 32 else a.setWidth 32

/-- R145, R85. -/
def execLcset (g : Guard) (a : Sel) (e : Fin 4) (s : State) : Result :=
  s.slot g fun s => let n := tripCount (s.opS a); s.result 1 (.loop n e 0 (n != 0) false false false)

/-- R146, R85: the counts, stage predicates and base as the loop leaves them, and whether it is taken. -/
def loopStep (r : Regs) : Land × Bool :=
  let n := if r.lcN != 0 then r.lcN - 1 else r.lcN
  let e : Fin 4 := if r.lcN != 0 then r.lcE else if 0 < r.lcE.val then r.lcE - 1 else r.lcE
  (.loop n e (r.rb + 1) (n != 0) r.q[4] r.q[5] r.q[6], n != 0 || e != 0)

/-- R146, R85. A LOOP with a true guard that is not taken runs normally in a delay bundle too: R142 forbids the form there, and the
only fate that R354 and R386 give is that of a taken one (DEDUCED, log entry 70). -/
def execLoop (g : Guard) (off : BitVec 22) (s : State) : Result :=
  s.slot g fun s =>
    let (l, taken) := loopStep s.cur.regs
    if taken && s.cur.delay.isSome then s.trap 6 0
    else
      let t := s.result 2 l
      if taken then t.take (brTarget s.focus.addr off).toNat else t

/-- R147. -/
def execNopw (g : Guard) (a : Sel) (imm : BitVec 11) (s : State) : Result :=
  s.slot g fun s => s.waitMore (s.opS a + imm.signExtend 64).toInt.toNat

/-- R148. -/
def execWaitt (g : Guard) (a b : Sel) (s : State) : Result :=
  s.slot g fun s => s.waitFor (.time (s.opS a + s.opS b))

/-- R375: class 0x09 with bits [10:0] of the immediate. -/
def execTrap (g : Guard) (imm : BitVec 11) (s : State) : Result := s.slot g fun s => s.trap 9 imm.toNat

/-- R376: the delay bundle issues, then the drain and the rollback; issue decides by the flag (Issue.lean), and no branch is taken to
the target that stands in its place. An arrival in its own bundle holds the delay bundle back to the next phase, and there is no daymark
to return to after an arrival (DEDUCED, log entry 57). -/
def execRfd (g : Guard) (s : State) : Result :=
  s.slot g fun s =>
    if s.cur.delay.isSome then s.trap 6 0
    else (s.take 0).modCur fun k => { k with rfd := true }

/-- The fixed wait of a fence: nine cycles (R298). -/
def execXfence (g : Guard) (p q : PathClass) (s : State) : Result := s.slot g fun s => (s.fence s.focus.core.val p q).waitMore 8

end Sys2Proof.Machine
end

