-- ==== Sys2Proof/Machine/Engine.lean ====
section
/-! DEFINITION. The engine queues: what the issue of an engine command does (R73, R231, R320, R385), and the replay list of
a rerun (R380). -/

namespace Sys2Proof

/-- The place of a queue in the core. -/
def QueueId.idx : QueueId → Fin 5 | .matrix => 0 | .copy => 1 | .remote => 2 | .chain => 3 | .coll => 4

/-- The depth of a queue (R320, R326). -/
def QueueId.depth : QueueId → Nat | .matrix => 8 | .copy => 8 | .remote => 16 | .chain => 4 | .coll => 4

end Sys2Proof

namespace Sys2Proof.Machine

open Sys2Proof

/-- The start cycle that an offset names (R73, R231, R379): 0xFFF is the cycle after issue. -/
def State.startCycle (s : State) (o : BitVec 12) : Nat :=
  if o = 0xFFF then s.cyc + 1 else s.startOf s.focus.core.val + o.toNat + s.cur.shift

/-- The tag that a command carries (R271): its handle's, or CADENCE[16:1] of the issuing core. -/
def State.tagFor (s : State) (h : Fin 16) : BitVec 16 :=
  let k := s.cur.handles[h]
  if k.tagv then k.tag else BitVec.ofNat 16 ((s.countOf s.focus.core.val).toNat / 2)

/-- What keeps a command out of its queue (R231, R385): class 0x07 when it is late or out of order, class 0x08 when the
queue is full. Of a start that is both late and out of order info 1 is recorded (DESIGN CHOICE, log entry 129). -/
def State.queueFault (s : State) (q : QueueId) (o : BitVec 12) : Option (Nat × Nat) :=
  let start := s.startCycle o
  let qs := s.cur.queues[q.idx]
  if start ≤ s.cyc then some (7, 1)
  else if qs.any fun x => start < x.start then some (7, 2)
  else if q.depth ≤ qs.length then some (8, 1)
  else none

/-- A command enters its queue, and its start is placed (R231, R320). -/
def State.joinQueue (s : State) (q : QueueId) (i : Instr) (o : BitVec 12) (a b : W64) (tag : BitVec 16) : State :=
  let c := s.focus.core.val
  let start := s.startCycle o
  let cmd : Cmd := ⟨i, a, b, start, s.cyc, s.focus.addr, s.focus.scope, tag, false⟩
  (s.modCur fun k => { k with queues := k.queues.set q.idx (k.queues[q.idx] ++ [cmd]) }).at c start pStart
    (.run { s.focus with slot := .eng } (.engineCommandStart q))

/-- A command at its issue (R231, R320). -/
def State.enqueue (s : State) (q : QueueId) (i : Instr) (o : BitVec 12) (a b : W64) (tag : BitVec 16) : State :=
  match s.queueFault q o with
  | some (cls, info) => s.trap cls info
  | none => s.joinQueue q i o a b tag

/-- Insert in issue order. -/
def insertReplay (x : Nat × Nat) : List (Nat × Nat) → List (Nat × Nat)
  | [] => [x]
  | y :: r => if x.1 < y.1 then x :: y :: r else y :: insertReplay x r

/-- A listed command issued in the current region has acted (R380): it joins the replay list, with LAUNCH's status. -/
def State.acted (s : State) (c issued status : Nat) : State :=
  s.modCore c fun k =>
    if k.shadow.isSome && k.dayFirst ≤ issued then { k with replay := insertReplay (issued, status) k.replay } else k

/-- Whether the next listed command of a rerun has already acted (R380). -/
def Core.replays (k : Core) : Bool := k.opsLeft < k.replayed

/-- A listed command of a rerun that does not act again (R380); the others run f. -/
def State.onceOnly (s : State) (again : Nat → State → State) (f : State → State) : State :=
  if s.cur.replays then
    again ((s.cur.replay.getD s.cur.opsLeft (0, 0)).2) (s.modCur fun k => { k with opsLeft := k.opsLeft + 1 })
  else f s

end Sys2Proof.Machine
end

