-- ==== Sys2Proof/Machine/Remote.lean ====
section
/-! DEFINITION. Windows, handles and remote operations (R264-R293, R410-R415, R424, R425). -/

namespace Sys2Proof.Machine

open Sys2Proof

/-! ### Handles (R276, R277, R290, R291) -/

/-- Change a handle of a core: fields of it, so that an uncorrectable handle stays one (R366; DEDUCED, log entry 104). -/
def State.modHandle (s : State) (c : Nat) (h : Fin 16) (f : Handle → Handle) : State :=
  s.modCore c fun k => { k with handles := k.handles.set h (f k.handles[h]) }

/-- The image that HTEST reads (R276). -/
def Handle.image (h : Handle) : W64 :=
  BitVec.ofNat 64 ((h.nr == 0).toNat + 2 * (h.nv == 0).toNat + 4 * h.tagv.toNat + 2 ^ 4 * h.err.toNat + 2 ^ 8 * h.nr.toNat
    + 2 ^ 16 * h.nv.toNat + 2 ^ 24 * h.tag.toNat)

/-- A command names the handle (R277). -/
def Handle.count (h : Handle) : Handle := { h with nr := h.nr + 1, nv := h.nv + 1 }

/-- Events become readable (R277): the counts fall, the first error is kept, a granted tag is held. -/
def Handle.event (h : Handle) (tag : Option (BitVec 16)) (dnr dnv : Bool) (code : BitVec 4) : Handle :=
  { err := if h.err = 0 then code else h.err
    nr := if dnr && h.nr != 0 then h.nr - 1 else h.nr
    nv := if dnv && h.nv != 0 then h.nv - 1 else h.nv
    tagv := h.tagv || tag.isSome
    tag := tag.getD h.tag }

/-- R290. -/
def execHwait (g : Guard) (h : Fin 16) (vis : Bool) (s : State) : Result := s.slot g fun s => s.waitFor (.handle h vis)

/-- Whether what a wait waits for tells that a write is complete: its handle, of a GET's landing with its local reuse too (R277), or its
window. -/
def Wait.tells (w : Wait) (l : Loose) : Bool :=
  match w with
  | .handle h vis => (vis || (l.writer == .n && l.entry.isNone)) && l.handle == some h
  | .window e => l.entry == some e
  | _ => false

/-- The operations whose effects a core sees when it reads that a wait is over (R300): those of the window's interval, or those behind
what has completed on the handle. -/
def Core.seenBy (k : Core) (cyc : Nat) (w : Wait) : List (Nat × Nat) :=
  match w with
  | .window e => k.win[e].origins
  | .handle .. => (k.loose.filter fun l => w.tells l && l.done.any (· ≤ cyc)).flatMap (·.origins)
  | _ => []

/-- A core has read that waits are over: it has seen what completes on them, with what the origins of those operations had applied here
before (R298, R300). -/
def State.seesBy (s : State) (c : Nat) (ws : List Wait) : State :=
  s.sees c (fun l => ws.any (·.tells l)) (ws.flatMap ((s.core c).seenBy s.cyc))

/-- R291: the clear takes effect at the end of the cycle. What an HTEST reads counts for an XFENCE of a later bundle, not for one of its
own (DESIGN CHOICE, log entry 115). -/
def execHtest (g : Guard) (d : Fin 32) (h : Fin 16) (clr : Bool) (s : State) : Result :=
  s.slot g fun s =>
    let x := s.cur.handles[h]
    s.putThen d 1 x.image fun s =>
      let s := s.seesBy s.focus.core.val [.handle h true]
      if clr then s.later s.cyc pEnd (.clearErr h x.err) else s

/-! ### Stations and streams (R264, R333, R334, R423) -/

/-- Whether a device identifier of an address names this device (R264). -/
def State.isSelf (s : State) (dev : Nat) : Bool := dev == 0x3FF || dev == s.device.toNat

/-- The station that the map names for a device (R334). -/
def State.stationOf (s : State) (dev : Nat) : Nat := (s.stmap.find? (·.1 == dev)).elim (dev % 16) (·.2.toNat)

/-- A packet to or from another device: in the header-compressed mode the first one of a stream opens its context (R333, R423; log entry
51). -/
def State.packet (s : State) (dev : Nat) : State :=
  let x := (s.stationOf dev, dev)
  if s.isSelf dev || !s.fabctl.getLsbD 0 || s.streams.contains x then s else { s with streams := s.streams ++ [x] }

/-! ### Intervals (R269, R270, R272-R275) -/

/-- Change a window of a core. -/
def State.modWin (s : State) (c : Nat) (e : Fin 32) (f : Window → Window) : State :=
  s.modCore c fun k => { k with win := k.win.set e (f k.win[e]) }

/-- An interval opens (R269, R270), with the values that a GET may find for the bytes that have more than the one in SPM. -/
def Window.openAs (w : Window) (state : Fin 4) (tag : BitVec 16) (opened : List (Nat × Opening)) : Window :=
  { w with state := state, tag := tag, count := w.expect, opened := opened, staged := [],
           grants := [], holders := 0, wwait := false, unlock := none, origins := [] }

/-- One of the values of a byte, by free values of its address; the last where none is chosen. -/
def pickByte {α : Type} (free a : Nat) : List α → α → α
  | [], b => b
  | x :: r, b => if Config.unorderedByte (free + a) then x else pickByte (free + 2 ^ 22) a r b

/-- How far the free values that a window's bytes may take reach. -/
def pickSpan : Nat := 2 ^ 40

/-- The bytes of a window whose value at its opening is not settled: those that a collective has written, and where a lock opens it those in
which a timed write of this phase has landed before (R296, R297). The opening fixes for each whether its GETs find the value in SPM or the
value before such a write, but for the operations that a fence has ordered behind it (R298). -/
def Core.openView (k : Core) (w : Window) (lock : Bool) (free : Nat) : List (Nat × Opening) :=
  let xs := k.loose.filter fun x => (x.writer == .c || (lock && x.writer == .t)) && w.holds x.addr
  (xs.map (·.addr)).dedup.map fun a =>
    let now := (k.spm.byte a, none)
    (a, ⟨[pickByte free a ((xs.filter fun x => x.addr == a).map fun x =>
      (x.other, (x.fenced.find? fun f => f.1 == .n).map (·.2))) now, now], []⟩)

/-- An interval opens (R269, R270, R297): state 1 by the phase or WPOST, 2 or 3 by a lock. -/
def State.opens (s : State) (c : Nat) (e : Fin 32) (state : Fin 4) (tag : BitVec 16) : State :=
  let view := (s.core c).openView (s.core c).win[e] (state != 1) s.freeCtr
  let s := if view = [] then s else { s with freeCtr := s.freeCtr + pickSpan }
  s.modWin c e (·.openAs state tag view)

/-! ### The reads of a window entry (R366, R393) -/

/-- Whether a window entry is uncorrectable. -/
def State.badWin (s : State) (c : Nat) (e : Fin 32) : Bool := ((s.core c).marked .window [e.val] true).isSome

/-- A read has found an uncorrectable window entry (R393). -/
def State.winErr (s : State) (c : Nat) (e : Fin 32) : State :=
  s.raiseOn c { Err.plain 0x1A 1 15 (s.core c).lastAddr with loc := BitVec.ofNat 32 e.val }

/-- A read of a window entry that goes on only where the entry is right (R366, R393). -/
def State.withWin (s : State) (c : Nat) (e : Fin 32) (f : State → State) : State :=
  if s.badWin c e then s.winErr c e else f (s.fixes c .window [e.val])

/-- Bytes staged at a port (R275): those of open intervals and of applies in progress, 4 to an element; for a BF16 contribution too, which
names an element of 4 bytes (DESIGN CHOICE, log entry 106). -/
def Core.stagedBytes (k : Core) : Nat :=
  ((k.win.toList.map fun w => (w.staged.map fun o => 4 * (o.data.length / (if o.type = 2 then 2 else 4))).sum)).sum

/-- A contribution combined with an element (R274). -/
def combine (op type x c : Nat) : Nat :=
  let c := if type = 2 then fmtBF16.flushed c * 2 ^ 16 else c
  if type = 1 then
    let a := sgn 32 x
    let b := sgn 32 c
    if op = 0 then (x + c) % 2 ^ 32 else if op = 1 then (if a < b then c else x) else (if b < a then c else x)
  else if op = 0 then (fmtF32.add x c).1 else fmtF32.minmax (op == 1) x c

/-- The elements of staged data (R280). -/
def Staged.elems (o : Staged) : List (Nat × Nat) :=
  let w := if o.type = 2 then 2 else 4
  (List.range (o.data.length / w)).map fun i => (o.off / 4 + i, ofLe ((o.data.drop (w * i)).take w))

/-- The elements after a close (R273), from the values before: PUTs in descending rank and issue order, then RACCs in
ascending rank and issue order. -/
def applyAll (prior : Nat → Nat) (ops : List Staged) : List (Nat × Nat) :=
  let inOrder := sortBy (·.serial) ops
  let puts := (sortBy (·.rank) (inOrder.filter (·.kind != .racc)))
  let ranks := (sortBy id (puts.map (·.rank)).dedup).reverse
  let vals := (ranks.map fun r => puts.filter (·.rank == r)).flatten.foldl
    (fun m o => o.elems.foldl (fun m e => Sp.put e.1 e.2 m) m) ([] : List (Nat × Nat))
  (sortBy (·.rank) (inOrder.filter (·.kind == .racc))).foldl
    (fun m o => o.elems.foldl (fun m e =>
      Sp.put e.1 (combine o.op o.type ((m.find? (·.1 == e.1)).elim (prior e.1) (·.2)) e.2) m) m) vals

/-- The values that an operation which starts at a cycle may find: the opening value, and those of the timed writes since. -/
def Opening.values (o : Opening) (start : Nat) : List Byte :=
  let shown := fun (x : Byte × Option Nat) => x.2.all (start < ·)
  ((o.first.find? shown).toList ++ o.later.filter shown).map (·.1)

/-- The values that an operation which starts at a cycle may find for a byte of a window, in the order in which they came to be: none for a
byte that has only the one in SPM. -/
def Window.candidates (w : Window) (start a : Nat) : List Byte :=
  match w.opened.find? (·.1 == a) with
  | some o => o.2.values start
  | none => []

/-- What a GET that starts at a cycle returns for a byte of a window (R272, R297): the value at the opening, or for a byte that timed
writes have changed since, either that value or one written (R414), but for what a fence has ordered before it (R298). -/
def Window.getByte (w : Window) (spm : Memory) (free start a : Nat) : Byte :=
  match (w.candidates start a).reverse with
  | b :: r => pickByte free a r b
  | [] => spm.byte a

/-- The prior value of R273 for a byte of a window: that at the opening, or the one that another path has given it since (R296, R414). -/
def Window.byteOf (w : Window) (spm : Memory) (free start a : Nat) : Byte := pickByte free a (w.candidates start a) (spm.byte a)

/-- Grant the lock requests that wait (R289): in order of arrival. -/
def Window.grantable (w : Window) (excl : Bool) : Bool :=
  if excl then w.state == 0 && !w.applying
  else (w.state == 0 && !w.applying) || (w.state == 2 && w.holders < 63)

/-- An operation of the module. -/
def State.op? (s : State) (id : Nat) : Option RemoteOp := s.ops.find? (·.id == id)

/-- Change an operation. -/
def State.modOp (s : State) (id : Nat) (f : RemoteOp → RemoteOp) : State :=
  { s with ops := s.ops.map fun o => if o.id = id then f o else o }

/-- Remove an operation. -/
def State.dropOp (s : State) (id : Nat) : State := { s with ops := s.ops.filter (·.id != id) }

/-- A free delay inside the package (log entry 5). -/
def State.delivery (s : State) : Nat × State := let (n, s) := s.fresh; (1 + Config.deliveryCycles n, s)

/-- The event of one target reaches the origin (R277): a visibility event, or a rejection with its code. -/
def State.report (s : State) (o : RemoteOp) (t code cyc : Nat) : State :=
  s.at o.core cyc pNet (.run { argFocus o.core o.id with lits := [BitVec.ofNat 32 t] } (.visibilityEvent (BitVec.ofNat 4 code)))

/-- An answer of a core of this device travels to the origin; an operation of another device is forgotten once its targets here have
answered. -/
def State.answer (s : State) (c : Nat) (o : RemoteOp) (code : Nat) : State :=
  let (d, s) := s.delivery
  if o.dev = s.device.toNat then s.report o (s.rankOf c) code (s.cyc + d)
  else
    let s := (s.packet o.dev).modOp o.id fun o => { o with heard := c :: o.heard }
    if s.ops.any fun x => x.id == o.id && x.heard.length < x.target.length then s else s.dropOp o.id

/-- A grant of access (R287, R289): the operation takes the window's tag. -/
def State.grantTo (s : State) (c : Nat) (e : Fin 32) (o : RemoteOp) : State :=
  let w := (s.core c).win[e]
  let s := s.modWin c e fun w => { w with grants := w.grants ++ [o.rank] }
  (s.modOp o.id fun x => { x with tag := w.tag }).answer c { o with tag := w.tag } 0

/-- A rejection at a target port (R268, R293). -/
def State.reject (s : State) (c : Nat) (o : RemoteOp) (code : Nat) : State :=
  (s.werr c code o.entry o.dev o.core o.tag.toNat o.rank).answer c o code

/-- Grants to waiting lock requests (R289), at most n. -/
def State.grantLocks (s : State) (c : Nat) (e : Fin 32) : Nat → State
  | 0 => s
  | n + 1 =>
    let w := (s.core c).win[e]
    match w.waiting with
    | [] => s
    | id :: rest =>
      match s.op? id with
      | none => (s.modWin c e fun w => { w with waiting := rest }).grantLocks c e n
      | some o =>
        if w.grantable o.excl then
          let s := s.modWin c e fun w => { w with waiting := rest }
          let s := if o.excl then s.opens c e 3 (w.tag + 1)
            else (if w.state = 0 then s.opens c e 2 (w.tag + 1) else s).modWin c e fun w => { w with holders := w.holders + 1 }
          (s.grantTo c e o).grantLocks c e n
        else s

/-- The bytes that the close of an interval writes (R273). -/
def Window.willApply (w : Window) (spm : Memory) (free cyc : Nat) : List (Nat × Byte) :=
  let start := (w.staged.map (·.start)).foldr min cyc
  let prior := fun el => ofLe ((List.range 4).map fun i => w.byteOf spm free start (w.base + 4 * el + i))
  ((applyAll prior w.staged).map fun (el, x) => leCells (w.base + 4 * el) 4 x).flatten

/-- Whether the core waits on a WWAIT of a window. -/
def Core.inWwait (k : Core) (e : Fin 32) : Bool := k.issued.any fun i => i.waits.contains (.window e)

/-- A WWAIT returns in the cycle after the apply, and so has acted (R286, R380). -/
def State.wwaited (s : State) (c : Nat) (e : Fin 32) : State :=
  match (s.core c).issued with
  | some i => if i.waits.contains (.window e) then s.acted c i.cyc 0 else s
  | none => s

/-- An interval whose apply is under way has been applied (R273, R275, R415): nothing lands on an uncorrectable word, whose detection is class
0x0D with reader 6; the unlock that released its last holder has its event (R277), a WWAIT returns, and the next lock is granted. -/
def State.applied (s : State) (c : Nat) (e : Fin 32) : State :=
  let k := s.core c
  let w := k.win[e]
  if !w.applying then s else
  let bad := if k.marks = [] then [] else k.badUnits .spm (wordsOf (w.result.map (·.1)))
  let good := if bad = [] then w.result else w.result.filter fun b => !bad.contains (b.1 / 8)
  let s := s.landUntimed c .n w.unlock none (some e) w.origins (some (s.cyc + 1)) good
  let s := bad.foldl (fun s u => s.raiseOn c (k.wordErr .spm 6 15 k.lastAddr u)) s
  let s := s.modWin c e fun w => { w with staged := [], applying := false, doneAt := s.cyc, result := [], unlock := none }
  let s := match w.unlock.bind s.op? with | some o => s.answer c o 0 | none => s
  let s := if (s.core c).inWwait e then s.at c (s.cyc + 1) pNet (.wwaited e) else s
  if w.mode = 2 then s.grantLocks c e 64 else s

/-- While an interval is applied, a reader may already find a byte as it will be (R294, R296). -/
def State.expects (s : State) (c : Nat) (e : Fin 32) : State :=
  s.modCore c fun k => { k with loose := k.loose ++ (k.win[e].result.map fun b =>
      ⟨b.1, b.2, b.2, .n, k.win[e].origins, none, none, some e, true, none, none, []⟩) }

/-- An interval closes (R269, R270): it stops accepting, code 9 is recorded for a count above 0 (R293), and its staged
data is applied at 2,048 bytes per cycle, through the one shared port behind what is being applied there (R191, R275): what the apply gives
is fixed here, with the values before it (R273, R414). An uncorrectable entry does not say where, and nothing is applied (R393; log entry
102); a partition that is being quarantined is not told of it again. -/
def State.closeWindow (s : State) (c : Nat) (e : Fin 32) : State :=
  let w := (s.core c).win[e]
  if w.state = 0 then s
  else
    let s := if w.mode ≠ 2 ∧ w.count ≠ 0 then s.werrSelf c e.val 9 else s
    let s := if !s.badWin c e then s.fixes c .window [e.val]
      else (if s.quarantine.contains (s.core c).part.val then s else s.winErr c e).modWin c e fun w => { w with staged := [] }
    let n := (((s.core c).win[e].staged.map fun o => 4 * o.elems.length).sum + 2047) / 2048
    let result := (s.core c).win[e].willApply (s.core c).spm s.freeCtr s.cyc
    let s : State := { s with freeCtr := s.freeCtr + pickSpan }
    let s := s.modWin c e fun w => { w with
      state := 0, grants := [], holders := 0, wwait := false, applying := true, opened := [], result := result }
    if n = 0 then s.applied c e
    else
      let t := max s.cyc (s.core c).applyFree + n
      ((s.modCore c fun k => { k with applyFree := t }).expects c e).at c t pNet (.apply e)

/-- What a core's port has yet to apply when its task ends, or when the exchange phase does, is applied at the boundary: it moves nothing in
a compute phase (R192, R273, R362; DESIGN CHOICE, log entry 101). -/
def State.flushApplies (s : State) (c : Nat) : State :=
  (List.finRange 32).foldl (fun (s : State) (e : Fin 32) => s.applied c e) (s.drop c fun ev => (List.finRange 32).any fun e => ev == .apply e)

/-- Requests that still wait are rejected with code 1 (R287, R415). -/
def State.rejectWaiting (s : State) (c : Nat) (e : Fin 32) : State :=
  let w := (s.core c).win[e]
  let s := s.modWin c e fun w => { w with waiting := [] }
  w.waiting.foldl (fun s id => match s.op? id with | some o => s.reject c o 1 | none => s) s

/-! ### The window commands of the target (R285, R286) -/

/-- Whether the intervals of a core have closed for good: its drain ends its task, and the phase in which it began is decided (R192, R362,
R416). -/
def State.shutting (s : State) (k : Core) : Bool :=
  k.drain.any fun d => k.endsTask d && (s.decided.isSome || d.f < s.phStart)

/-- Whether an operation now reaches a core whose windows can open (R269, R287, R417): one of an exchange phase, before its arrival. -/
def State.exposing (s : State) (c : Nat) : Bool :=
  let k := s.core c
  s.exchange c && k.arrival.isNone && k.phase.isNone && k.life == .task && !s.shutting k

/-- R285: class 0x14, info 8, for an entry that is not valid, pairwise and closed. The interval opens at c + 1 after the writes that
land then (R297). -/
def execWpost (g : Guard) (a : Fin 32) (s : State) : Result :=
  s.slot g fun s => s.exchangeOnly fun s => s.onceOnly (fun _ s => s) fun s =>
    let e : Fin 32 := ⟨(s.cur.readS a).toNat % 32, Nat.mod_lt _ (by decide)⟩
    s.withWin s.focus.core.val e fun s =>
      let w := s.cur.win[e]
      if w.valid ∧ w.mode = 1 ∧ w.state = 0 ∧ !w.applying then s.later (s.cyc + 1) pStart (.wpost e)
      else s.trap 0x14 8

/-- WPOST takes effect (R285, R287): the interval opens, and waiting requests are granted in ascending rank. No entry of a parked
core opens (R417), nor one of a core whose intervals have closed for good (R192). What opens behind the arrival of its own core closes at
once (R269; log entry 82). -/
def State.wpost (s : State) (c : Nat) (e : Fin 32) : State :=
  let w := (s.core c).win[e]
  if w.state ≠ 0 ∨ w.applying ∨ (s.core c).phase.isSome ∨ s.shutting (s.core c) then s
  else
    let s := ((s.opens c e 1 (w.tag + 1)).modWin c e fun w => { w with waiting := [] }).acted c (s.cyc - 1) 0
    let s := (sortBy (·.rank) (w.waiting.filterMap s.op?)).foldl
      (fun s o => if ((s.core c).win[e].grants.contains o.rank) then s.reject c o 8 else s.grantTo c e o) s
    if (s.core c).arrival.isSome then (s.rejectWaiting c e).closeWindow c e else s

/-- R286: class 0x14, info 9, for an entry that is not open and pairwise; the interval closes when its count reads 0. -/
def execWwait (g : Guard) (a : Fin 32) (s : State) : Result :=
  s.slot g fun s => s.exchangeOnly fun s => s.onceOnly (fun _ s => s) fun s =>
    let e : Fin 32 := ⟨(s.cur.readS a).toNat % 32, Nat.mod_lt _ (by decide)⟩
    let c := s.focus.core.val
    s.withWin c e fun s =>
      let w := s.cur.win[e]
      if w.valid ∧ w.mode = 1 ∧ w.state = 1 then
        let s := s.waitFor (.window e)
        if w.count = 0 then s.closeWindow c e else s.modWin c e fun w => { w with wwait := true }
      else s.trap 0x14 9

/-! ### Issue of remote operations (R279-R289, R410, R411) -/

/-- Whether a core of a device lies within a scope of a core (R22, R278). -/
def State.inScope (s : State) (c dev t scope : Nat) : Bool :=
  if !s.isSelf dev then scope == 4
  else match scope with
    | 0 => t == c
    | 1 => t / 4 == c / 4
    | 2 => t / 64 == c / 64
    | _ => true

/-- Bytes of a local element (R280). -/
def localSize (k : OpKind) (b : W64) : Nat := if k = .racc ∧ bits b.toNat 48 2 = 2 then 2 else 4

/-- Whether an operation is a window command (R284). -/
def OpKind.command : OpKind → Bool
  | .wstart | .wcompl | .wlock | .wunlock => true
  | _ => false

/-- The handle that a command names (R280, R284). -/
def handleOf (b : W64) : Fin 16 := ⟨bits b.toNat 42 4, Nat.mod_lt _ (by decide)⟩

/-- The illegal use that a command makes at its issue (R411, infos 1-5); of several, the lowest sub-code is recorded, as R369 has it for
class 0x01 (DESIGN CHOICE, log entry 107). -/
def State.illegal (s : State) (k : OpKind) (a b : W64) : Option Nat :=
  let h := s.cur.handles[handleOf b]
  let w := localSize k b
  let off := bits a.toNat 0 22
  let loc := bits b.toNat 0 22
  if k = .racc ∧ (bits b.toNat 46 2 = 3 ∨ bits b.toNat 48 2 = 3) then some 1
  else if !k.command && (off % 4 != 0 || loc % w != 0) then some 2
  else if !k.command && 0x400000 < loc + w * bits b.toNat 22 20 then some 3
  else if h.nr = 255 ∨ h.nv = 255 then some 4
  else if k ≠ .putMc ∧ !s.inScope s.focus.core.val (bits a.toNat 35 10) (bits a.toNat 27 8) s.focus.scope then some 5
  else none

/-- A remote command at its issue (R279, R282, R410): it counts on its handle from the next cycle (R277). -/
def State.remote (s : State) (g : Guard) (i : Instr) (k : OpKind) (o : BitVec 12) (ra rb : Fin 32) : Result :=
  s.slot g fun s => s.exchangeOnly fun s => s.onceOnly (fun _ s => s) fun s =>
    let a := s.cur.readS ra
    let b := s.cur.readS rb
    match s.queueFault .remote o with
    | some (cls, info) => s.trap cls info
    | none => match s.illegal k a b with
      | some info => s.trap 0x14 info
      | none => (s.joinQueue .remote i o a b (s.tagFor (handleOf b))).later (s.cyc + 1) pNet (.countHandle (handleOf b))

/-- R279. -/
def execGet (g : Guard) (o : BitVec 12) (a b : Fin 32) (s : State) : Result := s.remote g (.get g o a b) .get o a b

/-- R279. -/
def execPut (g : Guard) (o : BitVec 12) (a b : Fin 32) (s : State) : Result := s.remote g (.put g o a b) .put o a b

/-- R279. -/
def execPutMc (g : Guard) (o : BitVec 12) (a b : Fin 32) (s : State) : Result := s.remote g (.putMc g o a b) .putMc o a b

/-- R279. -/
def execRacc (g : Guard) (o : BitVec 12) (a b : Fin 32) (s : State) : Result := s.remote g (.racc g o a b) .racc o a b

/-- R287. -/
def execWstart (g : Guard) (o : BitVec 12) (a b : Fin 32) (s : State) : Result :=
  s.remote g (.wstart g o a b) .wstart o a b

/-- R288. -/
def execWcompl (g : Guard) (o : BitVec 12) (a b : Fin 32) (s : State) : Result :=
  s.remote g (.wcompl g o a b) .wcompl o a b

/-- R289. -/
def execWlock (g : Guard) (o : BitVec 12) (a b : Fin 32) (s : State) : Result := s.remote g (.wlock g o a b) .wlock o a b

/-- R289. -/
def execWunlock (g : Guard) (o : BitVec 12) (a b : Fin 32) (s : State) : Result :=
  s.remote g (.wunlock g o a b) .wunlock o a b

/-! ### Start at the origin (R282, R283, R288, R413) -/

/-- Whether a device cannot be reached: the station that the map names for it cannot carry traffic, or no switch route exists (R334,
R413, R423). -/
def State.unreachable (s : State) (dev : Nat) : Bool :=
  let st := s.stationOf dev
  !(s.isSelf dev || (s.trained.getLsbD st && !s.perrst.getLsbD (16 + st) && Config.routeExists dev))

/-- L_max in cycles of 5/3 ns: 980 ns in the split-plane mode, 1,460 ns in the header-compressed mode (R334, R335). -/
def State.lmax (s : State) : Nat := if s.fabctl.getLsbD 0 then 876 else 588

/-- The cycles that a message takes to another device: from 200 ns to a bound, L_max for a delivery (R334), and longer when a hop needs
more than one retry (R424); the length is free (log entry 5). -/
def fabricDelay (bound n : Nat) : Nat :=
  if Config.extraRetries n then 120 + Config.fabricCycles n else 120 + Config.fabricCycles n % (bound - 119)

/-- The most that the answer to a delivered operation takes back to its origin without further retries: 32 cycles less than L_max, so that
a PUT sent when a scheduled phase opens is answered by its decision (R345, R346; DEDUCED, log entry 118). -/
def State.answerMax (s : State) : Nat := s.lmax - 32

/-- The codes with which a target port answers a kind of operation (R268, R413, R415). -/
def OpKind.answers : OpKind → List Nat
  | .get => [0, 1, 2, 3, 4, 5, 6, 12]
  | .put | .putMc | .racc => [0, 1, 2, 3, 4, 5, 6, 7]
  | _ => [0, 1, 5, 6, 8]

/-- The code with which a core of another device answers: free among those of the kind (log entry 14). -/
def deviceAnswer (k : OpKind) (n : Nat) : Nat :=
  let x := (Config.deviceCode n).toNat
  if k.answers.contains x then x else 0

/-- The member cores of a PUT.MC but for the origin (R281, R336): none of a group that firmware has not defined, so that nothing is sent and
both events are delivered without an error (DESIGN CHOICE, log entry 108). -/
def State.mcTargets (s : State) (c gid : Nat) : List Nat :=
  match s.groups.find? (·.1 == gid) with
  | some (_, g) => g.members.filter (· != s.rankOf c)
  | none => []

/-- The operation leaves the origin port (R283, R334, R336): to each target core of this device, and to other devices,
whose answers are free values (log entry 14). -/
def State.send (s : State) (o : RemoteOp) : State :=
  (o.target.filter fun t => !o.heard.contains t).foldl (fun s t =>
    if s.isSelf (t / 256) then
      let (d, s) := s.delivery
      s.at (t % 256) (s.cyc + d) pNet (.run (argFocus (t % 256) o.id) .remoteOperationReceipt)
    else
      let n := s.freeCtr
      let s := { s with freeCtr := n + 4 * o.n + 2 }.packet (t / 256)
      let x := s.cyc + fabricDelay s.lmax n + fabricDelay s.answerMax (n + 1)
      let s := if o.kind = .wstart ∨ o.kind = .wlock then s.modOp o.id fun o => { o with tag := Config.deviceTag n } else s
      let code := deviceAnswer o.kind n
      if o.kind = .get ∧ code = 0 then
        s.at o.core x pNet (.getLand o.id ((List.range (4 * o.n)).map fun i => (o.loc + i, Config.deviceByte (n + i))))
      else s.report o t code x) s

/-- A multicast copy that another device has sent arrives (R336): the lantern delivers it to the member cores of this device. -/
def State.deliverCopy (s : State) (id group : Nat) : State :=
  let ms := match s.groups.find? (·.1 == group) with
    | some (_, g) => g.members.filter fun m => m / 256 == s.device.toNat
    | none => []
  if ms = [] then s.dropOp id
  else ms.foldl (fun s m =>
    let (d, s) := s.delivery
    s.at (m % 256) (s.cyc + d) pNet (.run (argFocus (m % 256) id) .remoteOperationReceipt))
    (s.modOp id fun o => { o with target := ms, left := ms.length })

/-- The kind of a queued remote command. -/
def kindOf : Instr → OpKind
  | .get .. => .get | .put .. => .put | .putMc .. => .putMc | .racc .. => .racc
  | .wstart .. => .wstart | .wcompl .. => .wcompl | .wlock .. => .wlock | _ => .wunlock

/-- A remote command begins (R282, R283, R410, R411, R413, R425): class 0x14, info 6, for a group member outside the
scope, and info 7 while the source reader is busy; where both apply, info 6 (DESIGN CHOICE, log entry 107). A target whose device cannot be
reached is rejected now, with code 10. -/
def State.startRemote (s : State) (cmd : Cmd) : State :=
  let c := s.focus.core.val
  let kd := kindOf cmd.instr
  let a := cmd.a.toNat
  let h := handleOf cmd.b
  let err := fun (s : State) (info : Nat) => s.raiseOn c (Err.plain 0x14 info 8 cmd.addr)
  let targets := if kd = .putMc then s.mcTargets c (bits a 27 16)
    else [256 * (if s.isSelf (bits a 35 10) then s.device.toNat else bits a 35 10) + bits a 27 8]
  let reads := kd = .put ∨ kd = .putMc ∨ kd = .racc
  if kd = .putMc ∧ targets.any (fun t => !s.inScope c (t / 256) (t % 256) cmd.scope) then err s 6
  else if reads ∧ s.cyc < s.cur.srcFree then err s 7
  else
    let n := if kd.command then 0 else bits cmd.b.toNat 22 20
    let w := localSize kd cmd.b
    let k := (n * w + 255) / 256
    let id := s.nextId
    let down := targets.filter fun t => s.unreachable (t / 256)
    let o : RemoteOp := {
      id := id, kind := kd, dev := s.device.toNat, core := c, part := s.cur.part.val, rank := s.rankOf c, tag := cmd.tag
      handle := some h, target := targets, entry := bits a 22 5, off := bits a 0 22
      loc := bits cmd.b.toNat 0 22, n := n, op := bits cmd.b.toNat 46 2, type := if kd = .racc then bits cmd.b.toNat 48 2 else 0
      excl := bits cmd.b.toNat 46 1 = 1, scope := cmd.scope, start := s.cyc, phase := (s.countOf c).toNat
      data := [], left := targets.length, nrDone := false, nvDone := false, late := false, got := [], heard := down
      task := s.cur.task, saw := [] }
    let s := { s with nextId := id + 1, ops := s.ops ++ [o] }.acted c cmd.issued 0
    let s := if kd = .wcompl ∨ kd = .wunlock then s.modHandle c h fun x => { x with tagv := false } else s
    let s := down.foldl (fun s t => (s.werr c 10 o.entry (t / 256) (t % 256) o.tag.toNat o.rank).report o t 10 s.cyc) s
    let lost := down ≠ [] ∧ down.length = targets.length
    let s := if kd = .wstart ∨ kd = .wlock ∨ lost then s
      else s.at c (s.cyc + 4800) pEnd (.run (argFocus c id) .remoteTimeout)
    let s := if targets = [] then s.at c s.cyc pNet (.run (argFocus c id) (.visibilityEvent 0)) else s
    if kd.command then
      let s := s.at c (s.cyc + 1) pNet (.run (argFocus c id) .localReuseEvent)
      s.send o
    else if reads ∧ !lost then
      let s := s.modCur fun x => { x with srcFree := s.cyc + k }
      if k = 0 then (s.at c s.cyc pNet (.run (argFocus c id) .localReuseEvent)).send o
      else s.later s.cyc pRead (.source id 0)
    else s.send o

/-- Whether a core is still in an exchange phase, and at a task, in which an operation of it started (R91, R192). -/
def State.inPhase (s : State) (c phase task : Nat) : Bool :=
  s.exchange c && (s.countOf c).toNat == phase && (s.core c).task == task && (s.core c).life == .task

/-- A cycle of the source reader (R283): 256 bytes; an uncorrectable word rejects the operation with code 12 (R391, R413). Once the
phase is over, its task having ended (R362), the port reads nothing and the operation sends nothing (R192; log entry 84). -/
def State.source (s : State) (c id k : Nat) : State :=
  match s.op? id with
  | none => s
  | some o => if !s.inPhase o.core o.phase o.task then s.dropOp id else
    let total := o.n * (if o.type = 2 then 2 else 4)
    let (res, s) := s.readBy .n o.start c true 4 15 (s.core c).lastAddr
      ((List.range (min 256 (total - 256 * k))).map (o.loc + 256 * k + ·))
    match res with
    | none =>
      let t := o.target.headD 0
      ((s.werr c 12 o.entry (t / 256) (t % 256) o.tag.toNat o.rank).modOp id fun o => { o with left := 1, heard := o.target }).report o t 12 s.cyc
    | some bs =>
      let s := s.modOp id fun o => { o with data := o.data ++ bs }
      if 256 * (k + 1) < total then s.at c (s.cyc + 1) pRead (.source id (k + 1))
      else
        let s := s.at c (s.cyc + 1) pNet (.run (argFocus c id) .localReuseEvent)
        match s.op? id with | some o => s.send o | none => s

/-! ### Receipt at the target (R268, R270-R275, R287-R289) -/

/-- Whether an earlier operation of the same origin with the same tag is still on its way to the window (R288). -/
def State.behind (s : State) (c : Nat) (o : RemoteOp) : Bool :=
  s.ops.any fun x => x.id < o.id && x.rank == o.rank && x.tag == o.tag && !x.kind.command && x.entry == o.entry
    && (x.target.map (· % 256)).contains c && !x.got.contains c && !x.late && !x.heard.contains (s.rankOf c)

/-- The first check of R268 that fails; none for a request that waits or an accepted operation. A WCOMPL or WUNLOCK whose origin holds
no access has code 8 whatever its tag (R288, R289, R415; log entry 83). A WLOCK that finds its window free after the target's arrival has
code 1 (DEDUCED, log entry 122). -/
def State.portCheck (s : State) (c : Nat) (w : Window) (o : RemoteOp) : Option Nat :=
  let mode := w.mode
  let right := match o.kind with | .get => 3 | .put => 4 | .putMc => 4 | _ => 5
  if !w.valid ∨ ((o.kind = .wstart ∨ o.kind = .wcompl) ∧ mode ≠ 1) ∨ ((o.kind = .wlock ∨ o.kind = .wunlock) ∧ mode ≠ 2)
    then some 6
  else if o.part ≠ bits w.word0.toNat 40 3 ∨ o.dev < bits w.word0.toNat 44 10 ∨ bits w.word0.toNat 54 10 < o.dev then some 5
  else if !o.kind.command ∧ !w.word0.getLsbD right then some 4
  else if o.kind = .wstart then
    if w.grants.contains o.rank then some 8 else if w.state = 0 ∧ !s.exposing c then some 1 else none
  else if o.kind = .wlock then
    if w.grants.contains o.rank ∨ w.waiting.any (fun id => (s.op? id).elim false (·.rank == o.rank)) then some 8
    else if !s.exposing c then some 1 else none
  else if w.state = 0 then some 1
  else if o.kind.command ∧ !w.grants.contains o.rank then some 8
  else if o.tag ≠ w.tag ∨ ((mode = 1 ∨ mode = 2) ∧ !w.grants.contains o.rank) then some 1
  else if o.kind.command then none
  else if w.size - 1 < o.off then some 2
  else if w.size < o.off + 4 * o.n then some 3
  else if o.kind ≠ .get ∧ 262144 < (s.core c).stagedBytes + 4 * o.n then some 7
  else none

/-- An accepted operation counts on a fence or timed window (R270). -/
def Window.counted (w : Window) : Window :=
  if w.mode = 0 ∨ w.mode = 3 then { w with count := if w.count = 0 then 0 else w.count - 1 } else w

/-- An accepted PUT or RACC is staged (R272). -/
def Window.stage (w : Window) (o : RemoteOp) : Window :=
  { w with staged := w.staged ++ [⟨if o.kind = .racc then .racc else .put, o.rank, o.id, o.start, o.off, o.op, o.type, o.data⟩] }

/-- The operations whose effects bytes show that a core's SPM gives (R300). -/
def Core.shows (k : Core) (bs : List (Nat × Byte)) : List (Nat × Nat) :=
  (k.loose.filter fun x => bs.contains (x.addr, x.value)).flatMap (·.origins)

/-- A GET is served as of the opening (R272, R297, R414); an uncorrectable word rejects it with code 12 (R413). -/
def State.serveGet (s : State) (c : Nat) (e : Fin 32) (o : RemoteOp) : State :=
  let w := (s.core c).win[e]
  let as := (List.range (4 * o.n)).map (w.base + o.off + ·)
  let (res, s) := s.readRaw c true 4 15 (s.core c).lastAddr as
  match res with
  | none => s.reject c o 12
  | some _ =>
    let free := s.freeCtr
    let s := { s with freeCtr := free + pickSpan }
    let bs := as.map (w.getByte (s.core c).spm free o.start)
    let s := s.modWin c e (·.counted)
    if o.dev = s.device.toNat then
      let s := s.modOp o.id fun o => { o with saw := (s.core c).shows (as.zip bs) }
      let (d, s) := s.delivery
      s.at o.core (s.cyc + d) pNet (.getLand o.id (addressed o.loc bs))
    else s.dropOp o.id

/-- An accepted operation (R270-R272, R287-R289). -/
def State.accept (s : State) (c : Nat) (e : Fin 32) (o : RemoteOp) : State :=
  let s := if o.kind = .wstart ∨ o.kind = .wlock then s else s.modWin c e fun w => { w with origins := (o.rank, o.id) :: w.origins }
  let w := (s.core c).win[e]
  match o.kind with
  | .get => s.serveGet c e o
  | .put | .putMc | .racc => (s.modWin c e fun w => (w.stage o).counted).answer c o 0
  | .wstart => if w.state = 0 then s.modWin c e fun w => { w with waiting := w.waiting ++ [o.id] } else s.grantTo c e o
  | .wlock => (s.modWin c e fun w => { w with waiting := w.waiting ++ [o.id] }).grantLocks c e 64
  | .wcompl =>
    let s := s.modWin c e fun w =>
      { w with grants := w.grants.filter (· != o.rank), count := if w.count = 0 then 0 else w.count - 1 }
    let s := if (s.core c).win[e].wwait && (s.core c).win[e].count == 0 then s.closeWindow c e else s
    s.answer c o 0
  | .wunlock =>
    let s := s.modWin c e fun w => { w with grants := w.grants.filter (· != o.rank), holders := w.holders - 1 }
    let w := (s.core c).win[e]
    if w.state = 3 ∨ w.holders = 0 then (s.modWin c e fun w => { w with unlock := some o.id }).closeWindow c e
    else (s.grantLocks c e 64).answer c o 0

/-- R268: the checks in order; an operation that took code 11 has its whole effect or none (R425). One that meets an uncorrectable entry is
answered with code 6 and leaves WERR as it is (DEDUCED, log entry 34). -/
def execRemoteOperationReceipt (s : State) : Result :=
  let c := s.focus.core.val
  match s.op? s.focus.arg with
  | none => .next s
  | some o =>
    let s := s.packet o.dev
    let e : Fin 32 := ⟨o.entry % 32, Nat.mod_lt _ (by decide)⟩
    if (o.kind = .wcompl ∨ o.kind = .wunlock) ∧ s.behind c o then
      .next (s.at c (s.cyc + 1) pNet (.run s.focus .remoteOperationReceipt))
    else
      let s := s.modOp o.id fun x => { x with got := c :: x.got }
      let (n, s) := s.fresh
      if o.late ∧ !Config.lateEffect n then .next s
      else
        let w := (s.core c).win[e]
        if s.badWin c e then .next ((s.winErr c e).answer c o 6)
        else
          let s := s.fixes c .window [e.val]
          match s.portCheck c w o with
          | some code => .next (s.reject c o code)
          | none => .next (s.accept c e o)

/-! ### Events at the origin (R277, R425) -/

/-- An operation is forgotten when it has nothing left to do. -/
def State.sweepOp (s : State) (id : Nat) : State :=
  match s.op? id with
  | some o => if o.nrDone ∧ o.nvDone ∧ o.left = 0 then s.dropOp id else s
  | none => s

/-- R277: nr falls, and is readable so in this cycle (R283). -/
def execLocalReuseEvent (s : State) : Result :=
  .next (match s.op? s.focus.arg with
    | none => s
    | some o =>
      if o.nrDone then s
      else
        let s := match o.handle with
          | some h => s.modHandle o.core h fun x => x.event none true false 0
          | none => s
        (s.modOp o.id fun o => { o with nrDone := true }).sweepOp o.id)

/-- Both events of an operation, as far as they are outstanding, are delivered now and readable from the next cycle
(R277, R291). -/
def State.deliver (s : State) (o : RemoteOp) (code : BitVec 4) : State :=
  let all := code ≠ 0 ∨ o.kind = .get
  let tag := if (o.kind = .wstart ∨ o.kind = .wlock) ∧ code = 0 then some o.tag else none
  let s := match o.handle with
    | some h => s.at o.core (s.cyc + 1) pNet (.setHandle h tag (all && !o.nrDone) true code)
    | none => s
  (s.completes o.core o.id o.handle).modOp o.id fun o => { o with nvDone := true, nrDone := o.nrDone || all }

/-- A rejection delivers both outstanding events of its operation; one that follows another, of a second member of a PUT.MC, finds none
outstanding and records its code alone (R277, R413). -/
def State.rejected (s : State) (o : RemoteOp) (code : BitVec 4) : State :=
  if !o.nvDone then s.deliver o code
  else match o.handle with
    | some h => s.at o.core (s.cyc + 1) pNet (.setHandle h none false false code)
    | none => s

/-- R277, R281, R413: the event of one target: a rejection is delivered at once, and the operation's own event when every target has
answered. -/
def execVisibilityEvent (code : BitVec 4) (s : State) : Result :=
  .next (match s.op? s.focus.arg with
    | none => s
    | some o =>
      let o' := { o with left := o.left - 1, heard := s.focus.lits.map (·.toNat) ++ o.heard }
      let s := s.modOp o.id fun _ => o'
      let s := if code ≠ 0 then s.rejected o' code else if o'.nvDone ∨ o'.left ≠ 0 then s else s.deliver o' 0
      s.sweepOp o.id)

/-- R425: code 11 for what is outstanding 4,800 cycles after the start, for each member of a PUT.MC. -/
def execRemoteTimeout (s : State) : Result :=
  .next (match s.op? s.focus.arg with
    | none => s
    | some o =>
      let out := o.target.filter fun t => !o.heard.contains t
      if o.nvDone && out.isEmpty then s
      else
        let s := out.foldl (fun s t => s.werr o.core 11 o.entry (t / 256) (t % 256) o.tag.toNat o.rank) s
        ((s.rejected o 11).modOp o.id fun o => { o with late := true }).sweepOp o.id)

/-- The bytes of a GET land (R281, R294): by the untimed path, whole (log entry 6), and in the phase and for the task of their GET
alone (R91, R192). -/
def State.getLand (s : State) (c id : Nat) (bs : List (Nat × Byte)) : State :=
  match s.op? id with
  | none => s
  | some o =>
    let (n, s) := s.fresh
    let s := if bs = [] ∨ (o.late ∧ !Config.lateEffect n) ∨ !s.inPhase o.core o.phase o.task then s
      else s.landUntimed c .n (some id) o.handle none ((o.rank, o.id) :: o.saw) (if o.late then some (s.cyc + 1) else none) bs
    let (d, s) := s.delivery
    s.report o (o.target.headD 0) 0 (s.cyc + d)

end Sys2Proof.Machine
end

