-- ==== Sys2Proof/Machine/Coll.lean ====
section
/-! DEFINITION. Collectives (R324-R332, R412, R426, R427): COLL, the matching of the members' calls, the reads, the reduction in
its fixed order, and completion, failure and time-out. -/

namespace Sys2Proof.Machine

open Sys2Proof

/-! ### The parameter block (R327, R412) -/

/-- A field of a parameter block (R327). -/
def cpb (b : BitVec 1024) (lo n : Nat) : Nat := b.toNat / 2 ^ lo % 2 ^ n

/-- Bytes of an element of a type (R327). -/
def collBytes (t : Nat) : Nat := if t = 0 then 4 else 2

/-- The group of an identifier (R324). -/
def State.group (s : State) (id : Nat) : Option Group := (s.groups.find? (·.1 == id)).map (·.2)

/-- Elements that an operation reads at a member and writes there (R327), with Q members. -/
def collSizes (op count q : Nat) : Nat × Nat :=
  match op with
  | 0 => (count, count)
  | 1 => (count, count / q)
  | 2 => (count, q * count)
  | 3 => (count, count)
  | _ => (q * count, q * count)

/-- The position of a core of this device in a group (R324). -/
def State.position (s : State) (g : Group) (c : Nat) : Nat := (g.members.takeWhile (· != s.rankOf c)).length

/-- Whether a range of a window's bytes leaves it or lacks a right (R412). -/
def Window.lacks (w : Window) (right off n : Nat) : Bool := !w.valid || !w.word0.getLsbD right || w.size < off + n

/-- A malformed parameter block (R412). A member of a broadcast that is not the root has no source range (log entry 24). -/
def State.malformedCall (s : State) (c : Nat) (b : BitVec 1024) : Bool :=
  let op := cpb b 0 4
  let g := s.group (cpb b 16 16)
  let q := g.elim 0 (·.members.length)
  let count := cpb b 128 32
  let (src, dst) := collSizes op count q
  let k := s.core c
  let sw := k.win[(⟨cpb b 86 5, Nat.mod_lt _ (by decide)⟩ : Fin 32)]
  let dw := k.win[(⟨cpb b 118 5, Nat.mod_lt _ (by decide)⟩ : Fin 32)]
  let isRoot := g.elim false fun g => s.position g c == cpb b 176 16
  cpb b 12 4 != 0 || cpb b 91 5 != 0 || cpb b 123 5 != 0 || cpb b 192 832 != 0
    || 4 < op || cpb b 4 2 == 3 || cpb b 6 2 == 3 || cpb b 8 2 == 3 || cpb b 10 2 == 3
    || count == 0 || 1048576 < count || (op == 1 && count % q != 0) || (2 ≤ cpb b 48 16 && 2 ≤ op)
    || sw.lacks 3 (cpb b 64 22) (if op = 3 && !isRoot then 0 else src * collBytes (cpb b 8 2))
    || dw.lacks 4 (cpb b 96 22) (dst * collBytes (cpb b 10 2))

/-! ### COLL (R325, R326) -/

/-- R325, R326, R410, R411: it enters the collective queue and counts on its handle. -/
def execColl (g : Guard) (o : BitVec 12) (a : Fin 32) (h : Fin 16) (s : State) : Result :=
  s.slot g fun s => s.exchangeOnly fun s => s.onceOnly (fun _ s => s) fun s =>
    let sa := s.cur.readS a
    let hd := s.cur.handles[h]
    match s.queueFault .coll o with
    | some (cls, info) => s.trap cls info
    | none =>
      if hd.nr = 255 ∨ hd.nv = 255 then s.trap 0x14 4
      else if sa.toNat % 64 ≠ 0 ∨ 0x40000 < sa.toNat + 128 then s.trap 0x14 10
      else (s.joinQueue .coll (.coll g o a h) o sa 0 0).later (s.cyc + 1) pNet (.countHandle h)

/-- The members of a group on this device (R324). -/
def State.localMembers (s : State) (g : Group) : List Nat :=
  (g.members.filter fun m => m / 256 == s.device.toNat).map (· % 256)

/-- Change a call. -/
def State.modCall (s : State) (id : Nat) (f : Call → Call) : State :=
  { s with calls := s.calls.map fun (x : Call) => if x.id = id then f x else x }

/-- A call whose member cores have all issued it, and whose number has come (R326, R331). -/
def State.callReady (s : State) (x : Call) : Bool :=
  match s.group x.group with
  | some g => x.stage == 0 && x.seq == g.seq && s.localMembers g != [] &&
      (s.localMembers g).all fun c => x.members.any (·.core == c)
  | none => false

/-- The calls of a group that may start do (R331). -/
def State.wakeCalls (s : State) : State :=
  s.calls.foldl (fun s x => if s.callReady x then
    let ev := Ev.run (argFocus 0 x.id) .collectiveSequenceStart
    if s.agenda.any fun it => it.ev == ev then s else s.at 0 (s.cyc + 1) pNet ev
  else s) s

/-- COLL begins (R326): the system port reads the block, and the lantern takes the member's part in its call. -/
def State.startColl (s : State) (cmd : Cmd) (h : Fin 16) : State :=
  let c := s.focus.core.val
  let (res, s) := s.readBytes c false 0 15 s.cur.lastAddr ((List.range 128).map (cmd.a.toNat + ·))
  match res with
  | none => s
  | some bs =>
    let b := BitVec.ofNat 1024 (ofLe bs)
    s.withWin c ⟨cpb b 86 5, Nat.mod_lt _ (by decide)⟩ fun s => s.withWin c ⟨cpb b 118 5, Nat.mod_lt _ (by decide)⟩ fun s =>
    if s.malformedCall c b then s.raiseOn c (Err.plain 0x14 11 8 cmd.addr)
    else
      let group := cpb b 16 16
      let seq := BitVec.ofNat 16 (cpb b 32 16)
      let m : CollMember := ⟨c, some h, b, s.cyc, (s.countOf c).toNat, s.cur.task, s.nextId⟩
      let s := { s with nextId := s.nextId + 1 }.acted c cmd.issued 0
      let (id, s) := match s.calls.find? fun x => x.group == group && x.seq == seq && x.stage == 0 && !(x.members.any (·.core == c)) with
        | some x => (x.id, s.modCall x.id fun x => { x with members := x.members ++ [m] })
        | none => (s.nextId, ({ s with nextId := s.nextId + 1, calls := s.calls ++ [(⟨s.nextId, group, seq, [m], 0, [], []⟩ : Call)] } : State))
      (s.at 0 (s.cyc + 2 ^ 20) pEnd (.run (argFocus 0 id) .collectiveTimeout)).wakeCalls

/-! ### Arithmetic and order (R328, R329, R332) -/

/-- A source element in FP32 (R328). -/
def collIn (t x : Nat) : Nat :=
  if t = 0 then x else if t = 1 then (fmtF32.round 0 0 (fmtF16.decode x)).1 else fmtBF16.flushed x * 2 ^ 16

/-- A result in the destination's type (R328). -/
def collOut (t x : Nat) : Nat :=
  ((if t = 0 then fmtF32 else if t = 1 then fmtF16 else fmtBF16).round 0 0 (fmtF32.decode x)).1

/-- The combination of two values (R328). -/
def comb (red x y : Nat) : Nat := if red = 0 then (fmtF32.add x y).1 else fmtF32.minmax (red == 1) x y

/-- The ring order over P devices (R329): from position j + 1 around to j. -/
def ringSum (red p j : Nat) (l : Nat → Nat) : Nat :=
  (List.range (p - 1)).foldl (fun x i => comb red x (l ((j + 2 + i) % p))) (l ((j + 1) % p))

/-- The tree's levels from 2^i on (R329). -/
def treeSum (red p : Nat) : Nat → Nat → (Nat → Nat) → Nat
  | 0, _, l => l 0
  | n + 1, d, l =>
    if p ≤ d then l 0
    else treeSum red p n (2 * d) fun q => if q % (2 * d) = 0 ∧ q + d < p then comb red (l q) (l (q + d)) else l q

/-- The halving-doubling levels (R329). -/
def halvingSum (red : Nat) : Nat → Nat → (Nat → Nat) → Nat
  | 0, _, l => l 0
  | n + 1, d, l =>
    if d = 0 then l 0 else halvingSum red n (d / 2) fun q => if q % (2 * d) < d then comb red (l q) (l (q + d)) else l q

/-- S of an element (R329): P device positions, the algorithm, the element's number and the vector's length. -/
def collSum (alg red p e count : Nat) (l : Nat → Nat) : Nat :=
  if p ≤ 1 then l 0
  else if alg = 0 then ringSum red p (e * p / count) l
  else if alg = 1 ∨ 2 ^ Nat.log2 p ≠ p then treeSum red p p 1 l
  else halvingSum red p (p / 2) l

/-- Lists combined element by element; where the first list gives no value, the second's stands. -/
def combAll (red : Nat) (a b : List W32) : List W32 :=
  List.zipWith (fun x y => BitVec.ofNat 32 (comb red x.toNat y.toNat)) a b ++ b.drop a.length

/-! ### The accumulator of a thinned group (R332) -/

/-- The places in the chunk store that the accumulators of other groups hold: first byte and elements. -/
def State.accumulators (s : State) (group : Nat) : List (Nat × Nat) := (s.groups.filter (·.1 != group)).filterMap (·.2.acc)

/-- Whether n elements at a byte of the chunk store lie within it, and apart from some places. -/
def accFits (taken : List (Nat × Nat)) (n a : Nat) : Bool :=
  a + 4 * n ≤ 2 ^ 28 && taken.all fun x => a + 4 * n ≤ x.1 || x.1 + 4 * x.2 ≤ a

/-- Where an accumulator of n elements stands: where it does, at a free place, or behind another, in whole 8-byte words and apart from
the others; none where the chunk store has no room (log entry 15). -/
def State.accPlace (s : State) (group : Nat) (acc : Option (Nat × Nat)) (n : Nat) : Option Nat :=
  let taken := s.accumulators group
  let here : List Nat := match acc with | some x => [x.1] | none => []
  (here ++ [8 * (Config.accumulatorAt group % 2 ^ 25), 0] ++ taken.map fun (a, m) => (a + 4 * m + 7) / 8 * 8).find? (accFits taken n)

/-- The accumulator's first n elements, as far as it has them: an emptied one gives no value, and one with an uncorrectable word cannot be
read (R366, R426). -/
def State.readAcc (s : State) (g : Group) (n : Nat) : Option (List W32) :=
  match g.acc with
  | none => some []
  | some (a, m) =>
    let n := min n m
    if s.marks.any fun w => w.store == .chunk && w.hard && a / 8 ≤ w.unit && 8 * w.unit < a + 4 * n then none
    else some ((List.range n).map fun i => BitVec.ofNat 32 (s.chunk.le (a + 4 * i) 4))

/-- The accumulator takes elements; whole words are written anew (R366). Its place and elements afterwards, where it has room. -/
def State.writeAccumulator (s : State) (group : Nat) (g : Group) (xs : List W32) : Option ((Nat × Nat) × State) :=
  let n := max xs.length (g.acc.elim 0 (·.2))
  (s.accPlace group g.acc n).map fun a => ((a, n), { s with
    chunk := s.chunk.storeAll (addressed a ((xs.map fun x => leBytes 4 x.toNat).flatten))
    marks := s.marks.filter fun m => !(m.store == .chunk && a ≤ 8 * m.unit && 8 * m.unit + 8 ≤ a + 4 * xs.length) })

/-! ### Progress of a call -/

/-- Whether the core of a member is still in the exchange phase, and at the task, in which its part began: nothing of a call reaches SPM
past them (R91, R192, R326; log entry 84). -/
def State.memberHere (s : State) (m : CollMember) : Bool := s.inPhase m.core m.phase m.task

/-- The entry of a member's source or destination window (R327). -/
def CollMember.entry (m : CollMember) (lo : Nat) : Fin 32 := ⟨cpb m.pb lo 5, Nat.mod_lt _ (by decide)⟩

/-- The block of a call's members. -/
def Call.block (x : Call) : BitVec 1024 := match x.members with | m :: _ => m.pb | [] => 0

/-- What the members of a call must agree on (R327, R426): op, red, alg, stype, dtype, thin and count, with group and seq. -/
def callKey (b : BitVec 1024) : Nat × Nat × Nat := (cpb b 0 12, cpb b 16 48, cpb b 128 32)

/-- Change a group. -/
def State.modGroup (s : State) (id : Nat) (f : Group → Group) : State :=
  { s with groups := s.groups.map fun (x : Nat × Group) => if x.1 = id then (x.1, f x.2) else x }

/-- Events of a call reach a member's handle, unless the member's task is over (R91). -/
def State.memberEvent (s : State) (m : CollMember) (reuse vis : Bool) (code : BitVec 4) : State :=
  match m.handle with
  | some h => if (s.core m.core).task = m.task then s.at m.core (s.cyc + 1) pNet (.setHandle h none reuse vis code) else s
  | none => s

/-- The visibility event of every member of a call, and the local-reuse event as well where it is still due (R326, R427). -/
def State.callEvents (s : State) (x : Call) (code : BitVec 4) (reuse : Bool) : State :=
  x.members.foldl (fun (s : State) m => (s.completes m.core x.id m.handle).memberEvent m reuse true code) s

/-- Whether a core of this device is a member of a group (R324). -/
def State.inGroup (s : State) (g : Group) (c : Nat) : Bool := g.members.contains (s.rankOf c)

/-- Whether a call has a member of its group (R329). -/
def State.hasMember (s : State) (x : Call) : Bool := (s.group x.group).elim false fun g => x.members.any fun m => s.inGroup g m.core

/-- The sequence counter of a group after a call of a number (R331): one more when the call completes. A call that fails leaves behind it the
number of the call, and where it is behind the counter, the counter (R427; log entry 90). -/
def Group.advance (g : Group) (seq : BitVec 16) (failed : Bool) : BitVec 16 :=
  if !failed then g.seq + 1 else if (seq - g.seq).toNat < 2 ^ 15 then seq + 1 else g.seq

/-- A call of a group is over (R331, R427): the counter advances, and the next call may start. One of cores outside the group leaves the
group as it is (log entry 109). -/
def State.endCall (s : State) (x : Call) (acc : Option (Nat × Nat)) (failed : Bool) : State :=
  let calls := s.calls.filter fun (y : Call) => y.id != x.id
  if s.hasMember x then
    ({ s.modGroup x.group fun g => { g with seq := g.advance x.seq failed, calls := g.calls + 1, acc := acc } with
        calls := calls } : State).wakeCalls
  else ({ s with calls := calls } : State).wakeCalls

/-- Whether a call sends data between devices and writes its destinations, and the number of its call in its round (R332). -/
def Call.communicates (x : Call) (g : Group) : Bool :=
  let thin := cpb x.block 48 16
  !(2 ≤ thin && g.calls % thin != thin - 1)

/-- The cells that a member's destination takes from FP32 results (R327, R328). -/
def State.destCells (s : State) (m : CollMember) (xs : List Nat) : List (Nat × Byte) :=
  let n := collBytes (cpb m.pb 10 2)
  let w := (s.core m.core).win[m.entry 118]
  addressed (w.base + cpb m.pb 96 22) ((xs.map fun x => leBytes n (collOut (cpb m.pb 10 2) x)).flatten)

/-- The results of a call in FP32 for a member (R327, R329); what other devices contribute is free (log entry 15). -/
def State.callResult (s : State) (x : Call) (g : Group) (free : Nat) (m : CollMember) : List Nat :=
  let b := m.pb
  let op := cpb b 0 4
  let count := cpb b 128 32
  let q := g.members.length
  let devs := (g.members.map (· / 256)).dedup
  let p := devs.length
  let pos := (devs.takeWhile (· != s.device.toNat)).length
  let sums := x.sums.toArray
  let l := fun (e d : Nat) => if d = pos then ((sums.getD e 0).toNat) else (Config.deviceSum (free + 1048576 * d + e)).toNat
  let red := fun (e : Nat) => collSum (cpb b 6 2) (cpb b 4 2) p e count (l e)
  let mine := s.position g m.core
  let member := fun (r i : Nat) =>
    match (x.members.zip x.blocks).find? fun y => s.position g y.1.core == r with
    | some y => (y.2.getD i 0).toNat
    | none => (Config.deviceSum (free + 4194304 * (r + 1) + i)).toNat
  match op with
  | 0 => (List.range count).map red
  | 1 => (List.range (count / q)).map fun i => red (mine * (count / q) + i)
  | 2 => ((List.range q).map fun r => (List.range count).map (member r)).flatten
  | 3 => (List.range count).map (member (cpb b 176 16))
  | _ => ((List.range q).map fun r => (List.range count).map fun i => member r (mine * count + i)).flatten

/-- A call with what its group's accumulator adds to it (R332); none if that cannot be read. -/
def State.thinned (s : State) (x : Call) (g : Group) : Option Call :=
  if cpb x.block 48 16 < 2 then some x
  else (s.readAcc g x.sums.length).map fun a => { x with sums := combAll (cpb x.block 4 2) a x.sums }

/-- The destinations of the members that are still there take the results of a call (R326), or of a failed one either each element's prior
value or its new one (R427): the effect of every member's COLL (R300). -/
def State.writeResults (s : State) (x : Call) (g : Group) (failed : Bool) : State :=
  let free := s.freeCtr
  let s := { s with freeCtr := free + 2 ^ 40 }
  x.members.foldl (fun (s : State) m =>
    let n := collBytes (cpb m.pb 10 2)
    let cells := s.destCells m (s.callResult x g free m)
    let kept := if failed then (cells.zipIdx.filter fun a => Config.unorderedByte (free + a.2 / n)).map (·.1) else cells
    if !s.memberHere m then s
    else s.withWin m.core (m.entry 118) fun s => s.landUntimed m.core .c (some x.id) m.handle none
      (x.members.map fun m => (s.rankOf m.core, m.serial)) none kept) s

/-- A call fails (R426, R427): one event of class 0x17, code 14 to every member, and each destination element of a communicating call
that had reached stage 2 holds either its old or its new value. -/
def State.failCall (s : State) (x : Call) : State :=
  let s := match s.group x.group with
    | some g => if x.stage = 2 ∧ x.communicates g then
        match s.thinned x g with | some y => s.writeResults y g true | none => s
      else s
    | none => s
  let s := x.members.foldl (fun (s : State) m =>
    s.werr m.core 14 (cpb m.pb 118 5) s.device.toNat m.core 0 (s.rankOf m.core)) s
  let s := match x.members with | m :: _ => s.postEvent (s.core m.core).part.val m.core 0x17 .n | [] => s
  (s.callEvents x 14 (x.stage != 2)).endCall x none true

/-- The parts that cores outside the group have taken in a call are set apart from those of the member cores, which alone enter L(p) (R329):
they wait in a call of their own, which fails at its time-out (DESIGN CHOICE, log entry 109). -/
def State.setApart (s : State) (x : Call) : State :=
  let isIn := fun (m : CollMember) => (s.group x.group).elim false fun g => s.inGroup g m.core
  let out := x.members.filter fun m => !isIn m
  if out = [] then s
  else
    let t := s.modCall x.id fun x => { x with members := x.members.filter isIn }
    out.foldl (fun (s : State) m => s.at 0 (m.start + 2 ^ 20) pEnd (.run (argFocus 0 t.nextId) .collectiveTimeout))
      { t with nextId := t.nextId + 1, calls := t.calls ++ [{ x with id := t.nextId, members := out }] }

/-- Stage 1 of a call begins, unless its blocks are unequal (R331, R426): the sources are read. -/
def State.beginCall (s : State) (x : Call) : State :=
  if x.members.any fun m => callKey m.pb != callKey x.block then s.failCall x
  else
    let (n, s) := s.fresh
    (s.modCall x.id fun x => { x with stage := 1 }).at 0 (s.cyc + 1 + Config.collectiveCycles n) pRead (.collRead x.id)

/-- R329, R331, R426: the call of the member cores begins. -/
def execCollectiveSequenceStart (s : State) : Result :=
  .next (match s.calls.find? (·.id == s.focus.arg) with
    | none => s
    | some x =>
      if !s.callReady x then s
      else
        let s := s.setApart x
        match s.calls.find? (·.id == x.id) with
        | some x => s.beginCall x
        | none => s)

/-- The source of one member (R326-R328), with its type's elements in FP32: none for a member that has left its phase (R192), an
uncorrectable window entry (R393), or an uncorrectable word (R391). -/
def State.collSource (s : State) (g : Group) (m : CollMember) : Option (List W32) × State :=
  let op := cpb m.pb 0 4
  let t := cpb m.pb 8 2
  let n := if op = 3 ∧ s.position g m.core ≠ cpb m.pb 176 16 then 0 else (collSizes op (cpb m.pb 128 32) g.members.length).1
  if !s.memberHere m then (none, s)
  else if s.badWin m.core (m.entry 86) then (none, s.winErr m.core (m.entry 86))
  else
    let s := s.fixes m.core .window [(m.entry 86).val]
    let at0 := (s.core m.core).win[m.entry 86].base + cpb m.pb 64 22
    let (res, s) := s.readBy .c m.start m.core true 5 15 (s.core m.core).lastAddr ((List.range (n * collBytes t)).map (at0 + ·))
    (res.map fun by8 =>
      let arr := by8.toArray
      let el := fun i => ofLe ((List.range (collBytes t)).map fun j => arr.getD (i * collBytes t + j) 0)
      (List.range n).map fun i => BitVec.ofNat 32 (collIn t (el i)), s)

/-- The sources are read (R326-R329): one that cannot be read fails the call; the local-reuse events are delivered, and stage 1 is
formed in ascending core number. -/
def State.collRead (s : State) (id : Nat) : State :=
  match s.calls.find? (·.id == id) with
  | none => s
  | some x =>
    match s.group x.group with
    | none => s.failCall x
    | some g =>
      let ms := sortBy (·.core) x.members
      let (blocks, ok, s) := ms.foldl (fun (bs, ok, (s : State)) (m : CollMember) =>
        let (res, s) := s.collSource g m
        (bs ++ [res.getD []], ok && res.isSome, s)) (([] : List (List W32)), true, s)
      if !ok then s.failCall x
      else
        let b := x.block
        let sums := if cpb b 0 4 ≤ 1 then blocks.foldl (combAll (cpb b 4 2)) [] else []
        let s := ms.foldl (fun (s : State) (m : CollMember) => s.memberEvent m true false 0) s
        let (n, s) := s.fresh
        let far := if x.communicates g && g.members.any (fun r => !s.isSelf (r / 256)) then 120 else 0
        (s.modCall id fun x => { x with stage := 2, members := ms, sums := sums, blocks := blocks }).at 0
          (s.cyc + 1 + far + Config.collectiveCycles n) pNet (.run (argFocus 0 id) .collectiveCompletion)

/-- R329, R332, R426: a thinned call adds to the accumulator, or takes it up; a communicating call with an unreachable member
device, or with members on other devices whose blocks are unequal, fails, and so does one that meets an uncorrectable word of the
accumulator, or finds no room for it in the chunk store (log entry 15); else the destinations are written and the visibility events delivered. -/
def execCollectiveCompletion (s : State) : Result :=
  .next (match s.calls.find? (·.id == s.focus.arg) with
    | none => s
    | some x =>
      match s.group x.group with
      | none => s.failCall x
      | some g =>
        let thin := cpb x.block 48 16
        let first := 2 ≤ thin ∧ g.calls % thin = 0
        let g := if first then { g with acc := none } else g
        match s.thinned x g with
        | none => s.failCall x
        | some y =>
          if !x.communicates g then
            match s.writeAccumulator x.group g y.sums with
            | some (acc, s) => (s.callEvents x 0 false).endCall x (some acc) false
            | none => s.failCall x
          else
            let (n, s) := s.fresh
            let others := g.members.any fun r => !s.isSelf (r / 256)
            if (g.members.any fun r => s.unreachable (r / 256)) || (others && !Config.peersAgree n) then s.failCall x
            else ((s.writeResults y g false).callEvents x 0 false).endCall x (if thin < 2 then g.acc else none) false)

/-- R426: a call that has not completed 2^20 cycles after a member's start fails. -/
def execCollectiveTimeout (s : State) : Result :=
  .next (match s.calls.find? (·.id == s.focus.arg) with
    | none => s
    | some x => if x.members.any (·.start + 2 ^ 20 ≤ s.cyc) then s.failCall x else s)

end Sys2Proof.Machine
end

