-- ==== Sys2Proof/Machine/Chain.lean ====
section
/-! DEFINITION. The chain sequencer, the channel with its timing rules, the idle chain and the translation table (R239-R263,
R400-R409). -/

namespace Sys2Proof.Machine

open Sys2Proof

/-! ### The channel -/

/-- The channel of the focused core. -/
def State.ch (s : State) : Channel := s.cur.ch

/-- Change the channel of the focused core. -/
def State.modCh (s : State) (f : Channel → Channel) : State := s.modCur fun k => { k with ch := f k.ch }

/-- Change the running chain. -/
def State.modRun (s : State) (f : ChainRun → ChainRun) : State := s.modCh fun h => { h with run := h.run.map f }

/-- A bank. -/
def Channel.bank (h : Channel) (ba : Nat) : Bank := Sp.get Bank.reset h.banks ba

/-- Change a bank. -/
def Channel.modBank (h : Channel) (ba : Nat) (f : Bank → Bank) : Channel :=
  { h with banks := Sp.set Bank.reset h.banks ba (f (h.bank ba)) }

/-- A pseudo-channel. -/
def Channel.pseudo (h : Channel) (p : Fin 2) : Pseudo := h.pc[p]

/-- Change a pseudo-channel. -/
def Channel.modPc (h : Channel) (p : Fin 2) (f : Pseudo → Pseudo) : Channel := { h with pc := h.pc.set p (f h.pc[p]) }

/-- The pseudo-channel of a bank address (R239). -/
def pcOf (ba : Nat) : Fin 2 := ⟨ba % 2, Nat.mod_lt _ (by decide)⟩

/-- The banks of a pseudo-channel with history (R239). -/
def Channel.banksOf (h : Channel) (p : Fin 2) : List (Nat × Bank) := h.banks.filter fun b => b.1 % 2 == p.val

/-- Whether a bank of the pseudo-channel is open. -/
def Channel.anyOpen (h : Channel) (p : Fin 2) : Bool := (h.banksOf p).any fun b => b.2.row.isSome

/-- Timing values in force (R253). -/
def Channel.t0 (h : Channel) (lo : Nat) : Nat := bits h.tim[0].toNat lo 8
/-- See Channel.t0. -/
def Channel.t1 (h : Channel) (lo n : Nat) : Nat := bits h.tim[1].toNat lo n
/-- Read latency. -/
def Channel.rl (h : Channel) : Nat := h.t0 0
/-- Write latency. -/
def Channel.wl (h : Channel) : Nat := h.t0 8
/-- tRFC. -/
def Channel.trfc (h : Channel) : Nat := h.t1 32 12
/-- tREFI. -/
def Channel.trefi (h : Channel) : Nat := h.t1 48 16
/-- tMNT. -/
def Channel.tmnt (h : Channel) : Nat := bits h.tim[2].toNat 0 16
/-- tMNTI. -/
def Channel.tmnti (h : Channel) : Nat := bits h.tim[2].toNat 16 16

/-- A tick less than a distance after an earlier command. -/
def near (t d : Nat) : Option Nat → Bool
  | some e => t < e + d
  | none => false

/-! ### The timing rules (R252) -/

/-- The commands that the rules see. -/
inductive BusCmd where
  | act (ba : Nat)
  | rd (ba : Nat)
  | wr (ba : Nat)
  | pre (ba : Nat)
  | prea (p : Fin 2)
  | refab (p : Fin 2)
  | refpb (ba : Nat)
  | maint (p : Fin 2)
deriving DecidableEq, Repr

/-- The pseudo-channel of a command. -/
def BusCmd.pc : BusCmd → Fin 2
  | .act b | .rd b | .wr b | .pre b | .refpb b => pcOf b
  | .prea p | .refab p | .maint p => p

/-- Whether a command uses the column bus. -/
def BusCmd.column : BusCmd → Bool
  | .rd _ | .wr _ => true
  | _ => false

/-- Rule 2 (R252): the state of the banks. -/
def Channel.stateBad (h : Channel) : BusCmd → Bool
  | .act b | .refpb b => (h.bank b).row.isSome
  | .rd b | .wr b => (h.bank b).row.isNone
  | .refab p | .maint p => h.anyOpen p
  | _ => false

/-- Rule 4: tRFC. -/
def Channel.rfcBad (h : Channel) (t : Nat) (c : BusCmd) : Bool :=
  near t h.trfc (h.pseudo c.pc).refab || (match c with
    | .act b | .refpb b => near t h.trfc (h.bank b).ref
    | _ => false)

/-- Rule 5: tRP. -/
def Channel.rpBad (h : Channel) (t : Nat) : BusCmd → Bool
  | .act b | .refpb b => near t (h.t0 24) (h.bank b).pre || near t (h.t0 24) (h.pseudo (pcOf b)).prea
  | .refab p => near t (h.t0 24) (h.pseudo p).closed
  | _ => false

/-- The banks that a precharge closes. -/
def Channel.closing (h : Channel) : BusCmd → List Bank
  | .pre b => [h.bank b]
  | .prea p => ((h.banksOf p).map (·.2)).filter (·.row.isSome)
  | _ => []

/-- The codes of the rules that a command at tick t breaks, in the order of R400; ports are the SPM accesses it makes,
with their cycles. -/
def Channel.broken (h : Channel) (t : Nat) (c : BusCmd) (ports : List (Nat × Nat)) : List Nat :=
  let p := h.pseudo c.pc
  let isAct := match c with | .act _ => true | _ => false
  let ba := match c with | .act b | .rd b | .wr b | .pre b | .refpb b => b | _ => 0
  let closing := h.closing c
  let check : List (Nat × Bool) := [
    (1, near t 1 (if c.column then h.colBus else h.rowBus)),
    (2, h.stateBad c),
    (3, p.maint.any (t < ·)),
    (4, h.rfcBad t c),
    (5, h.rpBad t c),
    (6, c.column && near t (h.t0 16) (h.bank ba).act),
    (7, closing.any fun b => near t (h.t0 32) b.act),
    (8, isAct && (h.banksOf c.pc).any fun b => b.1 != ba && near t (h.t0 40) b.2.act),
    (9, c.column && near t (max 2 (h.t0 56)) p.rw),
    (10, closing.any fun b => near t (h.wl + 2 + h.t1 0 8) b.wrT),
    (11, (match c with | .rd _ => near t (h.wl + 2 + h.t1 8 8) p.wrT | _ => false)),
    (12, closing.any fun b => near t (h.t1 16 8) b.rdT),
    (13, ports.any fun x => h.ports.any fun y => x.1 == y.1 && bits x.2 6 5 == bits y.2 6 5 && bits x.2 11 11 != bits y.2 11 11),
    (14, isAct && near t (h.t0 48) (p.acts[3]?)),
    (15, (match c with | .refpb b => p.refpb.contains b | _ => false))]
  check.filterMap fun (n, b) => if b then some n else none

/-- What a command leaves in the channel's history (R252, R255, R256); of a MAINT, the tick at which its slot ends by the tMNT now in force
(log entry 110). -/
def Channel.issue (h : Channel) (t : Nat) (c : BusCmd) : Channel :=
  let h := if c.column then { h with colBus := some t } else { h with rowBus := some t }
  match c with
  | .act b => (h.modBank b fun k => { k with act := some t }).modPc (pcOf b) fun p => { p with acts := t :: p.acts.take 3 }
  | .rd b => (h.modBank b fun k => { k with rdT := some t }).modPc (pcOf b) fun p => { p with rw := some t }
  | .wr b => (h.modBank b fun k => { k with wrT := some t }).modPc (pcOf b) fun p => { p with rw := some t, wrT := some t }
  | .pre b =>
    let h := if (h.bank b).row.isSome then h.modPc (pcOf b) fun p => { p with closed := some t } else h
    h.modBank b fun k => { k with row := none, pre := some t }
  | .prea p =>
    let h := if h.anyOpen p then h.modPc p fun q => { q with closed := some t } else h
    let h := (h.banksOf p).foldl (fun h b => h.modBank b.1 fun k => { k with row := none }) h
    h.modPc p fun q => { q with prea := some t }
  | .refab p => h.modPc p fun q => { q with refab := some t, debtD := max (-8) (q.debtD - 1) }
  | .refpb b => (h.modBank b fun k => { k with ref := some t }).modPc (pcOf b) fun q =>
      if q.refpb.length = 63 then { q with refpb := [], debtD := max (-8) (q.debtD - 1) }
      else { q with refpb := b :: q.refpb }
  | .maint p => h.modPc p fun q => { q with maint := some (t + h.tmnt), debtM := q.debtM - 1 }

/-! ### Faults and progress of a chain -/

/-- A firmware chain that has broken a rule makes its routine run the step again (R442). -/
def State.breakTraining (s : State) : State :=
  (s.modCur fun k => { k with phy := { k.phy with train := k.phy.train.map fun t => { t with broke := true } } }).later s.cyc pEnd .train

/-- A fault of a chain command (R388, R390, R400, R401): slot 8, the bundle of the TLGO, the chain tick, and for classes 0x0F-0x11
the index; the chain stops, and the idle chain takes over after its last command. A firmware chain stops, and no task is involved
(R442). -/
def State.chainFault (s : State) (cls info : Nat) (loc : Option Nat) (val0 : W32) : State :=
  match s.ch.run with
  | none => s
  | some r =>
    let c := s.focus.core.val
    let tick := s.now - 3 * (r.start + 2)
    let s := s.stopChain c (if r.last = s.now then s.now + 1 else s.now)
    if r.firmware then s.breakTraining
    else s.raiseOn c { Err.plain cls info 8 r.addr with
      loc := BitVec.ofNat 32 (loc.getD tick), aux := if 0x0F ≤ cls ∧ cls ≤ 0x11 then r.idx else 0, val0 := val0 }

/-- The words of the training chain train4 (R442). -/
def trainWords : List W32 :=
  [0x10000000, 0x10000801, 0xC0010000, 0x3000001A, 0x30200001, 0x30020001, 0x30220001, 0x30040001, 0x30240001, 0x30060001,
   0x30260001, 0x2000001B, 0x20200001, 0x20020001, 0x20220001, 0x20040001, 0x20240001, 0x20060001, 0x20260001, 0xD0001800,
   0x40000008, 0x40200001, 0xE0000000]

/-- The word of a command: of the chain memory, or of the training chain (R239, R442). -/
def Channel.word (h : Channel) (idx : Nat) : W32 :=
  if h.run.any (·.firmware) then trainWords.getD idx 0 else Sp.get 0 h.mem idx

/-- Post the fetch of the next command at the tick that its dt gives (R244, R401): at the previous tick beyond the last
index. A chain whose sampling has failed stops with the last command before it (R391). -/
def State.chainNext (s : State) (idx last : Nat) : State :=
  let s := s.modRun fun r => { r with idx := idx, last := last, left := r.left.map (· - 1) }
  if s.ch.run.any (·.left == some 0) then s.stopChain s.focus.core.val (s.now + 1)
  else
    let dt := if idx < 16384 then bits (s.ch.word idx).toNat 0 11 else 0
    s.post ⟨last + dt, pChain, s.focus.core.val, .chain⟩

/-- The chain goes on with the following command. -/
def State.chainOn (s : State) : State :=
  match s.ch.run with
  | none => s
  | some r => s.chainNext (r.idx + 1) s.now

/-- A row or column command of the chain (R252, R400): f where no rule is broken. -/
def State.busCmd (s : State) (c : BusCmd) (ports : List (Nat × Nat)) (f : State → State) : Result :=
  .next (match s.ch.run with
    | none => s
    | some _ =>
      match s.ch.broken s.now c ports with
      | code :: _ => s.chainFault 0x0F code none 0
      | [] => f s)

/-- A command that leaves only its history. -/
def State.plainCmd (s : State) (c : BusCmd) : Result := s.busCmd c [] fun s => (s.modCh fun h => h.issue s.now c).chainOn

/-! ### Translation (R259-R262) -/

/-- Bits of a page above 2 MiB (R260). -/
def ttePage (w : W64) : Nat := 4 * bits w.toNat 1 2

/-- Whether a valid entry covers a virtual address (R260). -/
def tteCovers (w : W64) (va : Nat) : Bool :=
  w.getLsbD 0 && bits va 21 11 / 2 ^ ttePage w == bits w.toNat 21 11 / 2 ^ ttePage w

/-- The physical address (R261). -/
def ttePa (w : W64) (va : Nat) : Nat := 2 ^ 21 * bits w.toNat 32 10 + va % 2 ^ (21 + ttePage w)

/-- The entry whose range holds a virtual address (R261). -/
def Core.lookup (k : Core) (va : Nat) : Option (Nat × W64) :=
  (k.tt.find? fun e => tteCovers e.2.word va).map fun e => (e.1, e.2.word)

/-! ### Replicated pages (R301-R303) -/

/-- The range that holds a virtual address of a core, with the block (R301). -/
def Repl.blockOf (r : Repl) (va : Nat) : Option Nat :=
  let base := r.vbase * 2 ^ 21
  if base ≤ va ∧ va < base + 64 * r.blocks then some ((va - base) / 64) else none

/-- The addition to the physical address of a lookup (R303): the second copy of a replica whose lookup has switched. -/
def State.copyOffset (s : State) (c va : Nat) : Nat :=
  match s.pages.find? fun r => r.atomic && r.owner != c && (r.blockOf va).isSome && r.replicas.any fun m => m.core == c && m.second with
  | some r => 64 * r.blocks
  | none => 0

/-- A WR of the owner joins the writes that belong to no update (R302, R305). -/
def State.noteWr (s : State) (c va reach scope : Nat) (data : BitVec 512) : State :=
  { s with pages := s.pages.map fun r =>
      if r.owner = c then match r.blockOf va with
        | some b => { r with fresh := r.fresh ++ [⟨b, scope, reach, data⟩] }
        | none => r
      else r }

/-! ### The commands (R245) -/

/-- The VROW that an ACT names (R245). -/
def Channel.vrow (h : Channel) (n : Fin 4) (off : BitVec 15) : Nat := (h.rowb[n] + off.toNat) % 2 ^ 22

/-- The uncorrectable entry that a lookup finds (R261, R393). -/
def Core.badLookup (k : Core) (va : Nat) : Option Nat :=
  (k.lookup va).bind fun e => if (k.marked .ttab [e.1] true).isSome then some e.1 else none

/-- Whether the read that the command of this tick makes ahead of it has been made (R249, R261, R367). -/
def State.readAhead (s : State) : Bool := s.ch.run.any (·.read.contains s.now)

/-- A lookup counts what it corrects, whatever becomes of its ACT (R261, R366, R367). -/
def State.fixLookup (s : State) (va : Nat) : State :=
  match s.cur.lookup va with
  | some (e, _) => s.fixes s.focus.core.val .ttab [e]
  | none => s

/-- R245, R261, R403. An uncorrectable entry that the lookup has found stops the chain before its ACT (R393; State.chainLook); a lookup
that could not be foretold is made here. -/
def execAct (n : Fin 4) (off : BitVec 15) (dt : BitVec 11) (s : State) : Result :=
  let vrow := s.ch.vrow n off
  let va := 1024 * vrow
  let ba := vrow % 128
  match if s.readAhead then none else s.cur.badLookup va with
  | some e => .next (s.chainFault 0x1A 2 (some e) 0)
  | none => (if s.readAhead then s else s.fixLookup va).busCmd (.act ba) [] fun s =>
    match s.cur.lookup va with
    | none => s.chainFault 0x11 1 (some va) 0
    | some (_, w) =>
      (s.modCh fun h => (h.issue s.now (.act ba)).modBank ba fun b =>
        { b with row := some (bits (ttePa w va + s.copyOffset s.focus.core.val va) 17 14), rd := w.getLsbD 4, wr := w.getLsbD 5, va := va }).chainOn

/-- The physical address of a block of the open row (R239). -/
def Channel.pa (h : Channel) (ba col : Nat) : Nat := ((h.bank ba).row.getD 0) * 2 ^ 17 + ba * 2 ^ 10 + col * 2 ^ 6

/-- The stream pointer steps by a block (R246). -/
def Channel.stepPtr (h : Channel) (p : Fin 2) : Channel := { h with ptr := h.ptr.set p ((h.ptr[p] + 64) % 2 ^ 22) }

/-- An SPM access of the chain, kept while its cycle can still meet another (R251). -/
def Channel.usePort (h : Channel) (cyc : Nat) (x : Nat × Nat) : Channel :=
  { h with ports := x :: h.ports.filter fun y => cyc ≤ y.1 + 3 }

/-- The landing cycle of an RD at a tick (R248). -/
def Channel.landing (h : Channel) (t : Nat) : Nat := (t + h.rl + 20 + 2) / 3

/-- What the error-correction bits say of a stored block (R407): 0 clean, 1 correctable, 2 uncorrectable. -/
def Core.blockMark (k : Core) (pa : Nat) : Fin 3 :=
  if (k.marked .hbm [pa / 64] true).isSome then 2 else if (k.marked .hbm [pa / 64] false).isSome then 1 else 0

/-- R245, R248, R403: the data of the latest earlier WR (R250). -/
def State.readBlock (s : State) (ba col : Nat) : State :=
  let p := pcOf ba
  let a := s.ch.ptr[p]
  let l := s.ch.landing s.now
  let b := s.ch.bank ba
  if !b.rd then s.chainFault 0x11 2 (some (b.va + 64 * col)) 0
  else
    let pa := s.ch.pa ba col
    let idx := match s.ch.run with | some r => r.idx | none => 0
    let addr := match s.ch.run with | some r => r.addr | none => 0
    let data := BitVec.ofNat 512 (s.ch.hbm.le pa 64)
    let start := match s.ch.run with | some r => r.start | none => 0
    let s := s.at s.focus.core.val l pChainLand (.run { argFocus s.focus.core.val start with addr := addr, slot := .eng }
      (.chainRdLanding (BitVec.ofNat 22 a) (BitVec.ofNat 31 pa) (BitVec.ofNat 14 idx) data (s.cur.blockMark pa)))
    (s.modCh fun h => ((h.issue s.now (.rd ba)).usePort s.cyc (l, a)).stepPtr p).chainOn

/-! ### Pattern mode (R441) -/

/-- One beat of a generator. -/
def genStep (x : BitVec 7) : BitVec 7 := (x <<< 1) + (BitVec.ofBool (x.getLsbD 6 != x.getLsbD 5)).setWidth 7

/-- n beats of a generator: the bits, first beat first, and the generator afterwards. -/
def genBeats : Nat → BitVec 7 → List Bool × BitVec 7
  | 0, x => ([], x)
  | n + 1, x => let (bs, y) := genBeats n (genStep x); (x.getLsbD 6 :: bs, y)

/-- Change the lanes of a pseudo-channel. -/
def Core.modLanes (k : Core) (p : Fin 2) (f : Nat → Lane → Lane) : Core :=
  { k with phy := { k.phy with lanes := k.phy.lanes.set p (Vector.ofFn fun l => f l.val k.phy.lanes[p][l]) } }

/-- Change the lanes of both pseudo-channels. -/
def Core.allLanes (k : Core) (f : Nat → Lane → Lane) : Core := (k.modLanes 0 f).modLanes 1 f

/-- The 16 beats that a generator of a lane drives next, beat b at bit b. -/
def genBits (g : BitVec 7) : BitVec 16 := BitVec.ofNat 16 (joinElems 1 ((genBeats 16 g).1.map (·.toNat)))

/-- The bits of the physical lanes of a pseudo-channel that a pattern WR drives, 16 beats for each. -/
def Core.patternBits (k : Core) (p : Fin 2) : List (BitVec 16) := (List.finRange 38).map fun l => genBits k.phy.lanes[p][l].wgen

/-- The block that the DQ lanes store: beat b of lane l at bit 32b + l (log entry 23). -/
def dqBlock (lanes : List (BitVec 16)) : List Byte :=
  leBytes 64 (joinElems 1 ((List.range 16).map fun b => (lanes.take 32).map fun x => (x.getLsbD b).toNat).flatten)

/-- What the lanes of a stored block hold (R437, R441): the DQ lanes its bytes, and the others what a pattern WR drove last, or free
bits where none did. -/
def Core.storedBits (k : Core) (pa free : Nat) : List (BitVec 16) :=
  let x := k.ch.hbm.le pa 64
  ((List.range 32).map fun l => BitVec.ofNat 16 (joinElems 1 ((List.range 16).map fun b => bits x (32 * b + l) 1))) ++
    match k.phy.extra.find? (·.1 == pa / 64) with
    | some y => (List.range 6).map fun i => BitVec.ofNat 16 (bits y.2.toNat (16 * i) 16)
    | none => (List.range 6).map fun i => Config.beatErrors (free + 38 + i)

/-- Beats in which two lanes differ. -/
def beatsApart (a b : BitVec 16) : Nat := ((List.range 16).filter fun i => a.getLsbD i != b.getLsbD i).length

/-- A WR in pattern mode (R441): every lane takes its generator's bits, and no check bytes are computed, so that what the
error-correction bits say of the block afterwards is free (log entry 23). -/
def State.patternWr (s : State) (ba col : Nat) : State :=
  let p := pcOf ba
  let (n, s) := s.fresh
  if !(s.ch.bank ba).wr then s.chainFault 0x11 3 (some ((s.ch.bank ba).va + 64 * col)) 0
  else (s.modCur fun k =>
    let pa := k.ch.pa ba col
    let lanes := k.patternBits p
    let h := { k.ch with hbm := k.ch.hbm.storeAll (addressed pa (dqBlock lanes)) }.issue s.now (.wr ba)
    let k := k.modLanes p fun _ l => { l with wgen := (genBeats 16 l.wgen).2 }
    { k with
      ch := h
      phy := { k.phy with extra := Sp.put (pa / 64) (BitVec.ofNat 96 (joinElems 16 ((lanes.drop 32).map (·.toNat)))) k.phy.extra }
      marks := (k.marks.filter fun m => !(m.store == .hbm && m.unit == pa / 64)) ++
        if Config.patternMark n = 0 then [] else [⟨.hbm, pa / 64, Config.patternMark n = 2⟩] }).chainOn

/-- An RD in pattern mode (R441): each lane's stored bits, but for what the capture gets wrong, are compared with its generator's. What
the capture gets wrong is analogue, and so a free value (log entry 4). -/
def State.patternRd (s : State) (ba col : Nat) : State :=
  let p := pcOf ba
  let free := s.freeCtr
  let s := { s with freeCtr := free + 44 }
  if !(s.ch.bank ba).rd then s.chainFault 0x11 2 (some ((s.ch.bank ba).va + 64 * col)) 0
  else (s.modCur fun k =>
    let stored := k.storedBits (k.ch.pa ba col) free
    { (k.modLanes p fun i l => { l with
        cgen := (genBeats 16 l.cgen).2
        err := BitVec.ofNat 16 (min 65535 (l.err.toNat + beatsApart (stored.getD i 0 ^^^ Config.beatErrors (free + i)) (genBits l.cgen))) })
      with ch := k.ch.issue s.now (.rd ba) }).chainOn

/-- R245, R248. -/
def execRd (ba : BitVec 7) (col : BitVec 4) (dt : BitVec 11) (s : State) : Result :=
  if s.cur.phy.pat then s.busCmd (.rd ba.toNat) [] fun s => s.patternRd ba.toNat col.toNat
  else s.busCmd (.rd ba.toNat) [(s.ch.landing s.now, s.ch.ptr[pcOf ba.toNat])] fun s => s.readBlock ba.toNat col.toNat

/-- R249: the 64 bytes as SPM held them two cycles ago. -/
def Core.sample (k : Core) (cyc a : Nat) : List Byte := (List.range 64).map fun i => k.spmAt (cyc - 2) (a + i)

/-- The 8-byte words of SPM that a sampling reads. -/
def sampled (a : Nat) : List Nat := (List.range 8).map (a / 8 + ·)

/-- R245, R249, R403. -/
def State.writeBlock (s : State) (ba col : Nat) : State :=
  let p := pcOf ba
  let a := s.ch.ptr[p]
  let b := s.ch.bank ba
  if !b.wr then s.chainFault 0x11 3 (some (b.va + 64 * col)) 0
  else
    let pa := s.ch.pa ba col
    let (data, s) := s.settle s.focus.core.val .t (s.cyc - 2) ((List.range 64).map (a + ·)) (s.cur.sample s.cyc a)
    let s := s.noteWr s.focus.core.val (b.va + 64 * col) (s.now + s.ch.wl + 2) (match s.ch.run with | some r => r.scope | none => 0)
      (BitVec.ofNat 512 (ofLe data))
    (s.modCur fun k => { k with
      ch := (({ k.ch with hbm := k.ch.hbm.storeAll (addressed pa data) }.issue s.now (.wr ba)).usePort s.cyc (s.cyc - 2, a)).stepPtr p
      phy := { k.phy with extra := k.phy.extra.filter (·.1 != pa / 64) }
      marks := if k.marks = [] then [] else k.marks.filter fun m => !(m.store == .hbm && m.unit == pa / 64) }).chainOn

/-- What the sampling of a WR meets in SPM, at an address (R391, reader 3). -/
def State.meetSample (s : State) (a : Nat) : Bool × State :=
  s.meet s.focus.core.val .spm 3 8 ((s.ch.run.map (·.addr)).getD 0) (sampled a)

/-- R245, R249. A WR that follows a WAITT so closely that no earlier cycle could name its sampling meets what it samples itself (R391; log
entry 87). -/
def execWr (ba : BitVec 7) (col : BitVec 4) (dt : BitVec 11) (s : State) : Result :=
  let a := s.ch.ptr[pcOf ba.toNat]
  if s.cur.phy.pat then s.busCmd (.wr ba.toNat) [] fun s => s.patternWr ba.toNat col.toNat
  else match if s.readAhead then (true, s) else s.meetSample a with
  | (false, s) => .next (s.stopChain s.focus.core.val (if s.ch.run.any fun r => r.last == s.now then s.now + 1 else s.now))
  | (true, s) => s.busCmd (.wr ba.toNat) [(s.cyc - 2, a)] fun s => s.writeBlock ba.toNat col.toNat

/-- R245: a closed bank stays closed. -/
def execPre (ba : BitVec 7) (dt : BitVec 11) (s : State) : Result := s.plainCmd (.pre ba.toNat)

/-- R245. -/
def execPrea (p : Fin 2) (dt : BitVec 11) (s : State) : Result := s.plainCmd (.prea p)

/-- R245, R255. -/
def execRefab (p : Fin 2) (dt : BitVec 11) (s : State) : Result := s.plainCmd (.refab p)

/-- R245, R255. -/
def execRefpb (ba : BitVec 7) (dt : BitVec 11) (s : State) : Result := s.plainCmd (.refpb ba.toNat)

/-- Whether the base-die core of a channel acts in its slots (R24, R347, R443). -/
def State.baseDie (s : State) (c : Nat) : Bool := s.bootst.getLsbD (2 + c / 32) || (s.core c).phy.train.isSome

/-- A base-die core that is granted a slot takes the message that names its channel out of the mailbox (R24, R352). A message of
another type than R352 gives has no effect, and a channel byte of 32 or more names a channel of the stack by its low five bits (DESIGN
CHOICE, log entry 120). The base-die core of a channel in training acts too (R443; log entry 88). -/
def State.takeMail (s : State) (c : Nat) : State :=
  match s.mboxOut.find? fun m => s.baseDie c && m.1 == c / 32 && bits m.2.toNat 8 8 % 32 == c % 32 with
  | none => s
  | some (k, m) =>
    let s := { s with mboxOut := s.mboxOut.filter (·.1 != k) }
    let m := m.toNat
    let chan : Fin 32 := ⟨c % 32, Nat.mod_lt _ (by decide)⟩
    let run := fun i => s.post ⟨s.now, pTick, c, .run (argFocus c k) i⟩
    if bits m 0 8 = 1 then run (.scrubRange chan (BitVec.ofNat 32 (bits m 16 32)) (BitVec.ofNat 32 (bits m 48 32)))
    else if bits m 0 8 = 2 then
      run (.repairLane chan (pcOf (bits m 32 8)) (BitVec.ofNat 8 (bits m 16 8)) (BitVec.ofNat 8 (bits m 24 8)))
    else s

/-- A granted slot (R257): its end is posted, with the tMNT in force at its grant; a chain start that brings another changes nothing of a
slot under way (DESIGN CHOICE, log entry 110). -/
def State.grant (s : State) (p : Fin 2) : State :=
  let c := s.focus.core.val
  ((s.modCh fun h => h.issue s.now (.maint p)).post
    ⟨s.now + s.ch.tmnt, pTick, c, .run (argFocus c p.val) .maintSlotEnd⟩).takeMail c

/-- R245, R257. -/
def execMaint (p : Fin 2) (dt : BitVec 11) (s : State) : Result := s.busCmd (.maint p) [] fun s => (s.grant p).chainOn

/-- R245: N = 0 waits for a tick of the current phase, N = 1 for one of the following phase. The shift D of a rollback is taken at the
tick of the command's own dt (R379): one that grows while the wait lasts changes nothing (DEDUCED, log entry 96). -/
def execChainWaitt (next : Bool) (n : BitVec 16) (dt : BitVec 11) (s : State) : Result :=
  .next (match s.ch.run with
    | none => s
    | some r =>
      if next then s.modRun fun r => { r with waitNext := some n.toNat }
      else s.chainNext (r.idx + 1) (max s.now (3 * s.startOf s.focus.core.val + 3 * (n.toNat + s.cur.shift))))

/-- A WAITT of the following phase issues at tick 3n of the phase that begins now (R245). -/
def State.releaseWaitt (s : State) (c : Nat) : State :=
  match (s.core c).ch.run with
  | some r => match r.waitNext with
    | some n =>
      let t := { s with focus := coreFocus c }
      { ((t.modRun fun r => { r with waitNext := none }).chainNext (r.idx + 1) (3 * s.cyc + 3 * n)) with focus := s.focus }
    | none => s
  | none => s

/-- R245: a stream pointer is a byte address of SPM. -/
def execPtr (p : Fin 2) (v : BitVec 16) (dt : BitVec 11) (s : State) : Result :=
  .next ((s.modCh fun h => { h with ptr := h.ptr.set p (64 * v.toNat) }).chainOn)

/-- R245. -/
def execRowb (k : Fin 4) (v : BitVec 15) (dt : BitVec 11) (s : State) : Result :=
  .next ((s.modCh fun h => { h with rowb := h.rowb.set k (128 * v.toNat) }).chainOn)

/-- R245. -/
def execLcnt (j : Fin 2) (v : BitVec 14) (dt : BitVec 11) (s : State) : Result :=
  .next ((s.modCh fun h => { h with lc := h.lc.set j v.toNat }).chainOn)

/-- R245: a taken LOOP counts down and goes to its target. -/
def execChainLoop (j : Fin 2) (v : BitVec 14) (dt : BitVec 11) (s : State) : Result :=
  let n := s.ch.lc[j]
  .next (if s.ch.run.isNone then s
    else if 1 < n then (s.modCh fun h => { h with lc := h.lc.set j (n - 1) }).chainNext v.toNat s.now
    else (s.modCh fun h => { h with lc := h.lc.set j 0 }).chainOn)

/-- R245: the chain ends; the idle chain takes over from the next tick. After a firmware chain its routine goes on (R443). -/
def execChainEnd (dt : BitVec 11) (s : State) : Result :=
  .next (if s.ch.run.any (·.firmware) then (s.stopChain s.focus.core.val (s.now + 1)).later s.cyc pEnd .train
    else s.stopChain s.focus.core.val (s.now + 1))

/-- The fetch and execution of a command at its tick (R244, R393, R401). Chain memory is protected by 8 bytes, which are two commands
(R366). -/
def State.chainStep (s : State) (ex : Instr → State → Result) : Result :=
  match s.ch.run with
  | none => .next s
  | some r =>
    if 16384 ≤ r.idx then .next (s.chainFault 0x10 3 none 0)
    else if !r.firmware && (s.cur.marked .chainMem [r.idx / 2] true).isSome then .next (s.chainFault 0x1C 5 (some r.idx) 0)
    else
      let s := if r.firmware then s else s.fixes s.focus.core.val .chainMem [r.idx / 2]
      let w := (s.ch.word r.idx).toNat
      match decodeChain w with
      | some i => ex i s
      | none =>
        let op := w / 2 ^ 28
        .next (s.chainFault 0x10 (if op = 0 ∨ op = 15 then 1 else 2) none (BitVec.ofNat 32 w))

/-! ### TLGO (R242) -/

/-- R242: it enters the chain queue. -/
def execTlgo (g : Guard) (o : BitVec 12) (a b : Fin 32) (s : State) : Result :=
  s.slot g fun s => s.enqueue .chain (.tlgo g o a b) o (s.cur.readS a) (s.cur.readS b) 0

/-- What waits for a chain start on the channel takes effect (R253, R437): the timing registers, the delays, and the pattern mode. -/
def Core.takeTiming (k : Core) : Core :=
  let k := k.allLanes fun _ l => { l with rdly := l.rnew, wdly := l.wnew }
  { k with ch := { k.ch with tim := k.ch.timNew }, phy := { k.phy with pat := k.phy.ctl.getLsbD 0 } }

/-- A chain begins at the current cycle (R242, R253, R258): what waits for a chain start takes effect, and its first command is
fetched for chain tick 0 and its delta. -/
def State.beginChain (s : State) (idx p0 p1 issued scope : Nat) (firmware : Bool) : State :=
  let s := (s.modCur Core.takeTiming).modCh fun h => { h with
    ptr := #v[64 * p0, 64 * p1], rowb := Vector.replicate 4 0, lc := Vector.replicate 2 0
    run := some ⟨idx, 3 * (s.cyc + 2), s.cyc, issued, s.focus.addr, none, firmware, none, scope, []⟩ }
  let s := s.chainNext idx (3 * (s.cyc + 2))
  if s.cur.marks = [] ∨ firmware then s else (s.later s.cyc pRead .chainSample).later s.cyc pLook .chainLook

/-- TLGO at its start (R242, R385): class 0x08 while a chain runs. -/
def State.startTlgo (s : State) (a b : W64) (issued scope : Nat) : State :=
  if s.ch.run.isSome then s.raiseOn s.focus.core.val (Err.plain 8 4 8 s.focus.addr)
  else s.beginChain (bits a.toNat 0 14) (bits b.toNat 0 16) (bits b.toNat 16 16) issued scope false

/-! ### Landings and samplings -/

/-- R248, R367, R407: the 64 bytes land; an uncorrectable block lands as read and is class 0x13, and a corrected one counts for the
report of the base-die core (R408). The focus argument is the start cycle of the chain. -/
def execChainRdLanding (addr : BitVec 22) (pa : BitVec 31) (idx : BitVec 14) (data : BitVec 512) (mark : Fin 3)
    (s : State) : Result :=
  let c := s.focus.core.val
  let s := s.landBytes c true false rChain [] (leCells addr.toNat 64 data.toNat)
  .next (if mark = 2 then s.raiseOn c { Err.plain 0x13 (pa.toNat / 1024 % 2) 8 s.focus.addr with
      loc := BitVec.ofNat 32 pa.toNat, aux := idx.toNat }
    else if mark = 1 then s.modCur fun k => { k with hbmFixed := k.hbmFixed + 1 } else s)

/-- A command to come of a chain, as far as it can be foretold (R391, R393): how many come before it, its tick, and what it will do there:
sample SPM at an address two cycles before, or look up a virtual address one tick before. -/
inductive Foretold where
  | sample (n tick addr : Nat)
  | look (n tick va : Nat)
deriving DecidableEq, Repr

/-- The samplings and lookups of the commands to come up to a tick, in chain order (R245, R249, R261), from a phase whose tick 0 is given;
`next` is tick 0 of the following phase where it is known. -/
def Channel.foretell (h : Channel) (phase : Nat) (next : Option Nat) (upto tick idx n : Nat) : Nat → List Foretold
  | 0 => []
  | fuel + 1 =>
    let w := Sp.get 0 h.mem idx
    let t := tick + bits w.toNat 0 11
    let on := fun (h : Channel) => h.foretell phase next upto t (idx + 1) (n + 1) fuel
    if 16384 ≤ idx ∨ upto < t then []
    else match decodeChain w.toNat with
      | some (.wr ba _ _) => .sample n t h.ptr[pcOf ba.toNat] :: on (h.stepPtr (pcOf ba.toNat))
      | some (.rd ba _ _) => on (h.stepPtr (pcOf ba.toNat))
      | some (.act k off _) => .look n t (1024 * h.vrow k off) :: on h
      | some (.ptr p v _) => on { h with ptr := h.ptr.set p (64 * v.toNat) }
      | some (.rowb k v _) => on { h with rowb := h.rowb.set k (128 * v.toNat) }
      | some (.lcnt j v _) => on { h with lc := h.lc.set j v.toNat }
      | some (.chainLoop j v _) =>
        if 1 < h.lc[j] then { h with lc := h.lc.set j (h.lc[j] - 1) }.foretell phase next upto t v.toNat (n + 1) fuel
        else on { h with lc := h.lc.set j 0 }
      | some (.chainWaitt false w _) => h.foretell phase next upto (max t (phase + 3 * w.toNat)) (idx + 1) (n + 1) fuel
      | some (.chainWaitt true w _) => match next with
        | some p => h.foretell p none upto (max t (p + 3 * w.toNat)) (idx + 1) (n + 1) fuel
        | none => []
      | some (.chainEnd ..) | none => []
      | some _ => on h

/-- What can be foretold of the focused core's chain up to a tick; a WAITT that waits for the next phase goes on where that is known. -/
def State.foretold (s : State) (r : ChainRun) (next : Option Nat) (upto : Nat) : List Foretold :=
  match r.waitNext with
  | none => s.ch.foretell (3 * (s.startOf s.focus.core.val + s.cur.shift)) next upto r.last r.idx 0 1024
  | some w => match next with
    | some p => s.ch.foretell p none upto (p + 3 * w) (r.idx + 1) 1 1024
    | none => []

/-- A command to come has failed in advance: the chain goes no further than the n commands before it (R391, R393). -/
def State.chainLeft (s : State) (n : Nat) : State :=
  if n = 0 then s.stopChain s.focus.core.val s.now else s.modRun fun r => { r with left := some n }

/-- The reads that commands to come make now, in chain order, each with the commands before it, its tick and an address (R367, R391, R393):
one that goes on is noted with its tick, and behind one that does not the chain goes no further than the commands before it. -/
def State.chainReads (s : State) (read : State → Nat → Bool × State) : List (Nat × Nat × Nat) → State
  | [] => s
  | (n, t, a) :: rest => match read s a with
    | (true, s) => (s.modRun fun r => { r with read := t :: r.read.filter (s.now ≤ ·) }).chainReads read rest
    | (false, s) => s.chainLeft n

/-- Whether a command to come with n commands before it still issues (R391). -/
def ChainRun.reaches (r : ChainRun) (n : Nat) : Bool := r.left.all (n < ·)

/-- The samplings of this cycle read SPM (R249): an uncorrectable word is detected, and the chain goes no further than the
commands before it (R391, reader 3). In pattern mode nothing is sampled (R441). -/
def State.chainSample (s : State) (next : Option Nat) : State :=
  match s.ch.run with
  | none => s
  | some r =>
    let s := s.later (s.cyc + 1) pRead .chainSample
    if s.cur.phy.pat then s
    else s.chainReads State.meetSample ((s.foretold r next (3 * s.cyc + 8)).filterMap fun f => match f with
      | .sample n t a => if t / 3 = s.cyc + 2 ∧ r.reaches n then some (n, t, a) else none
      | .look .. => none)

/-- What the lookup of a virtual address meets in the translation table (R261, R366, R393). -/
def State.meetLook (s : State) (va : Nat) : Bool × State :=
  match s.cur.badLookup va with
  | some e => (false, s.raiseOn s.focus.core.val
      { Err.plain 0x1A 2 8 ((s.ch.run.map (·.addr)).getD 0) with loc := BitVec.ofNat 32 e })
  | none => (true, s.fixLookup va)

/-- The lookup of the ACT at the next tick (R261): an uncorrectable entry is detected, and the chain goes no further than the commands
before the ACT (R393). -/
def State.chainLook (s : State) (next : Option Nat) : State :=
  match s.ch.run with
  | none => s
  | some r => (s.post ⟨s.now + 1, pLook, s.focus.core.val, .chainLook⟩).chainReads State.meetLook
      ((s.foretold r next (s.now + 1)).filterMap fun f => match f with
        | .look n t va => if t = s.now + 1 ∧ r.reaches n then some (n, t, va) else none
        | .sample .. => none)

/-! ### The idle chain, the debts and the maintenance slots -/

/-- What the idle chain would issue, the first first (R258). -/
def Channel.idleWants (h : Channel) : List BusCmd :=
  let ps : List (Fin 2) := [0, 1]
  (ps.filter h.anyOpen).map .prea ++ (ps.filter fun p => 1 ≤ (h.pseudo p).debtD).map .refab ++
    (ps.filter fun p => 1 ≤ (h.pseudo p).debtM).map .maint

/-- Whether a compiled chain holds the channel at a tick (R242, R258). A chain that saves or restores a context has no index: its
refresh and maintenance are those of the idle chain (log entry 13). -/
def Channel.held (h : Channel) (t : Nat) : Bool :=
  match h.run with | some r => r.idx < 16384 && 3 * (r.start + 2) ≤ t | none => false

/-- R258: the first wanted command that the rules allow issues; while a command is wanted, the next tick is tried. -/
def execIdleChainCommand (s : State) : Result :=
  if s.ch.held s.now then .next s
  else
    let s := match s.ch.idleWants.find? fun c => s.ch.broken s.now c [] = [] with
      | some (.maint p) => s.grant p
      | some c => s.modCh fun h => h.issue s.now c
      | none => s
    .next (if s.ch.idleWants = [] then s
      else s.post ⟨s.now + 1, pChain, s.focus.core.val, .run (coreFocus s.focus.core.val) .idleChainCommand⟩)

/-- The pseudo-channel of an event (R255). -/
def State.argPc (s : State) : Fin 2 := pcOf s.focus.arg

/-- A break of a rate at this tick (R400): the chain issues no further command. Both pseudo-channels may break it in one cycle,
which is one error. While a routine trains the channel no task is involved: its chain stops, once, and it runs the step again (R442); a
chain that saves or restores a context leaves refresh and maintenance to the idle chain (log entry 13). -/
def State.rateFault (s : State) (info : Nat) : State :=
  let c := s.focus.core.val
  let same := fun (e : Err) => e.cls == 0x0F && e.info == info
  if s.cur.errs.any same || s.cur.drain.any (fun d => d.f == s.cyc && same d.err) then s
  else match s.ch.run.filter fun r => !r.firmware || s.cur.phy.train.isSome with
  | some r =>
    if r.firmware then (s.stopChain c s.now).breakTraining
    else (s.stopChain c s.now).raiseOn c { Err.plain 0x0F info 8 r.addr with
      loc := BitVec.ofNat 32 (s.now - 3 * (r.start + 2)), aux := r.idx }
  | none => if s.cur.phy.train.isSome then s else s.raiseOn c (Err.plain 0x0F info 15 s.cur.lastAddr)

/-- A debt has grown: the idle chain looks for a command when it has the channel (R258). -/
def State.wake (s : State) : State :=
  if s.ch.held s.now then s else s.wakeIdle s.focus.core.val s.now

/-- R255: held at 8, with a break of the refresh rate. An interval that a chain start has changed counts from the next increment on
(DESIGN CHOICE, log entry 95). -/
def execRefreshDebtIncrement (s : State) : Result :=
  let p := s.argPc
  let broke := 8 ≤ (s.ch.pseudo p).debtD
  let s := s.post ⟨s.now + s.ch.trefi, pTick, s.focus.core.val, .run s.focus .refreshDebtIncrement⟩
  let s := if broke then s.rateFault 15 else s.modCh fun h => h.modPc p fun q => { q with debtD := q.debtD + 1 }
  .next s.wake

/-- R256: held at 8, with a break of the maintenance rate; a changed interval counts as in execRefreshDebtIncrement. -/
def execMaintenanceDebtIncrement (s : State) : Result :=
  let p := s.argPc
  let broke := 8 ≤ (s.ch.pseudo p).debtM
  let s := s.post ⟨s.now + s.ch.tmnti, pTick, s.focus.core.val, .run s.focus .maintenanceDebtIncrement⟩
  let s := if broke then s.rateFault 16 else s.modCh fun h => h.modPc p fun q => { q with debtM := q.debtM + 1 }
  .next s.wake

end Sys2Proof.Machine
end

