-- ==== Sys2Proof/Machine/Migration.lean ====
section
/-! DEFINITION. The maintenance slots: replicated pages and their propagation (R301-R305), lease moves (R314), commands to
HBM (R349), scrub (R408) and lane repair (R409, R439); the end of a slot hands the pseudo-channel back (R257). -/

namespace Sys2Proof.Machine

open Sys2Proof

/-! ### Replicated pages -/

/-- Whether a write of a scope reaches a replica (R305). -/
def inSet (owner core scope : Nat) : Bool :=
  match scope with
  | 0 => false
  | 1 => owner / 4 == core / 4
  | 2 => owner / 64 == core / 64
  | _ => true

/-- The last data of each block of a list. -/
def lastBlocks (us : List (Nat × BitVec 512)) : List (Nat × BitVec 512) := us.foldl (fun m u => Sp.put u.1 u.2 m) []

/-- The dies in the order in which an update reaches them (R304): free (log entry 22). -/
def diesInOrder (free : Nat) : List Nat := sortBy (fun d => Config.dieRank (free + d)) (List.range 4)

/-- Update n begins at cycle 0 of exchange phase n (R302): it takes the writes that reached the row before that tick. An
atomic replica receives the blocks of the update before as well (R303), which its copy not in use lacks; one that has yet to switch lacks
them in the copy in use, and the writes of both updates go into the other (log entry 22). -/
def Repl.update (r : Repl) (tick free : Nat) : Repl :=
  let now := r.fresh.filter fun u => u.reach < tick
  let sets := r.replicas.map fun m =>
    (m, lastBlocks ((now.filter fun u => inSet r.owner m.core u.scope).map fun u => (u.block, u.data)))
  { r with
    fresh := r.fresh.filter fun u => tick ≤ u.reach
    replicas := sets.map fun (m, bs) =>
      { m with
        prev := lastBlocks ((if m.switching then m.prev else []) ++ bs)
        switching := m.switching || (r.atomic && (bs != [] || m.prev != [])) }
    todo := r.todo ++ ((diesInOrder free).map fun d => ((sets.filter fun x => x.1.core / 64 == d).map fun (m, bs) =>
      (lastBlocks ((if r.atomic && !m.switching then m.prev else []) ++ bs)).map fun b => (m.core, b.1, b.2)).flatten).flatten }

/-- A compute phase begins (R303): with its update in place the range's replicas switch to the other copy, all at once; until then none
does (DESIGN CHOICE, log entry 22). -/
def Repl.switch (r : Repl) : Repl :=
  if r.todo = [] then { r with replicas := r.replicas.map fun m =>
      if m.switching then { m with second := !m.second, switching := false } else m }
  else r

/-- Updates of a core's pages are in place (R302, the fourth condition of R292). -/
def State.updatesIn (s : State) (c : Nat) : Bool := s.pages.all fun r => r.owner != c || r.todo == []

/-- The die whose replicas are written next when propagation is die by die (R304). -/
def Repl.die (r : Repl) : Nat := match r.todo with | [] => 0 | t :: _ => t.1 / 64

/-- The first n entries that satisfy a test, and the others, both in order. -/
def splitFirst {α : Type} (p : α → Bool) : Nat → List α → List α × List α
  | _, [] => ([], [])
  | n, x :: r =>
    if 0 < n ∧ p x then let (a, b) := splitFirst p (n - 1) r; (x :: a, b) else let (a, b) := splitFirst p n r; (a, x :: b)

/-- What a slot of a core's pseudo-channel writes of a range's updates, at most n blocks, oldest first, and what is left to do (R302). Die by
die it is of the entries up to the first of another die, so that a late update is in place on its dies before a later one begins on them
(R304). -/
def Repl.slotWork (r : Repl) (c p n : Nat) : List (Nat × Nat × BitVec 512) × List (Nat × Nat × BitVec 512) :=
  let run := if r.atomic then r.todo else r.todo.takeWhile fun t => t.1 / 64 == r.die
  let (work, rest) := splitFirst (fun t => t.1 == c && t.2.1 / 16 % 2 == p) n run
  (work, rest ++ r.todo.drop run.length)

/-- The physical address of a block of a replica that the engine writes: the copy not in use under atomic propagation. -/
def Repl.target (r : Repl) (m : Replica) (b : Nat) : Nat :=
  m.base * 2 ^ 21 + (if r.atomic && !m.second then 64 * r.blocks else 0) + 64 * b

/-- Write blocks of a channel (R407): whole blocks replace what the stored bits were. -/
def State.writeHbm (s : State) (c : Nat) (bs : List (Nat × List Byte)) : State :=
  s.modCore c fun k => { k with
    ch := { k.ch with hbm := bs.foldl (fun m b => m.storeAll (addressed b.1 b.2)) k.ch.hbm }
    marks := if k.marks = [] then [] else
      k.marks.filter fun m => !(m.store == .hbm && bs.any fun b => b.1 / 64 == m.unit) }

/-- The migration engine or a command reads blocks of a channel (R407): those that it corrects count for the base-die core's report (R367,
R408). -/
def State.readBlocks (s : State) (c : Nat) (units : List Nat) : State :=
  if (s.core c).marks = [] then s
  else s.modCore c fun k => { k with hbmFixed := k.hbmFixed + (units.dedup.filter fun u => (k.marked .hbm [u] false).isSome).length }

/-- An uncorrectable block of a core's channel that the package controller posts, class 0x13 with act 0, is recorded and counted at that core
(R356, R407, R408). -/
def State.postBlock (s : State) (c : Nat) : State :=
  (s.modCore c fun k => (k.noteError 0x13 false).countUe [Err.plain 0x13 0 15 0]).postEvent (s.core c).part.val c 0x13 .n

/-- The part of a slot that propagation takes (R302): the blocks written, and the state. Each uncorrectable block of the owner
is left old and is class 0x13 with act 0 (R407), and counts at the owner (R356). An update that is in place may let the owner's automatic
arrival count. -/
def State.propagate (s : State) (c p n : Nat) : Nat × State :=
  s.pages.foldl (fun (used, s) r =>
    match r.replicas.find? (·.core == c) with
    | none => (used, s)
    | some m =>
      let (work, rest) := r.slotWork c p (n - used)
      let unit := fun (b : Nat) => r.base * 2 ^ 15 + b
      let bad := fun (b : Nat) => ((s.core r.owner).marked .hbm [unit b] true).isSome
      let s := s.readBlocks r.owner (work.map fun t => unit t.2.1)
      let s := s.writeHbm c ((work.filter fun t => !bad t.2.1).map fun t => (r.target m t.2.1, leBytes 64 t.2.2.toNat))
      let s := (work.filter fun t => bad t.2.1).foldl (fun (s : State) _ => s.postBlock r.owner) s
      let s := { s with pages := s.pages.map fun x => if x.record = r.record ∧ x.vbase = r.vbase then { x with todo := rest } else x }
      (used + work.length, if work = [] then s else s.at 0 s.cyc pEnd .decide)) (0, s)

/-! ### Lease moves (R314) -/

/-- The blocks of a move that lie on a pseudo-channel, in ascending order: the kth is at this block. -/
def moveBlock (p k : Nat) : Nat := k / 16 * 32 + 16 * p + k % 16

/-- The blocks of a pseudo-channel that a move can write next at a core: it fills the first copy as the home is read, and then the
second (R303, R314; log entry 86). -/
def Move.ready (m : Move) (read written : Nat) : Nat :=
  let half := m.blocks / 2
  if read = half then m.copies * half - written else read - written

/-- The part of a slot that the moves take: reads at the home channel, whose data the engine holds, and writes of that data at the others,
at most n. An uncorrectable block is not copied (R407). -/
def State.moveWork (s : State) (c : Nat) (p : Fin 2) (n : Nat) : Nat × State :=
  s.moves.foldl (fun (used, s) m =>
    let half := m.blocks / 2
    if m.home = c then
      let k := min (n - used) (half - m.read[p])
      let blocks := (List.range k).map fun i => moveBlock p.val (m.read[p] + i)
      let unit := fun (b : Nat) => m.base * 2 ^ 15 + b
      let good := blocks.filter fun b => ((s.core c).marked .hbm [unit b] true).isNone
      let data := good.map fun b => (b, BitVec.ofNat 512 ((s.core c).ch.hbm.le (64 * unit b) 64))
      let s := { s with moves := s.moves.map fun (x : Move) => if x.id = m.id then
        { x with read := x.read.set p (x.read[p] + k), bad := x.bad || good.length < k, data := x.data ++ data } else x }
      (used + k, s.readBlocks c (blocks.map unit))
    else match m.dst.find? (·.1 == c) with
      | none => (used, s)
      | some (_, w0, w1) =>
        let w := if p = 0 then w0 else w1
        let k := min (n - used) (m.ready m.read[p] w)
        let blocks := (List.range k).map fun i => ((w + i) / half, moveBlock p.val ((w + i) % half))
        let s := s.writeHbm c (blocks.filterMap fun (copy, b) => (m.data.find? (·.1 == b)).map fun x =>
          (m.base * 2 ^ 21 + 64 * (m.blocks * copy + b), leBytes 64 x.2.toNat))
        let s := { s with moves := s.moves.map fun x => if x.id = m.id then
          { x with dst := x.dst.map fun d => if d.1 = c then
              (d.1, if p = 0 then d.2.1 + k else d.2.1, if p = 0 then d.2.2 else d.2.2 + k) else d } else x }
        (used + k, s)) (0, s)

/-- Whether a move has written its last block. -/
def Move.done (m : Move) : Bool := m.dst.all fun d => d.2.1 + d.2.2 == m.copies * m.blocks

/-- Moves that ended let their record's leases be granted (R314). -/
def State.grantMoves (s : State) : State :=
  let ended := (s.moves.filter fun m => (s.moves.filter (·.record == m.record)).all (·.done)).map (·.record)
  let s := ended.dedup.foldl (fun s id => s.at 0 s.cyc pTick (.run (argFocus 0 id) .leaseGrant)) s
  let failed := (s.moves.filter fun m => ended.contains m.record && m.bad).map (·.record)
  { s with
    moves := s.moves.filter fun m => !ended.contains m.record
    records := s.records.map fun r => if failed.contains r.id then { r with failed := true } else r }

/-! ### Commands to HBM (R349) -/

/-- Status byte of the command in a slot (R338). -/
def State.setStatus (s : State) (slot code : Nat) : State :=
  { s with cmd := s.cmd.store (4096 * slot + 10) (BitVec.ofNat 8 code) }

/-- Partition of a command (R338). -/
def State.cmdPart (s : State) (slot : Nat) : Nat := bits (s.cmd.le (4096 * slot) 8) 18 3

/-- A command completes (R338): its status is written, and its partition's vector 8p is raised; that of a command forwarded by
the bridge is returned over UALink. -/
def State.complete (s : State) (slot code : Nat) : State :=
  let s := s.setStatus slot code
  if s.fwdSlots.contains slot then
    { s with fwdSlots := s.fwdSlots.filter (· != slot), forwarded := s.forwarded ++ [(256 + slot, BitVec.ofNat 64 code)] }
  else s.vector (8 * s.cmdPart slot)

/-- The firmware takes the next doorbell (R338, R349), after the tasks' LAUNCHes of the cycle (R306). -/
def State.nextCommand (s : State) : State :=
  let s := { s with fwBusy := s.doorbells != [] }
  if s.doorbells = [] then s else s.at 0 (s.cyc + 1) pEnd .firmware

/-- The part of a slot that a command to HBM takes, and the state: the blocks of the pseudo-channel in order, at most n, and none
while the core holds a task or has an iteration bound to it. Uncorrectable blocks count in CERRST.ue and fail a MEMRD, and corrected ones
count for the base-die core's report (R408). -/
def State.hbmWork (s : State) (c p n : Nat) : Nat × State :=
  match s.hbmCmd with
  | none => (0, s)
  | some h =>
    if h.core ≠ c ∨ (s.core c).record.isSome then (0, s)
    else
      let mine := ((List.range (h.blocks - h.next)).map (h.next + ·)).takeWhile fun b => (h.addr / 64 + b) / 16 % 2 = p
      let work := mine.take n
      let as := work.map fun b => h.addr + 64 * b
      let nbad := (as.filter fun a => ((s.core c).marked .hbm [a / 64] true).isSome).length
      let s := if h.write then s.writeHbm c (work.map fun b => (h.addr + 64 * b, s.cmd.bytes (4096 * h.slot + 80 + 64 * b) 64))
        else (s.readBlocks c (as.map (· / 64))).modCore c fun k => { k with cerrst := bump k.cerrst 16 8 nbad }
      let m := (s.core c).ch.hbm
      let h := { h with
        next := h.next + work.length
        bad := h.bad || (!h.write && nbad != 0)
        got := if h.write then [] else
          h.got ++ (work.map fun b => addressed (4096 * h.slot + 64 + 64 * b) (m.bytes (h.addr + 64 * b) 64)).flatten }
      (work.length, if h.blocks ≤ h.next then
        let s := if h.bad then s else { s with cmd := s.cmd.storeAll h.got }
        ({ s with hbmCmd := none }.complete h.slot (if h.bad then 3 else 1)).nextCommand
      else { s with hbmCmd := some h })

/-! ### Scrub and repair (R408, R409, R439) -/

/-- A message fills the empty mailbox slot of its stack (R352), and the firmware takes it out. -/
def State.fillMail (s : State) (core : Nat) (i : Instr) (msg : BitVec 512) : State :=
  { s with mboxIn := Sp.put (core / 32) msg s.mboxIn }.at core s.cyc pNet (.run (argFocus core (core / 32)) i)

/-- A stack sends a message (R352): it waits until the slot is empty. -/
def State.fromStack (s : State) (core : Nat) (i : Instr) (msg : List Byte) : State :=
  let m := BitVec.ofNat 512 (ofLe msg)
  if s.mboxIn.any (·.1 == core / 32) then { s with mboxWait := s.mboxWait ++ [(core, i, m)] } else s.fillMail core i m

/-- The slot of a stack is empty: the message that has waited longest fills it (R352). -/
def State.emptyMail (s : State) : State :=
  let k := s.focus.arg
  let s := { s with mboxIn := s.mboxIn.filter (·.1 != k) }
  match s.mboxWait.find? (·.1 / 32 == k) with
  | some x => { s with mboxWait := s.mboxWait.erase x }.fillMail x.1 x.2.1 x.2.2
  | none => s

/-- The scrub's share of a slot (R408, log entry 16), at most n blocks: corrected blocks are written back, uncorrectable ones are
left, and a report is sent when something was found or has been corrected since the last report (R367). -/
def State.scrub (s : State) (c : Nat) (p : Fin 2) (n : Nat) : State :=
  let (free, s) := s.fresh
  if !Config.scrubFinds free then s
  else
    let k := s.core c
    let at0 := k.ch.pc[p].scrub
    let len := min 64 n
    let units := (List.range len).map fun i => moveBlock p.val ((at0 + i) % 2 ^ 24)
    let soft := units.filter fun u => (k.marked .hbm [u] false).isSome
    let hard := units.filter fun u => (k.marked .hbm [u] true).isSome
    let found := k.hbmFixed + soft.length
    let s := s.modCore c fun k => { k with
      ch := k.ch.modPc p fun q => { q with scrub := (at0 + len) % 2 ^ 24 }
      marks := k.marks.filter fun m => !(m.store == .hbm && !m.hard && units.contains m.unit)
      hbmFixed := 0 }
    if found = 0 ∧ hard = [] then s
    else
      let chan : Fin 32 := ⟨c % 32, Nat.mod_lt _ (by decide)⟩
      s.fromStack c (.correctedErrorCount chan (BitVec.ofNat 32 found) (BitVec.ofNat 32 hard.length) (BitVec.ofNat 32 (hard.headD 0)))
        ([0x81, BitVec.ofNat 8 (c % 32)] ++ leBytes 4 found ++ leBytes 4 hard.length ++ leBytes 4 (hard.headD 0))

/-- A base-die core may report its stack's temperature in a slot (R352, log entry 16). -/
def State.reportTemp (s : State) (c : Nat) : State :=
  let (n, s) := s.fresh
  if Config.tempReport n then
    s.fromStack c (.stackTemperature (Config.stackTemp n)) [0x83, BitVec.ofNat 8 (c % 32), Config.stackTemp n]
  else s

/-- The outcome of a repair (R409): 0 repaired, 1 no spare left, 2 already repaired, 3 out of range. -/
def repairStatus (map lane spare : Nat) : Nat :=
  let v36 := bits map 6 1 = 1
  let v37 := bits map 14 1 = 1
  if 36 ≤ lane ∨ !(spare = 36 ∨ spare = 37) then 3
  else if (v36 ∧ bits map 0 6 = lane) ∨ (v37 ∧ bits map 8 6 = lane) then 2
  else if v36 ∧ v37 then 1
  else 0

/-- The spare that a repair takes (R409): the one named if it is free, else the other (log entry 85). -/
def freeSpare (map spare : Nat) : Nat :=
  if spare = 36 then (if bits map 6 1 = 1 then 37 else 36) else (if bits map 14 1 = 1 then 36 else 37)

/-- At most one lane repair takes effect at the end of a slot (R409, R439), and is reported. -/
def State.repair (s : State) (c : Nat) (p : Fin 2) : State :=
  match (s.core c).ch.pc[p].repairReq with
  | [] => s
  | x :: rest =>
    let lane := x % 256
    let st := repairStatus (s.core c).phy.map[p].toNat lane (x / 256)
    let spare := freeSpare (s.core c).phy.map[p].toNat (x / 256)
    let s := s.modCore c fun k => { k with ch := k.ch.modPc p fun q => { q with repairReq := rest } }
    let s := if st = 0 then s.modCore c fun k =>
        let m := k.phy.map[p]
        let m := if spare = 36 then setField (setField m 0 6 lane) 6 1 1 else setField (setField m 8 6 lane) 14 1 1
        let lo := if p = 0 then 2 else 4
        { k with phy := { k.phy with map := k.phy.map.set p m,
                                     trnst := setField k.phy.trnst lo 2 (bits k.phy.trnst.toNat lo 2 + 1) } }
      else s
    s.fromStack c (.repairDone ⟨c % 32, Nat.mod_lt _ (by decide)⟩ (BitVec.ofNat 8 st)) [0x82, BitVec.ofNat 8 (c % 32), BitVec.ofNat 8 st]

/-- R257, R302, R314, R349, R408, R409: the engine's share comes first, then the rest for the scrub, the repair and the report of a
base-die core that runs (R347); the pseudo-channel is handed back with every bank closed and no timing obligation. All that a slot reads and
writes, it does at its end (DESIGN CHOICE, log entry 113). -/
def execMaintSlotEnd (s : State) : Result :=
  let c := s.focus.core.val
  let p := s.argPc
  let (a, s) := s.propagate c p.val 128
  let (b, s) := s.moveWork c p (128 - a)
  let s := s.grantMoves
  let (d, s) := s.hbmWork c p.val (128 - a - b)
  let s := if s.baseDie c then ((s.scrub c p (128 - a - b - d)).repair c p).reportTemp c else s
  .next ((s.modCore c fun k =>
    let h := { k.ch with banks := k.ch.banks.filter fun x => x.1 % 2 != p.val }
    { k with ch := h.modPc p fun q => { q with acts := [], rw := none, wrT := none, prea := none, closed := none, refab := none, maint := none } }).wake)

end Sys2Proof.Machine
end

