-- ==== Sys2Proof/Machine/Launch.lean ====
section
/-! DEFINITION. Launch queues, records, leases, activation, binding and preparation (R306-R319, R404-R406), LAUNCH (R318) and
the start and end of tasks (R29, R30, R92). -/

namespace Sys2Proof.Machine

open Sys2Proof

/-! ### Records (R308, R309) -/

/-- A field of a record. -/
def lnr (w : BitVec 1024) (lo n : Nat) : Nat := w.toNat / 2 ^ lo % 2 ^ n

/-- The four effective bounds (R308). -/
def lnrBound (w : BitVec 1024) (i : Nat) : Nat := max 1 (lnr w (64 + 32 * i) 32)

/-- The product of the bounds (R309). -/
def lnrCount (w : BitVec 1024) : Nat := lnrBound w 0 * lnrBound w 1 * lnrBound w 2 * lnrBound w 3

/-- The index numbers from the outermost to the innermost (R308). -/
def lnrOrder (w : BitVec 1024) : List Nat := (List.range 4).map fun i => lnr w (12 + 2 * i) 2

/-- The gang, in ascending order (R308). -/
def lnrGang (w : BitVec 1024) : List Nat := (List.range 256).filter fun c => w.getLsbD (192 + c)

/-- A section descriptor of an image (R311): offset, length, destination. -/
structure Section where
  off : Nat
  len : Nat
  dst : Nat
  rsv : Nat
deriving DecidableEq, Repr

/-- Size of the chunk store (R332). -/
def chunkSize : Nat := 2 ^ 28

/-- Section i of the image at an offset in 64-byte units (R311). -/
def State.imageSection (s : State) (image i : Nat) : Section :=
  let d := s.chunk.le (64 * image + 8 * i) 8
  ⟨64 * bits d 0 22, bits d 22 20, bits d 42 19, bits d 61 3⟩

/-- Bytes per entry of a section's target, and its entries (R311). -/
def sectionTarget (i : Nat) : Nat × Nat :=
  match i with
  | 0 => (1, 524288) | 1 => (1, 262144) | 2 => (4, 256) | 3 => (8, 256) | 4 => (8, 8192) | 5 => (4, 16384) | 6 => (16, 32)
  | _ => (1, 0)

/-- A section descriptor breaks R311; of an absent section, whose length is 0, the destination counts for nothing (DESIGN CHOICE, log entry
112). -/
def Section.bad (x : Section) (i : Nat) : Bool :=
  let (u, n) := sectionTarget i
  x.rsv != 0 || (i == 7 && x.len != 0) || x.len % u != 0 || (i == 6 && x.dst != 0) || (x.len != 0 && n < x.dst + x.len / u)

/-- A lease entry (R312). -/
structure Lease where
  vbase : Nat
  npg : Nat
  size : Nat
  rd : Bool
  wr : Bool
  repl : Bool
  prop : Bool
  home : Nat
  hpbase : Nat
  loc : Bool
deriving DecidableEq, Repr

/-- An entry of the lease list of a record (R312). -/
def State.lease (s : State) (w : BitVec 1024) (i : Nat) : Lease :=
  let d := s.chunk.le (64 * lnr w 448 22 + 16 * i) 16
  ⟨bits d 0 11, bits d 11 8, bits d 19 2, bits d 21 1 = 1, bits d 22 1 = 1, bits d 23 1 = 1, bits d 24 1 = 1, bits d 32 8,
    bits d 40 10, bits d 50 1 = 1⟩

/-- The lease list of a record (R312). -/
def State.leases (s : State) (w : BitVec 1024) : List Lease := (List.range (lnr w 470 10)).map (s.lease w)

/-- A record is malformed (R309). -/
def State.malformed (s : State) (w : BitVec 1024) (part : Nat) : Bool :=
  let gang := lnrGang w
  let image := lnr w 512 22
  bits w.toNat 7 1 != 0 || lnr w 20 4 != 0 || lnr w 43 21 != 0 || lnr w 480 32 != 0 || lnr w 534 42 != 0 || lnr w 695 9 != 0
    || lnr w 800 224 != 0 || lnr w 8 4 == 0 || (lnrOrder w).dedup.length != 4 || lnr w 24 19 % 8 != 0 || gang == []
    || gang.any (fun c => (s.core c).part.val != part) || lnr w 640 19 < lnr w 659 18 || 0x40000 < lnr w 640 19
    || chunkSize < 64 * image + 64 || chunkSize < 64 * lnr w 448 22 + 16 * lnr w 470 10
    || (List.range 8).any (fun i => (s.imageSection image i).bad i)
    || (s.leases w).any (fun l => !l.loc && !gang.contains l.home) || 2 ^ 40 < lnrCount w

/-- The cores that map an entry (R312). -/
def Lease.cores (l : Lease) (gang : List Nat) : List Nat := if !l.loc && !l.repl then [l.home] else gang

/-- A channel is out of service, or its stack's firmware does not run (R347, R409). -/
def State.channelOut (s : State) (c : Nat) : Bool :=
  bits (s.core c).phy.trnst.toNat 0 2 = 2 || !s.bootst.getLsbD (2 + c / 32)

/-- Whether an uncorrectable chunk-store word spoils a range of bytes (R366). -/
def State.chunkBad (s : State) (a n : Nat) : Bool :=
  s.marks.any fun m => m.store == .chunk && m.hard && a / 8 ≤ m.unit && 8 * m.unit < a + n

/-- Whether an uncorrectable chunk-store word spoils the lease list of a record (R312, R366). -/
def State.leasesBad (s : State) (w : BitVec 1024) : Bool := s.chunkBad (64 * lnr w 448 22) (16 * lnr w 470 10)

/-- What an attempt to enqueue a record answers (R309, R319, R349, R409), as LAUNCH codes it: 0 accepted, 1 queue full or
partition quarantined, 2 malformed, 6 a channel out of service. An image header or lease list that an uncorrectable word spoils counts as
malformed, for LAUNCH too (R366; DEDUCED, log entry 89). -/
def State.enqueueStatus (s : State) (w : BitVec 1024) (part : Nat) : Nat :=
  if s.shut.contains part then 1
  else if s.chunkBad (64 * lnr w 512 22) 64 || s.leasesBad w then 2
  else if s.malformed w part then 2
  else if (s.leases w).any fun l => (l.cores (lnrGang w)).any s.channelOut then 6
  else if 64 ≤ (Sp.get [] s.lqs (4 * part + lnr w 3 2)).length then 1
  else 0

/-! ### Lease work (R312, R314, R404) -/

/-- Pages of 2 MiB in a page of a size (R260). -/
def pageUnits (size : Nat) : Nat := 2 ^ (4 * size)

/-- An entry whose pages no table can hold (R404, R421): a reserved size, a misaligned page, the context area or beyond. -/
def Lease.bad (l : Lease) : Bool :=
  let u := pageUnits l.size
  l.size == 3 || l.vbase % u != 0 || l.hpbase % u != 0 ||
    0x3FC < l.hpbase + (if l.repl && !l.loc && !l.prop then 2 else 1) * l.npg * u

/-- The entries of a lease on a core (R312), with the second copy's place left to the lookup (R303). What the table of R312 leaves open is
the model's choice (DESIGN CHOICE, log entry 111): an entry with both local and repl is local and not replicated, one of no pages maps
nothing, and a range that runs past VA 2^32 goes on from VA 0. -/
def Lease.ttes (l : Lease) (c : Nat) : List W64 :=
  (List.range l.npg).map fun k =>
    let u := pageUnits l.size
    let own := l.repl && !l.loc
    BitVec.ofNat 64 (1 + 2 * l.size + 8 * l.prop.toNat + 16 * (l.rd || own).toNat
      + 32 * (if own then (c == l.home).toNat else l.wr.toNat) + 2 ^ 21 * ((l.vbase + k * u) % 2048) + 2 ^ 32 * ((l.hpbase + k * u) % 1024))

/-- Two entries cover a common address (R260). -/
def tteMeet (a b : W64) : Bool :=
  let k := max (ttePage a) (ttePage b)
  bits a.toNat 21 11 / 2 ^ k == bits b.toNat 21 11 / 2 ^ k

/-- The words of a core's entries that are valid or about to be (R260, R262). -/
def Core.ttesInUse (k : Core) : List W64 :=
  (k.tt.map fun e => match e.2.valid with | some w => [w] | none => if e.2.word.getLsbD 0 then [e.2.word] else []).flatten

/-- The free entries of a core's table. -/
def Core.freeTtes (k : Core) : List Nat :=
  (List.range 64).filter fun e => let t := Sp.get Tte.reset k.tt e; !t.word.getLsbD 0 && t.valid.isNone && t.inval.isNone

/-- Places for the entries of leases, each lease on consecutive free entries (R312), the lowest that it finds (log entry 80). -/
def placeTtes (free : List Nat) : List (List W64) → Option (List (Nat × W64))
  | [] => some []
  | ws :: rest =>
    match if ws = [] then some 0 else free.find? fun e => (List.range ws.length).all fun i => free.contains (e + i) with
    | none => none
    | some e => (placeTtes (free.filter fun x => x < e || e + ws.length ≤ x) rest).map
        (((List.range ws.length).map (e + ·)).zip ws ++ ·)

/-- No two entries of a list cover a common address. -/
def ttesApart : List W64 → Bool
  | [] => true
  | w :: r => (r.all fun x => !tteMeet w x) && ttesApart r

/-- Whether a core's table can take the entries of leases (R260, R314). -/
def Core.canMap (k : Core) (ls : List (List W64)) : Bool :=
  (placeTtes k.freeTtes ls).isSome && ttesApart ls.flatten && ls.flatten.all fun w => k.ttesInUse.all fun x => !tteMeet w x

/-- Write the entries of a record's leases (R262, R314), each anew with its code (R366): at once on a core that holds no task, else at its
next quiescent point. An entry that changes while its core is halted is not the one of the core's image (R421). -/
def Core.map (k : Core) (id : Nat) (ls : List (List W64)) : Core :=
  let places := (placeTtes k.freeTtes ls).getD []
  { k with
    tt := places.foldl (fun t x =>
      Sp.set Tte.reset t x.1 { Tte.reset with
        word := if k.life.holds then 0 else x.2, valid := if k.life.holds then some x.2 else none, owner := some id
        fresh := k.life == .halted }) k.tt
    marks := if k.marks = [] then [] else k.marks.filter fun m => !(m.store == .ttab && places.any (·.1 == m.unit)) }

/-- The entries of a record's leases on a core (R312). -/
def State.recordTtes (s : State) (r : Record) (c : Nat) : List (List W64) :=
  (s.leases r.word).map fun l => if (l.cores (lnrGang r.word)).contains c then l.ttes c else []

/-- Change a record. -/
def State.modRecord (s : State) (id : Nat) (f : Record → Record) : State :=
  { s with records := s.records.map fun r => if r.id = id then f r else r }

/-- A record. -/
def State.record? (s : State) (id : Nat) : Option Record := s.records.find? (·.id == id)

/-- A record fails at its activation (R399, R404): the lease at fault, and whether an event tells of it. So does one whose lease list has
become uncorrectable (R366; log entry 89). -/
def State.unmappable (s : State) (r : Record) : Option (Nat × Bool) :=
  if s.leasesBad r.word then some (0, false)
  else match (s.leases r.word).find? (·.bad) with
  | some l => some (l.home, true)
  | none => match (s.leases r.word).find? fun l => (s.core l.home).life == .retired with
    | some l => some (l.home, false)
    | none => none

/-- The lease work of a record at the head of its queue (R314): once every gang core can take its entries they are written,
and replicated ranges begin to move; with nothing to move the leases are granted at once. -/
def State.leaseWork (s : State) (r : Record) : State :=
  let gang := lnrGang r.word
  if r.begun then s
  else if (s.unmappable r).isSome then
    (s.modRecord r.id fun r => { r with begun := true }).at 0 s.cyc pTick (.run (argFocus 0 r.id) .leaseGrant)
  else if gang.all fun c => (s.core c).canMap (s.recordTtes r c) then
    let s := gang.foldl (fun s c => s.modCore c fun k => k.map r.id (s.recordTtes r c)) (s.modRecord r.id fun r => { r with begun := true })
    let repl := (s.leases r.word).filter fun l => l.repl && !l.loc
    let size := fun (l : Lease) => 32768 * l.npg * pageUnits l.size
    let others := fun (l : Lease) => gang.filter (· != l.home)
    let moved := repl.filter fun l => others l != [] && size l != 0
    let s := { s with
      nextId := s.nextId + moved.length
      moves := s.moves ++ moved.zipIdx.map fun ((l : Lease), i) => (⟨r.id, l.home, l.hpbase, size l, if l.prop then 1 else 2,
        Vector.replicate 2 0, (others l).map fun c => (c, 0, 0), false, [], s.nextId + i⟩ : Move)
      pages := s.pages ++ repl.map fun (l : Lease) =>
        (⟨r.id, l.home, !l.prop, l.vbase, l.hpbase, size l,
          (others l).map fun c => (⟨c, l.hpbase, false, false, []⟩ : Replica), [], []⟩ : Repl) }
    if moved = [] then s.at 0 s.cyc pTick (.run (argFocus 0 r.id) .leaseGrant) else s
  else s

/-- The unit of protection of a record's launch-queue entry. -/
def Record.lqUnit (r : Record) : Nat := 64 * (4 * r.part + r.prio) + r.entry

/-- Class 0x1A, info 3 (R390, R393). -/
def isLq (e : Err) : Bool := e.cls == 0x1A && e.info == 3

/-- The walker reads a record's launch-queue entry (R366, R393): an uncorrectable one is class 0x1A, raised once against the partition's
lowest core, at the cycle after the read, from whose start on no bundle issues (R388; log entry 79). -/
def State.readEntry (s : State) (r : Record) (f : State → State) : State :=
  if s.marks.any fun m => m.store == .lq && m.hard && m.unit == r.lqUnit then
    if s.quarantine.contains r.part || s.shut.contains r.part then s
    else match (List.range 256).find? fun c => (s.core c).part.val == r.part with
      | some c =>
        if (s.agenda.any fun it => it.core == c && it.ev == .badEntry r.entry) || (s.core c).errs.any isLq then s
        else s.at c (s.cyc + 1) pNet (.badEntry r.entry)
      | none => s
  else f { s with marks := s.marks.filter fun m => !(m.store == .lq && m.unit == r.lqUnit) }

/-- See State.readEntry. -/
def State.badEntry (s : State) (c entry : Nat) : State :=
  if s.quarantine.contains (s.core c).part.val || (s.core c).errs.any isLq then s
  else s.raiseOn c { Err.plain 0x1A 3 15 (s.core c).lastAddr with loc := BitVec.ofNat 32 entry }

/-- The lease work of the records at the heads of the queues (R314). Of heads that wait for the same entries, the one of the lowest queue
number takes them, by partition and then by priority from 0 up (DESIGN CHOICE, log entry 123). -/
def State.headWork (s : State) : State :=
  s.lqs.foldl (fun s q => match q.2 with
    | id :: _ => match s.record? id with
      | some r => if r.begun then s else s.readEntry r fun s => s.leaseWork r
      | none => s
    | [] => s) s

/-- A record enters its queue (R306). -/
def State.enqueueRecord (s : State) (w : BitVec 1024) (part : Nat) : State :=
  let prio := lnr w 3 2
  let w := BitVec.ofNat 1024 (w.toNat - bits w.toNat 0 3 + part)
  let id := s.nextId
  let n := 4 * part + prio
  let entry := Sp.get 0 s.lqTail n
  ({ s with
    nextId := id + 1
    lqs := Sp.set [] s.lqs n (Sp.get [] s.lqs n ++ [id])
    lqTail := Sp.set 0 s.lqTail n ((entry + 1) % 64)
    marks := s.marks.filter fun m => !(m.store == .lq && m.unit == 64 * n + entry)
    records := s.records ++ [⟨id, entry, w, part, prio, false, false, false, 0, 0, [], 0, false⟩] } : State).headWork

/-- R314: the leases of a record are granted. -/
def execLeaseGrant (s : State) : Result := .next (s.modRecord s.focus.arg fun r => { r with granted := r.begun })

/-! ### Invalidates (R405, R406) -/

/-- R405: the entry of the focus argument is cleared; what is pending on it ends. -/
def execTranslationInvalidate (s : State) : Result :=
  let e := s.focus.arg % 64
  .next ((s.modCur fun k =>
    let t := Sp.get Tte.reset k.tt e
    { k with tt := Sp.set Tte.reset k.tt e { t with
        word := t.word &&& ~~~1, inval := none, owner := if t.valid.isSome then t.owner else none, fresh := t.fresh || k.life == .halted } }).headWork)

/-- The controller invalidates an entry of a core (R405): at once on a core that holds no task; else, on a halted core too, at its next
quiescent point, with a watchdog. -/
def State.invalidate (s : State) (c e : Nat) : State :=
  if (s.core c).life.holds then
    (s.modCore c fun k => { k with tt := Sp.set Tte.reset k.tt e { Sp.get Tte.reset k.tt e with inval := some s.cyc, valid := none } }).at
      c (s.cyc + 2 ^ 20) pEnd (.run (argFocus c e) .invalidateWatchdogExpiry)
  else s.at c s.cyc pNet (.run (argFocus c e) .translationInvalidate)

/-- R406: an invalidate still pending takes effect for lookups from the next cycle on, and class 0x12 is raised; one whose quiescent point
has come takes effect in this cycle, and is not pending. -/
def execInvalidateWatchdogExpiry (s : State) : Result :=
  let c := s.focus.core.val
  let e := s.focus.arg % 64
  let coming := s.agenda.any fun it => it.core == c && it.tick ≤ 3 * s.cyc + 2 && it.ev == .run (argFocus c e) .translationInvalidate
  .next (match (Sp.get Tte.reset s.cur.tt e).inval with
    | none => s
    | some t =>
      if t + 2 ^ 20 ≠ s.cyc || coming then s
      else (s.at c (s.cyc + 1) pTte (.run (argFocus c e) .translationInvalidate)).raiseOn c
        { Err.plain 0x12 0 15 s.cur.lastAddr with loc := BitVec.ofNat 32 e })

/-- What is pending on a core's table takes effect for lookups after the first tick of a cycle (R262, R405): invalidates
first, then, at a bundle with Q = 1, validations. -/
def State.quiesce (s : State) (c cyc : Nat) (valids : Bool) : State :=
  let k := s.core c
  let s := k.tt.foldl (fun s e => if e.2.inval.isSome then s.at c cyc pTte (.run (argFocus c e.1) .translationInvalidate) else s) s
  if valids then k.tt.foldl (fun s e => match e.2.valid with | some w => s.at c cyc pTte (.tte e.1 w) | none => s) s else s

/-- A validation takes effect (R262): the entry is written anew (R366). -/
def State.tteValid (s : State) (c e : Nat) (w : W64) : State :=
  s.modCore c fun k => if (Sp.get Tte.reset k.tt e).valid = some w then
    let t : Tte := { Tte.reset with word := w, owner := (Sp.get Tte.reset k.tt e).owner, fresh := k.life == .halted }
    Core.unmark { k with tt := Sp.set Tte.reset k.tt e t } .ttab e else k

/-! ### Completion (R307) -/

/-- Whether a record has bound all its iterations (R313). -/
def Record.allBound (r : Record) : Bool := r.failed || (lnrCount r.word ≤ r.next && r.returned == [])

/-- A record is complete (R307): its iterations are all bound, or it has failed, and the tasks that it started have ended. -/
def Record.complete (r : Record) : Bool := (r.active || r.failed) && r.allBound && r.running == 0

/-- R307, R362, R405: the leases are released, and the completion vector is raised with LNR.id and the failure. -/
def execRecordCompletion (s : State) : Result :=
  .next (match s.record? s.focus.arg with
    | none => s
    | some r =>
      let s := (lnrGang r.word).foldl (fun s c => ((s.core c).tt).foldl (fun s e =>
        if e.2.owner ≠ some r.id then s
        else if e.2.word.getLsbD 0 then (if e.2.inval.isNone then s.invalidate c e.1 else s)
        else s.modCore c fun k => { k with tt := Sp.set Tte.reset k.tt e.1 { Tte.reset with fresh := k.life == .halted } }) s) s
      let s := { s with records := s.records.filter (·.id != r.id), pages := s.pages.filter (·.record != r.id),
                        moves := s.moves.filter (·.record != r.id) }
      (s.msi ⟨8 * r.part + 1, some (BitVec.ofNat 32 (lnr r.word 768 32), r.failed)⟩).headWork)

/-- A record whose iterations are all bound and whose tasks have all ended completes (R307). -/
def State.checkRecord (s : State) (id : Nat) : State :=
  match s.record? id with
  | some r => if r.complete then s.at 0 s.cyc pNet (.run (argFocus 0 id) .recordCompletion) else s
  | none => s

/-! ### Activation, binding and preparation (R313-R317) -/

/-- Whether the previous record of a queue lets the next one activate (R313). -/
def State.prevAllows (s : State) (q : Nat) (after : Bool) : Bool :=
  match (s.lastAct.find? (·.1 == q)).bind fun x => s.record? x.2 with
  | none => true
  | some r => if after then r.complete else r.allBound

/-- Activation of the records at the heads of the queues at a compute boundary (R313, R404); the lease work of the records
that come to the heads begins (R314). -/
def State.activate (s : State) : State :=
  (s.lqs.foldl (fun s q => match q.2 with
    | [] => s
    | id :: rest => match s.record? id with
      | none => s
      | some r =>
        let timed := lnr r.word 6 1 = 1
        if s.prevAllows q.1 (lnr r.word 5 1 = 1) && r.granted && (!timed || lnr r.word 576 64 ≤ (s.timeNs s.cyc).toNat) then
          s.readEntry r fun s =>
          let s := { s with lqs := Sp.set [] s.lqs q.1 rest, nextId := s.nextId + 1, lastAct := Sp.put q.1 id s.lastAct }
          let s := s.modRecord id fun r => { r with active := true, order := s.nextId }
          match s.unmappable r with
          | some (home, post) =>
            let s := if post then s.postEvent r.part home 0x11 .e else s
            (s.modRecord id fun r => { r with failed := true }).checkRecord id
          | none => s.checkRecord id
        else s) s).headWork

/-- Whether a core is unbound (R91, R315): a slot result of its last task in flight, too, lands before the next task starts (DEDUCED, log
entry 128). -/
def State.unbound (s : State) (c : Nat) : Bool :=
  let k := s.core c
  k.life == .free && !s.slotBusy c && k.mx.seq.isNone && k.mx.busyTo ≤ s.cyc && k.mx.copyFree ≤ s.cyc && k.drain.isNone &&
    !s.rdBusy c && k.ch.run.isNone

/-- Power of a class (R323). -/
def State.pcw (s : State) (cls : Nat) : Nat :=
  if cls < 8 then bits s.pcwlo.toNat (8 * cls) 8 else bits s.pcwhi.toNat (8 * (cls - 8)) 8

/-- The budget in force (R430). -/
def State.powerBudget (s : State) : Nat :=
  let b := bits s.pwradm.toNat 0 16
  if s.emergency then b / 2 else b

/-- The arbiter's horizon. -/
def State.horizon (s : State) : Nat := bits s.pwradm.toNat 32 16

/-- The admission test of R322. -/
def State.fits (s : State) (draw : Nat) : Bool :=
  draw ≤ s.powerBudget || ((draw : Int) - s.powerBudget) * s.horizon ≤ s.credit

/-- Whether the walker admits new tasks (R429, R430). -/
def State.walks (s : State) : Bool := 0 ≤ s.credit && !s.emergency

/-- The draw with one more task of a class in place of an idle core (R322). -/
def State.withTask (s : State) (draw cls : Nat) : Nat := draw + s.pcw cls - s.pcw 0

/-- The entries of a section of u-byte entries, with their places (R311). -/
def State.sectionWords (s : State) (x : Section) (u : Nat) : List (Nat × Nat) :=
  (List.range (x.len / u)).map fun i => (x.dst + i, s.chunk.le (x.off + u * i) u)

/-- Whether a section writes the whole of an 8-byte word of a byte memory (R311, R366). -/
def Section.covers (x : Section) (u : Nat) : Bool := x.dst ≤ 8 * u && 8 * u + 8 ≤ x.dst + x.len

/-- Whether a section of entries writes one of them (R311, R366). -/
def Section.writes (x : Section) (size u : Nat) : Bool := x.dst ≤ u && u < x.dst + x.len / size

/-- Whether loading the code part of an image writes a unit of protection anew (R311, R366); of chain memory that is two commands. -/
def State.loads (s : State) (image : Nat) (m : Mark) : Bool :=
  let sec := s.imageSection image
  match m.store with
  | .imem => (sec 0).covers m.unit
  | .rtab => true
  | .rstore => (sec 4).writes 8 m.unit
  | .chainMem => (sec 5).writes 4 (2 * m.unit) && (sec 5).writes 4 (2 * m.unit + 1)
  | _ => false

/-- The code part of an image is loaded (R311, R315, R422). The routine table is cleared first (R216); what the image does not reach of
IMEM, the routine store and chain memory keeps what it held (DESIGN CHOICE, log entry 97). -/
def State.loadCode (s : State) (image : Nat) (q : Core) : Core :=
  let sec := s.imageSection image
  { q with
    imem := q.imem.storeAll (addressed (sec 0).dst (s.chunk.bytes (sec 0).off (sec 0).len))
    mx := { q.mx with
      rtab := (s.sectionWords (sec 3) 8).foldl (fun m e => Sp.set 0 m e.1 (BitVec.ofNat 64 e.2)) []
      rstore := (s.sectionWords (sec 4) 8).foldl (fun m e => Sp.set 0 m e.1 (BitVec.ofNat 64 e.2)) q.mx.rstore }
    ch := { q.ch with mem := (s.sectionWords (sec 5) 4).foldl (fun m e => Sp.set 0 m e.1 (BitVec.ofNat 32 e.2)) q.ch.mem }
    marks := q.marks.filter fun m => !s.loads image m }

/-- Word 0 of a window entry as a descriptor gives it, with its valid bit held back (R266, R267): reserved bits ignore the write (R7). -/
def wteWord (x : Nat) : W64 := BitVec.ofNat 64 x &&& 0xFFFFF7FFFFFFFF3E

/-- Preparation of a core for an iteration (R315): its length P, the sections, the window entries. A window that reaches past the end of SPM
is taken as it stands (DESIGN CHOICE, log entry 99), and of a descriptor's entry number the low five bits count (DESIGN CHOICE, log entry
100); its bytes 10-15 count for nothing, and of two descriptors of one entry the later stands (DESIGN CHOICE, log entry 125). All sections
are loaded at cycle 0 of the preparation, and an image whose preparation is cut short counts as loaded (DESIGN CHOICE, log entry 114). -/
def State.prepare (s : State) (c : Nat) (r : Record) (k : Nat) : State :=
  let image := lnr r.word 512 22
  let sec := s.imageSection image
  let same := (s.core c).image = some image
  let bt := (sec 1).len + (sec 2).len + (sec 6).len
  let bc := if same then 0 else (sec 0).len + (sec 3).len + (sec 4).len + (sec 5).len
  let cb := s.sectionWords (sec 2) 4
  let wins := s.sectionWords (sec 6) 16
  s.modCore c fun q =>
    let q := if same then q else s.loadCode image q
    let x := sec 1
    { q with
      marks := q.marks.filter fun m => !(m.store == .cbank || m.store == .window ||
        (m.store == .dmem && x.dst ≤ 8 * m.unit && 8 * m.unit + 8 ≤ x.dst + x.len))
      life := .prep, record := some r.id, iter := k, image := some image, prepEnd := s.cyc + 16 + (bt + 63) / 64 + (bc + 63) / 64
      dmem := q.dmem.storeAll (addressed (sec 1).dst (s.chunk.bytes (sec 1).off (sec 1).len))
      cbank := Vector.ofFn fun i => match cb.find? (·.1 == i.val) with | some e => BitVec.ofNat 32 e.2 | none => 0
      win := wins.foldl (fun w e =>
        let d := e.2
        let n : Fin 32 := ⟨bits d 64 5, Nat.mod_lt _ (by decide)⟩
        w.set n { Window.reset with word0 := wteWord d, expect := BitVec.ofNat 8 (bits d 72 8),
                                    count := BitVec.ofNat 8 (bits d 72 8), validNext := d % 2 = 1 }) (Vector.replicate 32 Window.reset)
      slim := BitVec.ofNat 18 (lnr r.word 659 18) }

/-- The lowest unbound iteration of a record (R316). -/
def Record.lowest (r : Record) : Option Nat :=
  match sortBy (fun x : Nat => x) r.returned with
  | k :: _ => some k
  | [] => if r.next < lnrCount r.word then some r.next else none

/-- Whether an uncorrectable chunk-store word spoils a section of an image that is to be loaded (R311, R366). -/
def State.sectionsBad (s : State) (image : Nat) (is : List Nat) : Bool :=
  s.chunkBad (64 * image) 64 || is.any fun i => let x := s.imageSection image i; s.chunkBad x.off x.len

/-- The code part of an image (R311). -/
def codePart : List Nat := [0, 3, 4, 5]

/-- Bind one iteration to a core (R316). A preparation that meets an uncorrectable word fails its record (R366; log entry 89). -/
def State.bind (s : State) (r : Record) (c k : Nat) : State :=
  let image := lnr r.word 512 22
  let bad := s.sectionsBad image ([1, 2, 6] ++ if (s.core c).image = some image then [] else codePart)
  let s := (s.modRecord r.id fun r => { r with
    next := if k = r.next then k + 1 else r.next, returned := r.returned.filter (· != k), running := r.running + 1 }).prepare c r k
  if bad then (s.modCore c fun k => { k with image := none }).failRecord r.id else s

/-- The weights of a partition (R316). -/
def State.weight (s : State) (p k : Nat) : Nat := max 1 (bits (Sp.get (0x8421 : W64) s.wrrw p).toNat (4 * k) 4)

/-- The credits of a partition (R316). -/
def State.creditOf (s : State) (p k : Nat) : Nat :=
  match s.credits.find? (·.1 == 4 * p + k) with | some x => x.2 | none => s.weight p k

/-- Set a credit. -/
def State.setCredit (s : State) (p k x : Nat) : State := { s with credits := Sp.put (4 * p + k) x s.credits }

/-- Binding in one partition (R316), with at most n steps. -/
def State.bindPart (s : State) (p : Nat) : Nat → State
  | 0 => s
  | n + 1 =>
    let free := fun (r : Record) => (lnrGang r.word).find? s.unbound
    let cand := s.records.filter fun r => r.active && !r.failed && r.part == p && r.lowest.isSome && (free r).isSome
      && s.fits (s.withTask s.draw (lnr r.word 8 4))
    if cand = [] then s
    else
      let prios := ([3, 2, 1, 0] : List Nat).filter fun k => cand.any (·.prio == k)
      match prios.find? fun k => 0 < s.creditOf p k with
      | none => (([0, 1, 2, 3] : List Nat).foldl (fun s k => s.setCredit p k (s.weight p k)) s).bindPart p n
      | some k =>
        match sortBy (·.order) (cand.filter (·.prio == k)) with
        | [] => s
        | r :: _ => match free r, r.lowest with
          | some c, some i => ((s.bind r c i).setCredit p k (s.creditOf p k - 1)).bindPart p n
          | _, _ => s

/-- Binding at a compute boundary (R316); a pre-empted or quarantined partition binds nothing (R364, R420). -/
def State.bindAll (s : State) : State :=
  if s.walks then ((List.range 8).filter fun p => !s.halted.contains p && !s.shut.contains p).foldl (fun s p => s.bindPart p 1024) s else s

/-- The tile indices of an iteration (R310): the innermost index of the order is the least significant digit. -/
def tileIndices (w : BitVec 1024) (k : Nat) : List (Nat × Nat) :=
  ((lnrOrder w).reverse.foldl (fun (acc, k) i => ((i, k % lnrBound w i) :: acc, k / lnrBound w i)) (([] : List (Nat × Nat)), k)).1

/-- The seed of an iteration (R310). -/
def seedOf (w : BitVec 1024) (k : Nat) : W64 :=
  let x := BitVec.ofNat 64 (lnr w 704 64) + rngSeed * BitVec.ofNat 64 k
  if x = 0 then rngSeed else x

/-- The registers at task start (R29, R92, R310). -/
def startRegs (w : BitVec 1024) (k : Nat) : Regs :=
  let idx := tileIndices w k
  let v := fun i => BitVec.ofNat 64 ((idx.find? (·.1 == i)).elim 0 (·.2))
  { Regs.reset with
    s := ((((((Regs.reset.s.set 1 (v 0)).set 2 (v 1)).set 3 (v 2)).set 4 (v 3)).set 29 (BitVec.ofNat 64 (lnr w 677 18))).set 30
      (BitVec.ofNat 64 (lnr w 640 19)))
    rngs := seedOf w k }

/-- Whether a task's start writes a unit of protection anew, beside the registers of R377 (R92, R210, R366). -/
def Store.atStart (st : Store) : Bool := [Store.h, .acc, .abuf, .latch, .shadow].contains st

/-- A task starts at cycle 0 of a compute phase (R29, R92, R210, R267). -/
def State.startTask (s : State) (c : Nat) : State :=
  match (s.core c).record.bind s.record? with
  | none => s
  | some r =>
    let s := { s with ops := s.ops.map fun (o : RemoteOp) => if o.core = c ∧ o.dev = s.device.toNat then { o with handle := none } else o }
    let s := s.drop c fun e => match e with | .setHandle .. => true | _ => false
    (s.modCore c fun k => { k.unmarkRegs with
      marks := k.unmarkRegs.marks.filter fun m => !m.store.atStart
      loose := [], known := []
      regs := startRegs r.word k.iter, handles := Vector.replicate 16 Handle.reset
      trap0 := 0, trap1 := 0, trap2 := 0, flt0 := 0, flt1 := 0
      mx := { Matrix.reset with rtab := k.mx.rtab, rstore := k.mx.rstore }
      accRegion := [], spmRegion := [], dmemRegion := []
      win := k.win.map fun w => { w with word0 := if w.validNext then w.word0 ||| 1 else w.word0, validNext := false }
      srcFree := 0, queues := Vector.replicate 5 [], pc := lnr r.word 24 19, flow := false, delay := none, issued := none, rfd := false
      errs := [], drain := none, parking := false, life := .task, task := k.task + 1, arrival := none, pclass := lnr r.word 8 4, deftClass := lnr r.word 8 4
      phase := none, barQ := false, barD := false, shadow := none, dayNext := none, replay := [], replayed := 0, opsLeft := 0, rolls := 0
      shift := 0, verify := none }).at c s.cyc pIssue .issue

/-- Tasks whose preparation has ended start, as far as the arbiter admits them (R315, R322): in ascending order of their cores (DESIGN
CHOICE, log entry 124). -/
def State.startPrepared (s : State) : State :=
  if !s.walks then s
  else s.cores.foldl (fun s x =>
    let k := s.core x.1
    match k.record.bind s.record? with
    | none => s
    | some r =>
      let d := s.withTask s.draw (lnr r.word 8 4)
      if k.life = .prep ∧ k.prepEnd ≤ s.cyc ∧ s.fits d ∧ !s.halted.contains k.part.val then
        { s with draw := d }.startTask x.1
      else s) s

/-- A task's part in its record is over (R307). -/
def State.releaseRecord (s : State) (c : Nat) : State :=
  match (s.core c).record with
  | none => s
  | some id => ((s.modCore c fun k => { k with record := none, lastRecord := some id }).modRecord id
      fun r => { r with running := r.running - 1 }).checkRecord id

/-- A task ends at a boundary (R30, R267, R362, R402): its windows are closed, applied and cleared, its chain is stopped, and what is
pending on its translation entries takes effect. An error that this meets is one of a task that has ended (R388). -/
def State.finishTask (s : State) (c : Nat) : State :=
  let s := ((List.finRange 32).foldl (fun (s : State) (e : Fin 32) => (s.rejectWaiting c e).closeWindow c e) s).flushApplies c
  let s := match (s.core c).ch.run with | some r => if r.firmware then s else s.stopChain c s.now | none => s
  let s := s.quiesce c s.cyc true
  let s := s.modCore c fun k => { k with
    win := k.win.map fun w => { w with word0 := w.word0 &&& ~~~1, validNext := false }
    life := if k.life = .retired then .retired else .free
    arrival := none, issued := none, delay := none, rfd := false, shadow := none, dayNext := none, verify := none, shift := 0, phase := none
    queues := Vector.replicate 5 [], barQ := false, barD := false, pclass := 0, drain := none, parking := false }
  s.releaseRecord c

/-! ### LAUNCH (R318, R319) -/

/-- R318, R319: a misplaced record answers 3; else the record is read one cycle later, and the status lands at c + 2. -/
def execLaunch (g : Guard) (a d : Fin 32) (s : State) : Result :=
  s.slot g fun s => s.mayWrite d fun s =>
    s.onceOnly (fun st s => s.result 2 (.s d (BitVec.ofNat 64 st))) fun s =>
      s.later (s.cyc + 1) pRead (.launchRead s.focus (s.cur.readS a).toNat d)

/-- The record of a LAUNCH is read (R319) and joins its queue; the status lands one cycle later. -/
def State.launchRead (s : State) (c a : Nat) (d : Fin 32) : State :=
  let issued := s.cyc - 1
  let put := fun (s : State) (st : Nat) => (s.acted c issued st).at c (s.cyc + 1) pLand (.land rEngine (.s d (BitVec.ofNat 64 st)))
  if a % 64 ≠ 0 ∨ 0x40000 < a + 128 then put s 3
  else
    let (res, s) := s.readBytes c false 0 15 (s.core c).lastAddr ((List.range 128).map (a + ·))
    match res with
    | none => s
    | some bs =>
      let part := (s.core c).part.val
      let x := ofLe bs
      let w := BitVec.ofNat 1024 (x - x % 8 + part)
      let st := s.enqueueStatus w part
      put (if st = 0 then s.enqueueRecord w part else s) st

end Sys2Proof.Machine
end

