-- ==== Sys2Proof/Machine/Cadence.lean ====
section
/-! DEFINITION. The cadence: arrivals and their counting (R34-R37, R292), the decision and parking (R38, R416-R418), the two
drives (R43-R46), power admission (R321, R322, R429), the boundary (R40, R431) and scope barriers (R49-R51). -/

namespace Sys2Proof.Machine

open Sys2Proof

/-! ### Scope barriers (R50) -/

/-- Whether member m counts as having reached a barrier for core w (R50, R417): a parked core counts as arrived in the
package's phases, and for a parked core every core that is not parked counts. -/
def State.reached (s : State) (w m : Nat) (die : Bool) : Bool :=
  let k := s.core m
  k.life != .task || k.arrival.isSome || (if die then k.barD else k.barQ) || k.phase.isSome != (s.core w).phase.isSome

/-- The members of a scope barrier (R50): the cores of the quad or die that lie in the partition. -/
def State.barrierMembers (s : State) (c : Nat) (die : Bool) : List Nat :=
  let n := if die then 64 else 4
  ((List.range n).map (n * (c / n) + ·)).filter fun m => (s.core m).part == (s.core c).part

/-- Whether a core waits on a barrier. -/
def Core.waitsOn (k : Core) (die : Bool) : Bool :=
  match k.issued with | some i => i.waits.contains (.barrier die) | none => false

/-- The release of each waiting core of the quad or die whose last member counts at this cycle (R50). A BAR of which every member counts
already, a second one of its scope in a phase, counts from its own issue cycle (DESIGN CHOICE, log entry 92). -/
def State.checkBarrier (s : State) (c : Nat) (die : Bool) : State :=
  (s.barrierMembers c die).foldl (fun s w =>
    if (s.core w).waitsOn die && (s.barrierMembers w die).all (s.reached w · die) then
      let ev := Ev.run (coreFocus w) (.barrierRelease die)
      if s.agenda.any fun it => it.core == w && it.ev == ev then s else s.at w (s.cyc + if die then 12 else 4) pNet ev
    else s) s

/-- Both barriers of a core (R50). -/
def State.checkBarriers (s : State) (c : Nat) : State := (s.checkBarrier c false).checkBarrier c true

/-- R50: a waiting core goes on. -/
def execBarrierRelease (die : Bool) (s : State) : Result :=
  .next (s.modIssued fun i => { i with waits := i.waits.filter (· != .barrier die) })

/-- R49-R51. -/
def State.bar (s : State) (die : Bool) : State :=
  ((s.waitFor (.barrier die)).modCur fun k => if die then { k with barD := true } else { k with barQ := true }).checkBarrier
    s.focus.core.val die

/-- R49-R51. -/
def execBarQuad (g : Guard) (s : State) : Result := s.slot g fun s => s.bar false

/-- R49-R51. -/
def execBarDie (g : Guard) (s : State) : Result := s.slot g fun s => s.bar true

/-! ### Arrivals (R34-R36) -/

/-- R35, R36: the operands are recorded, and the arrival is counted from this cycle on. -/
def State.arriveNow (s : State) (a b : Fin 32) (ends : Bool) : State :=
  let x := s.cur.readS a
  let y := (s.cur.readS b).toNat
  let c := s.focus.core.val
  ((s.modCur fun k => k.arrive s.cyc (x.setWidth 32) (bits y 0 4) (bits y 8 20) ends).checkArrival c s.cyc).checkBarriers c

/-- R34-R36. -/
def execCadv (g : Guard) (a b : Fin 32) (s : State) : Result := s.slot g fun s => s.arriveNow a b false

/-- R34-R36. -/
def execCadvEnd (g : Guard) (a b : Fin 32) (s : State) : Result := s.slot g fun s => s.arriveNow a b true

/-! ### The power arbiter (R321, R322) -/

/-- The draw of an idle package (R321). -/
def State.idleDraw (s : State) : Nat := bits s.pwradm.toNat 16 16 + 256 * s.pcw 0

/-- The ceiling of the credit (R321). -/
def State.creditCap (s : State) : Nat := s.powerBudget * s.horizon

/-- The credit after n cycles of one gain (R321). -/
def creditRun (a gain cap : Int) (n : Nat) : Int :=
  if n = 0 then a else min (min (a + gain) cap + (n - 1 : Nat) * gain) cap

/-- The credit of the cycles before one, with the phase's draw through the decision cycle and the idle draw after it. -/
def State.accrue (s : State) (upto : Nat) : State :=
  let mid := match s.decided with | some d => min upto (d + 1) | none => upto
  let a := creditRun s.credit ((s.powerBudget : Int) - s.draw) s.creditCap (mid - s.creditAt)
  let a := creditRun a ((s.powerBudget : Int) - s.idleDraw) s.creditCap (upto - max mid s.creditAt)
  { s with credit := a, creditAt := max upto s.creditAt }

/-! ### Parking (R416-R418) -/

/-- Every interval of a core closes (R269, R416): requests that wait are rejected. -/
def State.closeAll (s : State) (c : Nat) : State :=
  (List.finRange 32).foldl (fun (s : State) (e : Fin 32) => (s.rejectWaiting c e).closeWindow c e) s

/-- Whether the drain of a core leads to the end of its task: such a core is never a straggler (R362, R371). -/
def Core.ending (k : Core) : Bool := k.drain.any k.endsTask

/-- A core is parked (R416): its intervals close, and its phase becomes its own. The rest of the cycle's errors are resolved with it at the
end of the cycle (R355; State.park). -/
def State.parkCore (s : State) (c : Nat) : State :=
  let s := s.closeAll c
  (s.modCore c fun k => { k with phase := some (s.count.toNat, s.phStart), parking := true }).at c s.cyc pEnd .endCycle

/-- The cores that the boundary awaits (R31, R33, R417): those that hold a task and are not parked, halted or retired. -/
def State.awaited (s : State) : List Nat :=
  (s.cores.filter fun x => x.2.life == .task && x.2.phase.isNone).map (·.1)

/-- Whether an arrival counts. -/
def Core.arrived (k : Core) : Bool := match k.arrival with | some a => a.counted.isSome | none => false

/-- The stragglers at a decision cycle are parked (R38, R416); the intervals of a core whose drain ends its task close. -/
def State.parkStragglers (s : State) : State :=
  let late := s.awaited.filter fun c => !(s.core c).arrived
  let s := late.foldl (fun s c => if (s.core c).ending then s.closeAll c else s.parkCore c) s
  late.foldl (fun s c => s.checkBarriers c) s

/-! ### The decision (R38, R48) -/

/-- Whether a parked core rejoins at the boundary to come (R418): its arrival has counted, before the boundary's cycle 0 (R434), and the
phase that follows has the type that follows its own. -/
def State.rejoins (s : State) (k : Core) : Bool :=
  match k.phase, k.arrival with
  | some (n, _), some a => a.counted.isSome && n % 2 == s.count.toNat % 2
  | _, _ => false

/-- The queued commands of a core whose start lies after this cycle are discarded, each with class 0x08, info 5 (R48, R385). -/
def State.discardOf (s : State) (c : Nat) : State :=
  let d := s.cyc
  let late := ((s.core c).queues.toList.map fun q => q.filter fun x => d < x.start).flatten
  if late = [] then s
  else
    let s := { s with agenda := s.agenda.filter fun it => !(it.core == c && it.ev.isStart && 3 * d + 2 < it.tick) }
    let s := s.modCore c fun k => { k with queues := k.queues.map fun q => q.filter fun x => x.start ≤ d }
    late.foldl (fun s x => s.raiseOn c (Err.plain 8 5 8 x.addr)) s

/-- The decision discards late commands of the cores that the boundary awaits, and of the parked cores that rejoin there, whose own phase
it ends (R48, R385; DEDUCED, log entry 93). -/
def State.discardLate (s : State) : State :=
  (s.awaited ++ (s.cores.filter fun x => x.2.life == .task && s.rejoins x.2).map (·.1)).foldl (fun s c => s.discardOf c) s

/-- The phase is decided at this cycle (R38). -/
def State.decideNow (s : State) : State :=
  let s := { s.discardLate with decided := some s.cyc }
  s.at 0 (s.cyc + 32) pBoundary (.run Focus.reset .powerAdmission)

/-- Whether a core without a task arrives in an exchange phase while an update of its pages is not yet in place (R302). -/
def Life.idle : Life → Bool
  | .free | .prep | .retired => true
  | _ => false

/-- Under the barrier-driven drive the phase is decided when every core has arrived (R33, R38); the owner of a replicated page that holds
no task arrives once its update is in place (R302). -/
def State.tryDecide (s : State) : State :=
  if s.driven || s.decided.isSome || !s.released then s
  else if (s.awaited.all fun c => (s.core c).arrived) &&
      (!s.count.getLsbD 0 || s.pages.all fun r => !(s.core r.owner).life.idle || r.todo == []) then s.decideNow
  else s

/-! ### Counting an arrival (R292) -/

/-- Commands of a core's phase that have neither delivered their visibility event nor been rejected (R292). -/
def State.phaseOps (s : State) (c : Nat) : Bool :=
  let k := s.core c
  let n := (s.countOf c).toNat
  k.queues[QueueId.remote.idx] != [] || k.queues[QueueId.coll.idx] != [] ||
    s.ops.any (fun o => o.core == c && o.dev == s.device.toNat && o.phase == n && !o.nvDone) ||
    s.calls.any fun x => x.members.any fun m => m.core == c && m.phase == n

/-- The fence windows that hold an arrival back under the barrier-driven drive (R292). -/
def Window.fenceOpen (w : Window) : Bool := w.mode == 0 && w.state != 0 && w.expect != 0

/-- The intervals that an exchange-phase arrival closes (R269): at the arrival, but under the barrier-driven drive, while a fence window
still expects operations (R292), for the fence windows with expect > 0, which accept until all of them read 0 and then close together; a
timed one and a fence window with expect 0 close at the arrival (DESIGN CHOICE, log entry 121). -/
def State.closeAtArrival (s : State) (c : Nat) : State :=
  let ws := (s.core c).win.toList
  let hold := !s.driven && ws.any fun w => w.fenceOpen && w.count != 0
  (List.finRange 32).foldl (fun (s : State) (e : Fin 32) =>
    if hold && (s.core c).win[e].fenceOpen then s else (s.rejectWaiting c e).closeWindow c e) s

/-- Whether an exchange-phase arrival counts now (R292, R302). -/
def State.mayCount (s : State) (c : Nat) : Bool :=
  !s.phaseOps c && (s.core c).win.toList.all (fun w => w.state == 0 && !w.applying) && s.updatesIn c

/-- An arrival counts; one of a parked core that counts once the decision has come meets then what the decision does (DEDUCED, log entry
93). -/
def State.countArrival (s : State) (c : Nat) : State :=
  let decided := s.decided.isSome
  let s := s.modCore c fun k => { k with arrival := k.arrival.map fun (a : Arrival) => { a with counted := some s.cyc } }
  (if decided ∧ s.rejoins (s.core c) then s.discardOf c else s).tryDecide

/-- R36, R292: a compute-phase arrival counts at its cycle, an exchange-phase arrival at the first cycle that its conditions
allow, and a task end at the last cycle of its drain (R362). -/
def execArrivalCount (s : State) : Result :=
  let c := s.focus.core.val
  .next (match s.cur.arrival with
    | none => s
    | some a =>
      if a.counted.isSome then s
      else if a.forced then ((s.closeAll c).countArrival c).checkBarriers c
      else if !s.exchange c then s.countArrival c
      else
        let s := s.closeAtArrival c
        if s.mayCount c then s.countArrival c else s.at c (s.cyc + 1) pEnd (.run s.focus .arrivalCount))

/-- R38, R416: the budget expires with a core not yet arrived. The decision comes at the start of cycle B, so that a core that arrives in
cycle B itself is parked (DESIGN CHOICE, log entry 91). -/
def execStragglerBudgetExpiry (s : State) : Result :=
  .next (if s.driven || s.decided.isSome || s.budget == 0 || s.phStart + s.budget != s.cyc then s
    else s.parkStragglers.decideNow)

/-! ### The time-driven drive (R44) -/

/-- The first core cycle that starts at or after a beacon time, while TIME runs. -/
def State.cycleAt (s : State) (t : Nat) : Nat :=
  let y := t * 65536 - s.timeBase
  let a := 5 * 65536 * (1000000000 + s.rate).toNat
  s.timeFrom + if a = 0 then 0 else (y * 3000000000 + a - 1) / a

/-- Place the next scheduled boundary's decision (R44), once and as TIME tells it now. -/
def State.placeBoundary (s : State) : State :=
  if s.driven && s.disciplined then
    (s.drop 0 fun e => e == .run Focus.reset .timeDrivenBoundary).at 0 (s.cycleAt s.tbound.toNat - 32) pTick
      (.run Focus.reset .timeDrivenBoundary)
  else s

/-- R44: the decision cycle of a scheduled boundary; a rate correction since may have moved it. -/
def execTimeDrivenBoundary (s : State) : Result :=
  .next (if !s.driven || s.decided.isSome || !s.disciplined then s
    else if s.cyc + 32 < s.cycleAt s.tbound.toNat then s.placeBoundary
    else s.parkStragglers.decideNow)

/-- Whether a schedule breaks R55. -/
def badSchedule (ctl tper : W64) : Bool := ctl.getLsbD 1 && (1900 < bits tper.toNat 0 32 || 1900 < bits tper.toNat 32 32)

/-- R44: at cycle 0 of the waiting phase, a pending arming is rejected with status 6 when T0 has come too close or R55
forbids the schedule; else it takes effect. The command completes. DESIGN CHOICE (log entry 71): an arming taken while the time-driven
drive is active, of which R44 says nothing, replaces the running schedule in the same way. -/
def execArmingCheck (s : State) : Result :=
  .next (match s.arming with
    | none => s
    | some a =>
      let s := { s with arming := none }
      let late := 3 * 65536 * (a.regs.tbase.toNat : Int) - 320 * 65536 < 3 * (s.timeFix s.cyc : Int)
      if late ∨ badSchedule a.regs.ctl a.regs.tper then s.complete a.slot 6
      else
        let s := { s with cad := a.regs, cadNew := a.regs, driven := true, reverting := false, tbound := a.regs.tbase, armed := a.count
                          needsArmtd := s.needsArmtd && a.count.isNone }
        (s.complete a.slot 1).placeBoundary)

/-! ### Power admission (R322, R429) -/

/-- The restored core of a pre-empted partition that goes on at the boundary to come (R422). -/
def State.resumes (s : State) (c : Nat) : Bool :=
  s.saved.any fun x => x.core == c && x.count.getLsbD 0 == s.count.getLsbD 0 && x.ready.elim false (· < s.cyc)

/-- Whether a core's task ends at the boundary to come, by its arrival (R30, R362, R418). -/
def State.taskEnds (s : State) (k : Core) : Bool :=
  match k.arrival with
  | some a => a.ends && a.counted.isSome && k.drain.isNone && (k.phase.isNone || a.forced || s.rejoins k)
  | none => false

/-- The class that a core declares for the next phase (R321, R40): the cores of a partition that is halted or quarantined at
this boundary declare class 0. -/
def State.declared (s : State) (c : Nat) (k : Core) : Nat :=
  let own := match k.arrival with | some a => if a.pclass = 0 then k.deftClass else a.pclass | none => k.pclass
  if s.quarantine.contains k.part.val || (s.preempt.contains k.part.val && k.life == .task) || s.taskEnds k then 0
  else match k.life with
    | .task => if k.phase.isSome && !s.rejoins k then k.pclass else own
    | .halted => if s.resumes c then own else 0
    | _ => 0

/-- The next phase's draw before the walker adds tasks (R321). -/
def State.nextDraw (s : State) : Nat :=
  s.idleDraw + (s.cores.map fun x => s.pcw (s.declared x.1 x.2)).sum - s.cores.length * s.pcw 0

/-- The phase is admitted at this cycle. -/
def State.admitPhase (s : State) (draw : Nat) (od : Bool) : State :=
  let d := s.decided.getD 0
  let s := { s with draw := draw, held := s.cyc - (d + 32) }
  let s := if od then { s with perrst := setField s.perrst 33 1 1 }.postPackage 0x19 else s
  s.at 0 s.cyc pBoundary (.run Focus.reset .phaseBoundary)

/-- An emergency ends at the first boundary at which the alarm is released and every stack's last report is below 90
degrees (R430). -/
def State.endEmergency (s : State) : State :=
  if s.emergency && !s.alarm && s.temps.toList.all (fun t => t.toInt < 90) then
    { s with emergency := false, perrst := setField s.perrst 34 1 0 }
  else s

/-! ### What tasks meet at a boundary (R40, R431) -/

/-- A drain that the end of its task cuts short has ended in the cycle before (R371): TRAPREC is written, and the error's record tells
of the task end, or of a retirement (R354, R358). An error of class 0x1C forgets the last loaded image (R362). -/
def State.cutDrain (s : State) (c : Nat) (d : Drain) : State :=
  let k := s.core c
  let act := if k.finalAct d.err = .r then Recovery.r else .e
  let s := s.modCore c fun k => (k.writeTrap d.err d.cad d.cyc (s.cyc - 1 - d.f)).noteError d.err.cls d.multi
  let s := if k.finalAct d.err = .q then s else s.postAt k.part.val c d.err.cls act d.cad
  s.modCore c fun k => { k with
    image := if d.err.cls = 0x1C then none else k.image
    life := if act = .r then .retired else k.life, cerrst := if act = .r then setField k.cerrst 37 1 1 else k.cerrst }

/-- A task is ended by R362 at a boundary: it issues nothing more, and its record fails. A drain of an RFD that would have ended the task
posts its record (R376). -/
def State.killTask (s : State) (c : Nat) : State :=
  let s := s.drop c fun e => e.isIssue || e.isStart
  let k := s.core c
  let s := match k.drain with
    | some d =>
      if d.verify || d.parked then s
      else if d.rfd then (if k.returns then s else (s.modCore c (·.noteError k.rfdClass false)).postAt k.part.val c k.rfdClass .e d.cad)
      else s.cutDrain c d
    | none => s
  let s := match (s.core c).record with | some id => s.failRecord id | none => s
  s.finishTask c

/-- The cores of a partition. -/
def State.coresOf (s : State) (p : Nat) : List Nat := (s.cores.filter fun x => x.2.part.val == p).map (·.1)

/-- The count that the boundary to come begins (R32, R44). -/
def State.nextCount (s : State) : BitVec 48 := match s.armed with | some n => n | none => s.count + 1

/-- The intervals that a boundary into the phase of a count opens (R40 step 1, R269), and the counts of the entries that are closed. -/
def State.openWindows (s : State) (c : Nat) (fence : Option W32) (count : BitVec 48) : State :=
  (List.finRange 32).foldl (fun (s : State) (e : Fin 32) =>
    let w := (s.core c).win[e]
    let opens := count.getLsbD 0 && w.valid && w.state == 0 && !w.applying &&
      match fence with | some m => w.mode == 3 || (w.mode == 0 && m.getLsbD e.val) | none => false
    if opens then s.withWin c e fun s => s.opens c e 1 (BitVec.ofNat 16 (count.toNat / 2))
    else if w.state = 0 then s.modWin c e fun w => { w with count := w.expect, opened := [] }
    else s) s

/-- Step 3 (R54, R420): a partition's cores that have arrived halt, its parked tasks end, and iterations in preparation return. The
intervals that a halting core's arrival opens (R40 step 1) close with it (log entry 82). -/
def State.preemptPart (s : State) (p : Nat) : State :=
  let cs := s.coresOf p
  let parked := cs.filter fun c => (s.core c).life == .task && (s.core c).phase.isSome && !s.taskEnds (s.core c)
  let s := parked.foldl (fun s c => (s.killTask c).postEvent p c 0x16 .e) s
  let s := (cs.filter fun c => (s.core c).life == .prep).foldl (fun s c =>
    let k := s.core c
    let s := match k.record with
      | some id => s.modRecord id fun r => { r with running := r.running - 1, returned := k.iter :: r.returned }
      | none => s
    s.modCore c fun k => { k with life := .free, record := none }) s
  let halts := cs.filter fun c =>
    (s.core c).life == .task && (s.core c).arrived && (s.core c).drain.isNone && !s.taskEnds (s.core c)
  let s := halts.foldl (fun s c =>
    let s := (s.openWindows c ((s.core c).arrival.map (·.fence)) s.nextCount).closeAll c
    (s.modCore c fun k => { k with life := .halted, issued := none }).at c s.cyc pEnd (.run (coreFocus c) .contextSave)) s
  let s := match halts with | c :: _ => s.postEvent p c 0x16 .h | [] => s
  { s with halted := s.halted ++ [p], saved := s.saved ++ halts.map fun c => (⟨c, s.count, false, none⟩ : Saved) }

/-- The requests for pre-emption that have arrived are taken (R40, R54, R420), but for those of a partition that is being quarantined,
which prevails (R431). -/
def State.takePreempts (s : State) : State :=
  (s.preempt.filter fun p => !s.quarantine.contains p).foldl (fun s p =>
    { (s.preemptPart p) with preempt := s.preempt.filter (· != p) }) s

/-- The state on which the arbiter's test at a cycle is made: register writes take effect at d + 32 (R323), and there a pre-empted core
halts, which no hold delays; a request that arrives during the hold is taken then (R40, R54). -/
def State.atAdmission (s : State) (cyc : Nat) : State :=
  let s := s.accrue cyc
  let s := if s.decided = some (cyc - 32) then { s with pwradm := s.pwrNew[0], pcwlo := s.pwrNew[1], pcwhi := s.pwrNew[2] } else s
  let s := if s.decided = some (cyc - 32) then s.endEmergency else s
  { s with credit := min s.credit s.creditCap }.takePreempts

/-- The arbiter's test on that state (R322, R429): none while it holds the boundary; else whether the phase is an overdraft, which is
admitted under the time-driven drive, when an idle package already draws the budget, or when the credit has reached its ceiling with S
above twice the budget. -/
def State.admits (s : State) : Option Bool :=
  let draw := s.nextDraw
  if s.fits draw then some false
  else if s.driven || s.powerBudget ≤ s.idleDraw || (2 * s.powerBudget < draw && (s.creditCap : Int) ≤ s.credit) then some true
  else none

/-- R322, R429: the phase is admitted, or the boundary is held for a cycle. -/
def execPowerAdmission (s : State) : Result :=
  let s := s.atAdmission s.cyc
  .next (match s.admits with
    | some od => s.admitPhase s.nextDraw od
    | none => s.at 0 (s.cyc + 1) pBoundary (.run Focus.reset .powerAdmission))

/-- Tick 0 of a core's next phase, where the arbiter's test tells that it begins within two cycles (R38, R322): its chain's samplings and
lookups ahead of that phase's commands need it (R249, R261). -/
def State.nextTick (s : State) (c : Nat) : Option Nat :=
  let k := s.core c
  match s.decided with
  | none => none
  | some d =>
    if s.taskEnds k || (k.phase.isSome && !s.rejoins k) then none
    else (([1, 2] : List Nat).find? fun i => d + 32 ≤ s.cyc + i && (s.atAdmission (s.cyc + i)).admits.isSome).map fun i => 3 * (s.cyc + i)

/-! ### The boundary (R40, R431) -/

/-- Step 2 (R30, R364): tasks end, those of a partition that is quarantined too, whose tables are cleared. -/
def State.endTasks (s : State) : State :=
  let s := (s.cores.filter fun x => s.taskEnds x.2).foldl (fun s x => s.finishTask x.1) s
  let s := s.quarantine.foldl (fun s p => (s.coresOf p).foldl (fun s c =>
    let s := if (s.core c).record.isSome then s.killTask c else s
    s.modCore c fun k => { k with
      life := if k.life = .retired then .retired else .free, tt := [], win := Vector.replicate 32 Window.reset
      marks := k.marks.filter fun m => !(m.store == .window || m.store == .ttab) }) s) s
  { s with shut := s.shut ++ s.quarantine.filter (fun p => !s.shut.contains p), saved := s.saved.filter fun (x : Saved) => (s.core x.core).life == .halted,
           quarantine := [], preempt := s.preempt.filter fun p => !s.quarantine.contains p }

/-- The resumption of partitions (R422): their cores are restored and their records bind again. -/
def State.takeResumes (s : State) : State :=
  let s := s.resuming.foldl (fun s p =>
    (s.saved.filter fun x => (s.core x.core).part.val == p).foldl (fun s x =>
      s.at x.core s.cyc pEnd (.run (coreFocus x.core) .contextRestore)) s) s
  { s with halted := s.halted.filter fun p => !s.resuming.contains p, resuming := [] }

/-- PARTSET takes effect (R349), on quads whose cores all hold no task; a quarantine ends once its quads are named again. -/
def State.applyPartset (s : State) : State :=
  let lifted := s.shut.filter fun p => !((List.range 64).all fun q =>
    (s.core (4 * q)).part.val != p || s.partset.any fun x => x.1 == q)
  let s := s.partset.foldl (fun s x =>
    let cs := (List.range 4).map (4 * x.1 + ·)
    if cs.all fun c => (s.core c).life != .task && (s.core c).life != .halted then
      cs.foldl (fun s c => s.modCore c fun k => { k with part := ⟨x.2 % 8, Nat.mod_lt _ (by decide)⟩ }) s
    else s) s
  { s with partset := [], shut := if s.partset = [] then s.shut else lifted }

/-- The fence mask of the arrival with which a core ends the package's phase at this boundary (R36, R418, R422). -/
def State.fenceMask (s : State) (c : Nat) (k : Core) : Option W32 :=
  if k.arrived && (if k.life == .task then k.phase.isNone || s.rejoins k else k.life == .halted && s.resumes c) then
    k.arrival.map (·.fence)
  else none

/-- A core that goes on into the phase that begins now (R36, R418, R422): it issues at cycle 0. A taken branch or RFD whose delay bundle
its arrival has held back goes on (R140, R376). -/
def State.continueTask (s : State) (c cls : Nat) : State :=
  ((s.modCore c fun k => { k with
    life := .task, arrival := none, pclass := cls, phase := none, shift := 0, shadow := none, dayNext := none, replay := [], replayed := 0
    opsLeft := 0, rolls := 0, verify := none, barQ := false, barD := false, issued := none }).quiesce c s.cyc false).at
      c s.cyc pIssue .issue

/-- The effective budget of the next phase (R39). -/
def State.nextBudget (s : State) (carried : List Nat) : Nat :=
  let cs := carried ++ [bits s.cad.ctl.toNat 2 20, if s.cad.ctl.getLsbD 1 then 1100 else 0]
  match sortBy (fun x : Nat => x) (cs.filter (· != 0)) with | b :: _ => b | [] => 0

/-- The counter takes its next value (R32, R44), registers that waited take effect (R41, R42), a drive that reverts is barrier-driven
from here on (R428, R430, R431), and the next scheduled boundary is placed (R44). CADTBASE of an active schedule stays. -/
def State.stepCadence (s : State) : State :=
  let was := s.driven
  let ctl := if s.reverting then setField s.cadNew.ctl 0 1 0 else s.cadNew.ctl
  let new := { s.cadNew with ctl := ctl }
  let s := { s with
    count := s.nextCount, armed := none, phStart := s.cyc, decided := none, reverting := false
    cad := if ctl.getLsbD 0 then { new with tbase := s.cad.tbase } else new
    cadNew := new, driven := ctl.getLsbD 0 }
  if was && s.driven then
    let per := if s.count.getLsbD 0 then bits s.cad.tper.toNat 32 32 else bits s.cad.tper.toNat 0 32
    { s with tbound := s.tbound + BitVec.ofNat 64 per }.placeBoundary
  else s

/-- R40, R299, R431: intervals have closed and those of the ending phase's arrivals open; tasks end; pre-emption is taken; power has been
admitted; the walker binds; parked cores rejoin; the counter increments and the next phase begins. Replicas switch for lookups from
cycle 0 on (R303), and invalidates that are pending on a core that holds a task and has arrived take effect, on a halted one too (R405). What
a task that ends here opens closes with it at once (log entry 82). What a port has yet to apply of the phase that ends is applied first
(R192, log entry 101). -/
def execPhaseBoundary (s : State) : Result :=
  let carried := (s.cores.filter fun x => x.2.arrived && (x.2.phase.isNone || s.rejoins x.2) &&
    (x.2.life != .halted || s.saved.any fun y => y.core == x.1 && y.count == s.count)).filterMap fun x => x.2.arrival.map fun a => a.budget
  let s : State := (s.cores.filter fun x => x.2.phase.isNone && x.2.win.toList.any (·.applying)).foldl
    (fun (s : State) x => s.flushApplies x.1) s
  let s : State := { s with cores := s.cores.map fun x => (x.1, x.2.ordered (s.decided.getD s.cyc)) }
  let s : State := s.cores.foldl (fun (s : State) x => s.openWindows x.1 (s.fenceMask x.1 x.2) s.nextCount) s
  let s : State := s.endTasks.takePreempts.takeResumes.applyPartset
  let goes := (s.cores.filter fun x => x.2.drain.isNone && (s.fenceMask x.1 x.2).isSome).map fun x => (x.1, s.declared x.1 x.2)
  let s : State := s.stepCadence
  let s : State := { s with budget := s.nextBudget carried }
  let s : State := goes.foldl (fun (s : State) x => s.continueTask x.1 x.2) s
  let s : State := (s.cores.filter fun x => x.2.life.holds && x.2.phase.isNone && x.2.arrival.isSome).foldl
    (fun (s : State) x => s.quiesce x.1 s.cyc false) s
  let s : State := { s with saved := s.saved.filter fun (x : Saved) => (s.core x.core).life == .halted }
  let s : State := s.cores.foldl (fun (s : State) x => if x.2.phase.isNone then s.releaseWaitt x.1 else s) s
  let s : State := if s.count.getLsbD 0 then { s with
      pages := s.pages.zipIdx.map fun x => x.1.update (3 * s.cyc) (s.freeCtr + 4 * x.2)
      freeCtr := s.freeCtr + 4 * s.pages.length }
    else (if s.pages = [] then s else s.at 0 s.cyc pTte .switchPages).activate.startPrepared.bindAll
  let s : State := if s.count.getLsbD 0 && s.arming.isSome then s.at 0 s.cyc pBoundary (.run Focus.reset .armingCheck) else s
  let s : State := if s.budget = 0 then s else s.at 0 (s.cyc + s.budget) pBoundary (.run Focus.reset .stragglerBudgetExpiry)
  let s : State := s.cores.foldl (fun (s : State) x => if x.2.phase.isSome then s.checkBarriers x.1 else s) s
  .next (s.at 0 s.cyc pEnd .decide)

end Sys2Proof.Machine
end

