-- ==== Sys2Proof/Machine/Fabric.lean ====
section
/-! DEFINITION. The outside of the package: stations (R333-R335, R423), beacon time (R339, R340, R428), the power alarm and the
stacks' reports (R352, R408, R409, R430), and what other devices forward (R338, R358). -/

namespace Sys2Proof.Machine

open Sys2Proof

/-! ### Stations (R333, R423) -/

/-- The station of the focus argument. -/
def State.station (s : State) : Fin 16 := ⟨s.focus.arg % 16, Nat.mod_lt _ (by decide)⟩

/-- A flit arrives at a station (R333, R423): one that fails its CRC is retried, and the ninth failure takes the station down. -/
def execFlitReceipt (ok : Bool) (s : State) : Result :=
  let i := s.station
  let n := s.retries[i]
  .next (if ok then { s with retries := s.retries.set i 0 }
    else
      let s := { s with retries := s.retries.set i (n + 1) }
      if n + 1 = 9 then s.at 0 s.cyc pNet (.run (argFocus 0 i.val) .stationDown) else s)

/-- R423: PERRST.down is set, an event goes to every partition, and the station retrains. -/
def execStationDown (s : State) : Result :=
  let i := s.station
  let (n, s) := s.fresh
  let s := { s with perrst := setField s.perrst (16 + i.val) 1 1 }
  .next ((s.postPackage 0x17).at 0 (s.cyc + 1 + Config.stationRetrainCycles n) pNet (.run (argFocus 0 i.val) .stationRetrained))

/-- R423, R335: the station carries traffic again if FABCTL, which takes effect at a training, enables it. Its stream contexts are
discarded. -/
def execStationRetrained (s : State) : Result :=
  let i := s.station
  let s := { s with
    fabctl := s.fabNew
    trained := BitVec.ofNat 16 (s.trained.toNat - bits s.trained.toNat i.val 1 * 2 ^ i.val + bits s.fabNew.toNat (1 + i.val) 1 * 2 ^ i.val)
    retries := s.retries.set i 0
    streams := s.streams.filter (·.1 != i.val)
    perrst := setField s.perrst (16 + i.val) 1 0 }
  .next (s.postPackage 0x17)

/-! ### Beacon time (R339, R340, R428) -/

/-- A rate correction within 200 ppm (R339). -/
def clampRate (r : Int) : Int := max (-200000) (min 200000 r)

/-- Under the time-driven drive, the drive becomes barrier-driven from the boundary after the one already scheduled, and stays so until a
new ARMTD (R428, R430). -/
def State.revertDrive (s : State) : State := if s.driven then { s with reverting := true, needsArmtd := true } else s

/-- R428: TSTAT.locked falls, and TIME runs on in holdover. -/
def execTimeLockLoss (s : State) : Result :=
  let s := { s with tstat := setField (setField s.tstat 0 1 0) 1 1 1, perrst := setField s.perrst 32 1 1 }
  .next (if s.driven then s.revertDrive.postPackage 0x18 else s)

/-- R339, R340, R347: once power-on has started the discipline, the first message sets TIME, and later ones change its rate only. TSTAT
takes the measured offset. -/
def execPtpMessageReceipt (ns : W64) (s : State) : Result :=
  if !s.ptp then .next s else
  let (n, s) := s.fresh
  let now := s.timeFix s.cyc
  let off : Int := if s.disciplined then ((now / 65536 : Nat) : Int) - ns.toNat else 0
  let near := -10 ≤ off ∧ off ≤ 10
  let lost := s.tstat.getLsbD 0 && !near
  let s := { s with
    timeBase := if s.disciplined then now else ns.toNat * 65536
    timeFrom := s.cyc
    rate := clampRate (Config.ptpRate n)
    disciplined := true
    tstat := BitVec.ofNat 64 ((if near ∨ lost then 1 else 0) + 2 ^ 32 * (BitVec.ofInt 32 off).toNat) }
  let s := if lost then s.at 0 s.cyc pNet (.run Focus.reset .timeLockLoss) else s
  .next s.placeBoundary

/-! ### Power (R430) -/

/-- An emergency begins (R430). -/
def State.beginEmergency (s : State) : State :=
  if s.emergency then s
  else
    let s := { s.accrue s.cyc with emergency := true, perrst := setField s.perrst 34 1 1 }
    s.revertDrive.postPackage 0x19

/-- R430: the alarm input is asserted. -/
def execPowerAlarm (s : State) : Result := .next { s with alarm := true }.beginEmergency

/-- R430: the alarm input is released; the emergency ends at a boundary. -/
def execPowerAlarmRelease (s : State) : Result := .next { s with alarm := false }

/-- R352, R430: a stack's temperature, a signed byte. -/
def execStackTemperature (deg : Byte) (s : State) : Result :=
  let s := { s.emptyMail with temps := s.temps.set (⟨s.focus.arg % 8, Nat.mod_lt _ (by decide)⟩ : Fin 8) deg }
  .next (if 95 ≤ deg.toInt then s.beginEmergency else s)

/-! ### Messages to and from the stacks (R352, R408, R409) -/

/-- The core whose channel a message names. -/
def State.mailCore (s : State) (chan : Fin 32) : Nat := 32 * (s.focus.arg % 8) + chan.val

/-- The place in the scrub walk of pseudo-channel p that a unit of 64 bytes gives (R408): the first block at or after it. -/
def scrubPlace (p u : Nat) : Nat :=
  if u / 16 % 2 = p then u / 32 * 16 + u % 16 else if p = 1 then u / 32 * 16 else (u / 32 + 1) * 16

/-- The walk of pseudo-channel p after a scrub range of len bytes at pa (R352, R408): it moves to the first block of the range that the
pseudo-channel holds, and stays where the range holds none of its blocks (log entry 48). -/
def Pseudo.scrubTo (q : Pseudo) (p : Fin 2) (pa len : Nat) : Pseudo :=
  let place := scrubPlace p.val (pa / 64)
  if 0 < len ∧ place < 2 ^ 24 ∧ 64 * moveBlock p.val place < pa + len then { q with scrub := place } else q

/-- R352, R408: the scrub walk moves to the range. -/
def execScrubRange (chan : Fin 32) (pa len : W32) (s : State) : Result :=
  .next (s.modCore (s.mailCore chan) fun k =>
    { k with ch := (k.ch.modPc 0 (·.scrubTo 0 (pa.toNat % 2 ^ 31) len.toNat)).modPc 1 (·.scrubTo 1 (pa.toNat % 2 ^ 31) len.toNat) })

/-- R409: the repair waits for the end of a MAINT slot of the pseudo-channel. -/
def execRepairLane (chan : Fin 32) (pc : Fin 2) (lane spare : Byte) (s : State) : Result :=
  .next (s.modCore (s.mailCore chan) fun k =>
    { k with ch := k.ch.modPc pc fun q => { q with repairReq := q.repairReq ++ [lane.toNat + 256 * spare.toNat] } })

/-- R356, R408: each uncorrectable block that a scrub found is posted as class 0x13 with act 0. -/
def execCorrectedErrorCount (chan : Fin 32) (_ce ue _first : W32) (s : State) : Result :=
  let c := s.mailCore chan
  .next ((List.range ue.toNat).foldl (fun (s : State) _ => s.postBlock c) s.emptyMail)

/-- A channel goes out of service, and its stack fails with its last channel (R409). -/
def State.outOfService (s : State) (c : Nat) : State :=
  let s := s.modCore c fun k => { k with phy := { k.phy with trnst := setField k.phy.trnst 0 2 2 } }
  let k := c / 32
  if (List.range 32).all fun i => bits (s.core (32 * k + i)).phy.trnst.toNat 0 2 = 2 then
    { s with perrst := setField s.perrst (35 + k) 1 1 }
  else s

/-- A running training routine learns the outcome of the repair that it asked for (R443). -/
def Train.repaired (t : Train) (ok : Bool) : Train :=
  if ok then { t with begun := false, repairs := t.repairs.drop 1 } else { t with broke := true }

/-- R409: with no spare left, the channel goes out of service; a training routine goes on (R443). -/
def execRepairDone (chan : Fin 32) (status : Byte) (s : State) : Result :=
  let c := s.mailCore chan
  let s := s.emptyMail
  .next (match (s.core c).phy.train with
    | some t => (s.modCore c fun k => { k with phy := { k.phy with train := some (t.repaired (status = 0)) } }).at c s.cyc pEnd .train
    | none => if status = 1 then s.outOfService c else s)

/-! ### What other devices forward (R338, R358) -/

/-- R338: the bridge takes the status of a forwarded command, and its firmware goes on. -/
def execForwardedStatusReceipt (s : State) : Result :=
  .next ((s.complete (s.focus.arg % 256) (s.focus.arg / 256 % 256)).nextCommand)

/-- R338: a command that the bridge forwarded, whose header and payload are the literals of the focus, waits its turn in its slot. -/
def execForwardedCommandReceipt (s : State) : Result :=
  let slot := s.focus.arg % 256
  let message := addressed (4096 * slot) ((s.focus.lits.take 1024).map fun x => leBytes 4 x.toNat).flatten
  let s := { s with cmd := s.cmd.storeAll message, doorbells := s.doorbells ++ [slot], fwdSlots := s.fwdSlots ++ [slot] }
  .next (if s.fwBusy then s else s.nextCommand)

/-- R358, R359: a record that another device forwarded joins its partition's queue. -/
def execForwardedEventRecordReceipt (part : Fin 8) (r : W64) (s : State) : Result :=
  .next (((s.packet (bits r.toNat 13 10)).pushEvent part.val r).eventMsi part.val (bits r.toNat 0 5) (bits r.toNat 23 3))

end Sys2Proof.Machine
end

