-- ==== Sys2Proof/Machine/Signature.lean ====
section
/-! DEFINITION. The signatures of R348: SHA-384 and ECDSA on brainpool P-384r1, whose parameters and constants the specification names by
their standards (log entry 131, PRESUMED). -/

namespace Sys2Proof.Machine

open Sys2Proof

/-! ### SHA-384 -/

/-- The bytes of a number, highest first. -/
def beBytes (n x : Nat) : List Byte := (leBytes n x).reverse

/-- The number of some bytes, highest first. -/
def ofBe (bs : List Byte) : Nat := ofLe bs.reverse

/-- The round constants of SHA-384, 0 to 19. -/
def shaK0 : List W64 := [
   0x428A2F98D728AE22, 0x7137449123EF65CD, 0xB5C0FBCFEC4D3B2F, 0xE9B5DBA58189DBBC,
   0x3956C25BF348B538, 0x59F111F1B605D019, 0x923F82A4AF194F9B, 0xAB1C5ED5DA6D8118,
   0xD807AA98A3030242, 0x12835B0145706FBE, 0x243185BE4EE4B28C, 0x550C7DC3D5FFB4E2,
   0x72BE5D74F27B896F, 0x80DEB1FE3B1696B1, 0x9BDC06A725C71235, 0xC19BF174CF692694,
   0xE49B69C19EF14AD2, 0xEFBE4786384F25E3, 0x0FC19DC68B8CD5B5, 0x240CA1CC77AC9C65]

/-- The round constants of SHA-384, 20 to 39. -/
def shaK1 : List W64 := [
   0x2DE92C6F592B0275, 0x4A7484AA6EA6E483, 0x5CB0A9DCBD41FBD4, 0x76F988DA831153B5,
   0x983E5152EE66DFAB, 0xA831C66D2DB43210, 0xB00327C898FB213F, 0xBF597FC7BEEF0EE4,
   0xC6E00BF33DA88FC2, 0xD5A79147930AA725, 0x06CA6351E003826F, 0x142929670A0E6E70,
   0x27B70A8546D22FFC, 0x2E1B21385C26C926, 0x4D2C6DFC5AC42AED, 0x53380D139D95B3DF,
   0x650A73548BAF63DE, 0x766A0ABB3C77B2A8, 0x81C2C92E47EDAEE6, 0x92722C851482353B]

/-- The round constants of SHA-384, 40 to 59. -/
def shaK2 : List W64 := [
   0xA2BFE8A14CF10364, 0xA81A664BBC423001, 0xC24B8B70D0F89791, 0xC76C51A30654BE30,
   0xD192E819D6EF5218, 0xD69906245565A910, 0xF40E35855771202A, 0x106AA07032BBD1B8,
   0x19A4C116B8D2D0C8, 0x1E376C085141AB53, 0x2748774CDF8EEB99, 0x34B0BCB5E19B48A8,
   0x391C0CB3C5C95A63, 0x4ED8AA4AE3418ACB, 0x5B9CCA4F7763E373, 0x682E6FF3D6B2B8A3,
   0x748F82EE5DEFB2FC, 0x78A5636F43172F60, 0x84C87814A1F0AB72, 0x8CC702081A6439EC]

/-- The round constants of SHA-384, 60 to 79. -/
def shaK3 : List W64 := [
   0x90BEFFFA23631E28, 0xA4506CEBDE82BDE9, 0xBEF9A3F7B2C67915, 0xC67178F2E372532B,
   0xCA273ECEEA26619C, 0xD186B8C721C0C207, 0xEADA7DD6CDE0EB1E, 0xF57D4F7FEE6ED178,
   0x06F067AA72176FBA, 0x0A637DC5A2C898A6, 0x113F9804BEF90DAE, 0x1B710B35131C471B,
   0x28DB77F523047D84, 0x32CAAB7B40C72493, 0x3C9EBE0A15C9BEBC, 0x431D67C49C100D4C,
   0x4CC5D4BECB3E42B6, 0x597F299CFC657E2A, 0x5FCB6FAB3AD6FAEC, 0x6C44198C4A475817]

/-- The round constants of SHA-384. -/
def shaK : List W64 := shaK0 ++ shaK1 ++ shaK2 ++ shaK3

/-- The initial hash value of SHA-384. -/
def shaInit : List W64 := [
   0xCBBB9D5DC1059ED8, 0x629A292A367CD507, 0x9159015A3070DD17, 0x152FECD8F70E5939,
   0x67332667FFC00B31, 0x8EB44A8768581511, 0xDB0C2E0D64F98FA7, 0x47B5481DBEFA4FA4]

/-- A message with its padding: a 1 bit, zeros, and its length in bits in 16 bytes. -/
def shaPad (bs : List Byte) : List Byte :=
  bs ++ [0x80] ++ List.replicate ((239 - bs.length % 128) % 128) 0 ++ beBytes 16 (8 * bs.length)

/-- The message schedule, latest word first, after n more words. -/
def shaSchedule : Nat → List W64 → List W64
  | 0, w => w
  | n + 1, w =>
    let a := w.getD 1 0
    let b := w.getD 14 0
    shaSchedule n ((((a.rotateRight 19) ^^^ (a.rotateRight 61) ^^^ (a >>> 6)) + w.getD 6 0
      + ((b.rotateRight 1) ^^^ (b.rotateRight 8) ^^^ (b >>> 7)) + w.getD 15 0) :: w)

/-- A round: the working variables a to h, a round constant and a word of the schedule. -/
def shaRound (v : List W64) (kw : W64 × W64) : List W64 :=
  match v with
  | [a, b, c, d, e, f, g, h] =>
    let t := h + ((e.rotateRight 14) ^^^ (e.rotateRight 18) ^^^ (e.rotateRight 41)) + ((e &&& f) ^^^ (~~~e &&& g)) + kw.1 + kw.2
    let u := ((a.rotateRight 28) ^^^ (a.rotateRight 34) ^^^ (a.rotateRight 39)) + ((a &&& b) ^^^ (a &&& c) ^^^ (b &&& c))
    [t + u, a, b, c, d + t, e, f, g]
  | _ => v

/-- The hash value after a block of 128 bytes. -/
def shaBlock (h : List W64) (bs : List Byte) : List W64 :=
  let w := (List.range 16).map fun i => BitVec.ofNat 64 (ofBe ((bs.drop (8 * i)).take 8))
  List.zipWith (· + ·) h ((shaK.zip (shaSchedule 64 w.reverse).reverse).foldl shaRound h)

/-- SHA-384: 48 bytes. -/
def sha384 (bs : List Byte) : List Byte :=
  let m := shaPad bs
  let h := (List.range (m.length / 128)).foldl (fun h i => shaBlock h ((m.drop (128 * i)).take 128)) shaInit
  ((h.take 6).map fun x => beBytes 8 x.toNat).flatten

/-! ### The curve brainpool P-384r1 -/

/-- The prime of the field. -/
def ecP : Nat := 0x8CB91E82A3386D280F5D6F7E50E641DF152F7109ED5456B412B1DA197FB71123ACD3A729901D1A71874700133107EC53

/-- The coefficient A of the curve. -/
def ecA : Nat := 0x7BC382C63D8C150C3C72080ACE05AFA0C2BEA28E4FB22787139165EFBA91F90F8AA5814A503AD4EB04A8C7DD22CE2826

/-- The coefficient B of the curve. -/
def ecB : Nat := 0x4A8C7DD22CE28268B39B55416F0447C2FB77DE107DCD2A62E880EA53EEB62D57CB4390295DBC9943AB78696FA504C11

/-- The base point. -/
def ecG : Nat × Nat :=
  (0x1D1C64F068CF45FFA2A63A81B7C13F6B8847A3E77EF14FE3DB7FCAFE0CBD10E8E826E03436D646AAEF87B2E247D4AF1E,
   0x8ABE1D7520F9C2A45CB1EB8E95CFD55262B70B29FEEC5864E19C054FF99129280E4646217791811142820341263C5315)

/-- The order of the base point, a prime. -/
def ecQ : Nat := 0x8CB91E82A3386D280F5D6F7E50E641DF152F7109ED5456B31F166E6CAC0425A7CF3AB6AF6B7FC3103B883202E9046565

/-- A power modulo m, of an exponent of at most n bits. -/
def powMod (m : Nat) : Nat → Nat → Nat → Nat
  | 0, _, _ => 1
  | n + 1, b, e => (if e % 2 = 1 then b else 1) * powMod m n (b * b % m) (e / 2) % m

/-- The inverse modulo a prime of 384 bits. -/
def invMod (m x : Nat) : Nat := powMod m 384 (x % m) (m - 2)

/-- The sum of two points; none is the point at infinity. -/
def ecAdd (a b : Option (Nat × Nat)) : Option (Nat × Nat) :=
  match a, b with
  | none, b => b
  | a, none => a
  | some (x, y), some (u, v) =>
    if x = u ∧ (y + v) % ecP = 0 then none
    else
      let l := if x = u then (3 * x * x + ecA) * invMod ecP (2 * y) % ecP else (v + ecP - y) * invMod ecP (u + ecP - x) % ecP
      let z := (l * l + 2 * ecP - x - u) % ecP
      some (z, (l * (x + ecP - z) + ecP - y) % ecP)

/-- A multiple of a point, of a factor of at most n bits. -/
def ecMul : Nat → Nat → Option (Nat × Nat) → Option (Nat × Nat)
  | 0, _, _ => none
  | n + 1, k, a => ecAdd (if k % 2 = 1 then a else none) (ecMul n (k / 2) (ecAdd a a))

/-- Whether a point lies on the curve. -/
def onCurve (a : Nat × Nat) : Bool := a.1 < ecP && a.2 < ecP && a.2 * a.2 % ecP == (a.1 * a.1 * a.1 + ecA * a.1 + ecB) % ecP

/-! ### Signatures (R348) -/

/-- Whether (r, s) is a signature of a digest, a number, by the key whose public point is given. -/
def ecVerify (key : Nat × Nat) (e r s : Nat) : Bool :=
  let w := invMod ecQ s
  onCurve key && 0 < r && r < ecQ && 0 < s && s < ecQ &&
    match ecAdd (ecMul 384 (e * w % ecQ) (some ecG)) (ecMul 384 (r * w % ecQ) (some key)) with
    | some (x, _) => x % ecQ == r
    | none => false

/-- The signature of a digest by a private key d with the secret number k. -/
def ecSign (d e k : Nat) : Nat × Nat :=
  let r := (ecMul 384 k (some ecG)).elim 0 (·.1) % ecQ
  (r, invMod ecQ k * (e + r * d) % ecQ)

/-- An image without its trailer of 96 bytes (R348). -/
def signedPart (image : List Byte) : List Byte := image.take (image.length - 96)

/-- Whether an image's trailer is a signature of it by the Lenoc root key (R348): the key that ROM holds, 48 bytes of each coordinate, highest
first, is the one whose digest is fused (log entry 131). -/
def imageVerifies (image : List Byte) : Bool :=
  let key := Config.rootKey
  let t := image.drop (image.length - 96)
  96 ≤ image.length && key.length == 96 && sha384 key == Config.fusedKeyDigest &&
    ecVerify (ofBe (key.take 48), ofBe (key.drop 48)) (ofBe (sha384 (signedPart image))) (ofBe (t.take 48)) (ofBe (t.drop 48))

/-- Whether the firmware of stack k verifies (R347, R348). -/
def stackFirmwareOk (k : Nat) : Bool := imageVerifies (Config.stackImage k)

/-- Whether the ROM's own digest is the fused one (R347, step 1). -/
def romDigestOk : Bool := sha384 Config.romImage == Config.fusedRomDigest

/-- The signature of some bytes with the device identity key (R351), by R348's method; the secret number of the n-th is free, from 1 to q - 1. -/
def identitySignature (n : Nat) (bs : List Byte) : List Byte :=
  let x := ecSign Config.identityKey (ofBe (sha384 bs)) (1 + Config.signatureSecret n % (ecQ - 1))
  beBytes 48 x.1 ++ beBytes 48 x.2

end Sys2Proof.Machine
end

