-- ==== Sys2Proof/Machine/Firmware.lean ====
section
/-! DEFINITION. The Lenoc Device Command Set (R337, R338, R349-R351) and the register reads and writes with an effect of their own
(R293, R316, R356-R358, R440). -/

namespace Sys2Proof.Machine

open Sys2Proof

/-! ### The command in a slot (R338) -/

/-- n bytes at an offset of the payload of a slot, little-endian. -/
def State.payload (s : State) (slot off n : Nat) : Nat := s.cmd.le (4096 * slot + 64 + off) n

/-- CMH.len. -/
def State.cmdLen (s : State) (slot : Nat) : Nat := bits (s.cmd.le (4096 * slot + 8) 2) 0 12

/-- The command completes, and the firmware goes on (R338, R349). -/
def State.finish (s : State) (slot code : Nat) : State := (s.complete slot code).nextCommand

/-- Bytes that a command returns stand where its payload stood (log entry 11). -/
def State.reply (s : State) (slot : Nat) (bs : List Byte) : State := { s with cmd := s.cmd.storeAll (addressed (4096 * slot + 64) bs) }

/-- A command that returns an 8-byte value succeeds. -/
def State.replyWord (s : State) (slot : Nat) (x : W64) : State := (s.reply slot (leBytes 8 x.toNat)).finish slot 1

/-- The slot of the focus argument. -/
def State.slotArg (s : State) : Nat := s.focus.arg % 256

/-- The register code of a WRREG or RDREG (log entry 10). -/
def State.regCode (s : State) : Nat := s.payload s.slotArg 0 4
/-- The index of a WRREG or RDREG (log entry 10). -/
def State.regIndex (s : State) : Nat := s.payload s.slotArg 4 4
/-- The value of a WRREG (log entry 10). -/
def State.regValue (s : State) : W64 := BitVec.ofNat 64 (s.payload s.slotArg 8 8)

/-- R338: a doorbell write queues a slot, in doorbell order; the port is active only on the bridge (R18, R337). A number that names no
slot is ignored (log entry 25). -/
def execCmddb (v : W32) (s : State) : Result :=
  .next (if Config.isBridge ∧ v.toNat < 256 then
    let s := { s with doorbells := s.doorbells ++ [v.toNat] }
    if s.fwBusy then s else s.nextCommand
  else s)

/-- First byte of CMDDB in BAR0, and of its reserved megabyte (R337). -/
def barDoorbell : Nat := 0x100000

/-- The host writes bytes of BAR0 (R337): the slots take them, a word written to CMDDB is a doorbell, and the rest of the second megabyte
ignores them. -/
def State.barWrite (s : State) (addr : Nat) (data : List Byte) : State :=
  if !Config.isBridge then s
  else
    let s := { s with cmd := s.cmd.storeAll ((addressed addr data).filter fun b => b.1 < barDoorbell) }
    if addr = barDoorbell ∧ data.length = 4 then
      s.at 0 s.cyc pNet (.run Focus.reset (.cmddb (BitVec.ofNat 32 (ofLe data))))
    else s

/-- What the host reads of BAR0 (R337): the slots, and 0 in the reserved megabyte; nothing answers where the port is inactive (R18). No
rule says what CMDDB reads as. -/
def State.barRead (s : State) (addr : Nat) : Option Byte :=
  if !Config.isBridge then none
  else if addr < barDoorbell then some (s.cmd.byte addr) else if addr < barDoorbell + 4 ∨ 0x200000 ≤ addr then none else some 0

/-- The operation that a WRREG is: one that sets CADCTL.drive arms, and one of WRRW resets the credits (R44, R316, R350). -/
def wrregOf (driven : Bool) (code value : Nat) : Instr :=
  if code = 1 ∧ value % 2 = 1 ∧ !driven then .cadctlDriveArm else if code = 0x20 then .wrrwWrite else .wrreg

/-- The operation that an RDREG is (R350). -/
def rdregOf (code : Nat) : Instr :=
  match code with | 0x40 => .werrRead | 0x42 => .cerrstRead | 0x43 => .perrstRead | 0x44 => .eventQueueRead | _ => .rdreg

/-- The command of an op code (R349). -/
def State.commandOf (s : State) (slot op : Nat) : Option Instr :=
  match op with
  | 1 => some .attest
  | 2 => some (wrregOf (s.cad.ctl.getLsbD 0) (s.payload slot 0 4) (s.payload slot 8 8))
  | 3 => some (rdregOf (s.payload slot 0 4))
  | 4 => some .armtd
  | 5 => some .enqueue
  | 6 => some .memwr
  | 7 => some .memrd
  | 8 => some .groupdef
  | 9 => some .partset
  | 10 => some .preempt
  | 11 => some .mboxsend
  | _ => none

/-- A command for another device is forwarded over UALink, and its status comes back (R338). -/
def State.forward (s : State) (slot dev : Nat) : State :=
  if s.unreachable dev then s.finish slot 8
  else
    let n := s.freeCtr
    let s := { s with freeCtr := n + 2, forwarded := s.forwarded ++ [(512 + slot, BitVec.ofNat 64 dev)] }.packet dev
    s.at 0 (s.cyc + fabricDelay s.lmax n + fabricDelay s.lmax (n + 1)) pNet
      (.run (argFocus 0 (slot + 256 * (Config.deviceStatus n).toNat)) .forwardedStatusReceipt)

/-- The firmware takes the next slot (R338, R349), and executes its command, forwards it or rejects it. -/
def State.takeCommand (s : State) : State :=
  match s.doorbells with
  | [] => { s with fwBusy := false }
  | slot :: rest =>
    let s := { s with doorbells := rest }
    let h := s.cmd.le (4096 * slot) 64
    let dev := bits h 8 10
    if !s.bootst.getLsbD 11 then s.finish slot 5
    else if bits h 21 11 ≠ 0 ∨ bits h 76 4 ≠ 0 ∨ bits h 88 424 ≠ 0 then s.finish slot 4
    else if 4032 < bits h 64 12 then s.finish slot 3
    else if !s.isSelf dev then s.forward slot dev
    else match s.commandOf slot (bits h 0 8) with
      | some i => s.at 0 s.cyc pEnd (.run (argFocus 0 slot) i)
      | none => s.finish slot 2

/-! ### Registers (R350) -/

/-- The state of TELPWR (R353). -/
def State.telpwr (s : State) : W64 :=
  let a := (s.accrue s.cyc).credit
  BitVec.ofNat 64 (s.draw % 65536 + 2 ^ 16 * (BitVec.ofInt 32 a).toNat + 2 ^ 48 * min 65535 s.held)

/-- PARKED (R419). -/
def State.parked (s : State) (w : Nat) : W64 :=
  BitVec.ofNat 64 ((List.range 64).map fun i => if (s.core (64 * w + i)).phase.isSome then 2 ^ i else 0).sum


/-- The value in force of a register (R350), where code and index name one that a read leaves unchanged. -/
def State.register (s : State) (code i : Nat) : Option W64 :=
  let core := fun (n : Nat) (f : Core → W64) => if i < n then some (f (s.core i)) else none
  match code with
  | 0x01 => some s.cad.ctl
  | 0x02 => some s.cad.tbase
  | 0x03 => some s.cad.tper
  | 0x10 => core 256 (·.ch.tim[0])
  | 0x11 => core 256 (·.ch.tim[1])
  | 0x12 => core 256 (·.ch.tim[2])
  | 0x20 => if i < 8 then some (Sp.get 0x8421 s.wrrw i) else none
  | 0x21 => some s.pwradm
  | 0x22 => some s.pcwlo
  | 0x23 => some s.pcwhi
  | 0x30 => some s.fabctl
  | 0x31 => if i < 1024 then some (BitVec.ofNat 64 (s.stationOf i)) else none
  | 0x41 => some s.tstat
  | 0x45 => if i < 1024 ∧ i % 4 < 3 then
      let k := s.core (i / 4)
      some (if i % 4 = 0 then k.trap0 else if i % 4 = 1 then k.trap1 else k.trap2)
    else none
  | 0x46 => if i < 512 then some (if i % 2 = 0 then (s.core (i / 2)).flt0 else (s.core (i / 2)).flt1) else none
  | 0x47 => if i < 4 then some (s.parked i) else none
  | 0x48 => core 256 (·.phy.trnst)
  | 0x50 => some s.bootst
  | 0x51 => some s.telpwr
  | _ => none

/-- R350: status 3 for an unlisted code or index. -/
def execRdreg (s : State) : Result :=
  let slot := s.slotArg
  .next (if s.cmdLen slot ≠ 8 then s.finish slot 3
    else match s.register s.regCode s.regIndex with
      | some x => s.replyWord slot x
      | none => s.finish slot 3)

/-- The stored bits of a timing register (R253). -/
def timMask (i : Fin 3) : W64 := if i = 0 then BitVec.allOnes 64 else if i = 1 then 0xFFFF0FFF00FFFFFF else 0xFFFFFFFF

/-- A write of a timing register (R253): it waits for the next chain start, and an interval of 0 is rejected. -/
def State.writeTim (s : State) (c : Nat) (i : Fin 3) (v : W64) : Nat × State :=
  if (i = 1 ∧ bits v.toNat 48 16 = 0) ∨ (i = 2 ∧ bits v.toNat 16 16 = 0) then (6, s)
  else if 256 ≤ c then (3, s)
  else (1, s.modCore c fun k => { k with ch := { k.ch with timNew := k.ch.timNew.set i (v &&& timMask i) } })

/-- A written schedule is in force at once while the time-driven drive is inactive; a schedule that runs keeps its CADTBASE, and takes a
new CADTPER at its next boundary (R42, R350). -/
def State.setCadNew (s : State) (new : Cad) : State :=
  { s with cadNew := new, cad := if s.driven then s.cad else { s.cad with tbase := new.tbase, tper := new.tper } }

/-- A write of a cadence register (R41, R42, R55, R349): CADCTL waits for a boundary; CADTBASE and CADTPER serve the next arming
and the boundaries not yet scheduled. Once the drive has reverted, CADCTL.drive is set by a new ARMTD alone (R428; log entry 81). -/
def State.writeCad (s : State) (code : Nat) (v : W64) : Nat × State :=
  if s.arming.isSome then (5, s)
  else if code = 1 then
    let v := v &&& 0x3FFFFF
    if v.getLsbD 0 ∧ (s.needsArmtd ∨ (s.driven ∧ badSchedule v s.cadNew.tper)) then (6, s)
    else (1, { s with cadNew := { s.cadNew with ctl := v } })
  else if code = 2 then (1, s.setCadNew { s.cadNew with tbase := v })
  else if bits v.toNat 0 32 < 200 ∨ bits v.toNat 32 32 < 200 then (6, s)
  else if s.driven ∧ s.cadNew.ctl.getLsbD 0 ∧ badSchedule s.cadNew.ctl v then (6, s)
  else (1, s.setCadNew { s.cadNew with tper := v })

/-- The status of a WRREG, and the state that it leaves (R350). -/
def State.writeReg (s : State) (code i : Nat) (v : W64) : Nat × State :=
  match code with
  | 0x01 | 0x02 | 0x03 => s.writeCad code v
  | 0x10 => s.writeTim i 0 v
  | 0x11 => s.writeTim i 1 v
  | 0x12 => s.writeTim i 2 v
  | 0x21 => (1, { s with pwrNew := s.pwrNew.set 0 (v &&& 0xFFFFFFFFFFFF) })
  | 0x22 => (1, { s with pwrNew := s.pwrNew.set 1 v })
  | 0x23 => (1, { s with pwrNew := s.pwrNew.set 2 v })
  | 0x30 => (1, { s with fabNew := v &&& 0x1FFFF })
  | 0x31 => if 1024 ≤ i then (3, s) else if 15 < v.toNat then (6, s) else (1, { s with stmap := Sp.put i (v.setWidth 4) s.stmap })
  | _ => (3, s)

/-- R350. -/
def execWrreg (s : State) : Result :=
  let slot := s.slotArg
  .next (if s.cmdLen slot ≠ 16 then s.finish slot 3
    else let (st, s) := s.writeReg s.regCode s.regIndex s.regValue; s.finish slot st)

/-- R316: the weights are set, and crK := wK. -/
def execWrrwWrite (s : State) : Result :=
  let slot := s.slotArg
  let p := s.regIndex
  .next (if s.cmdLen slot ≠ 16 ∨ 8 ≤ p then s.finish slot 3
    else { s with
      wrrw := Sp.set 0x8421 s.wrrw p (s.regValue &&& 0xFFFF)
      credits := s.credits.filter fun (x : Nat × Nat) => x.1 / 4 != p }.finish slot 1)

/-- R293: the read returns WERR and clears it. -/
def execWerrRead (s : State) : Result :=
  let slot := s.slotArg
  let c := s.regIndex
  .next (if s.cmdLen slot ≠ 8 ∨ 256 ≤ c then s.finish slot 3
    else
      let x := (s.core c).werr
      (s.modCore c fun k => { k with werr := 0, werrBy := (0, 0) }).replyWord slot x)

/-- R356: the read clears ce, ue, rb and multi. -/
def execCerrstRead (s : State) : Result :=
  let slot := s.slotArg
  let c := s.regIndex
  .next (if s.cmdLen slot ≠ 8 ∨ 256 ≤ c then s.finish slot 3
    else
      let x := (s.core c).cerrst
      (s.modCore c fun k => { k with cerrst := setField (setField k.cerrst 0 32 0) 38 1 0 }).replyWord slot x)

/-- R357: the read clears evlost, tlost and over. -/
def execPerrstRead (s : State) : Result :=
  let slot := s.slotArg
  .next (if s.cmdLen slot ≠ 8 then s.finish slot 3
    else
      let x := s.perrst
      { s with perrst := setField (setField x 0 16 0) 32 2 0 }.replyWord slot x)

/-- R358: the read returns and removes the oldest record, or returns 0. -/
def execEventQueueRead (s : State) : Result :=
  let slot := s.slotArg
  let p := s.regIndex
  .next (if s.cmdLen slot ≠ 8 ∨ 8 ≤ p then s.finish slot 3
    else match Sp.get [] s.events p with
      | [] => s.replyWord slot 0
      | r :: rest => { s with events := Sp.set [] s.events p rest }.replyWord slot r)

/-- PHYCTL.clr (R440): every PHYERR of the channel is cleared and every generator reseeded. -/
def Core.phyClear (k : Core) : Core :=
  k.allLanes fun i l => { l with err := 0, wgen := BitVec.ofNat 7 (i + 1), cgen := BitVec.ofNat 7 (i + 1) }

/-- R440. -/
def execPhyctlClr (s : State) : Result := .next (s.modCur (·.phyClear))

/-! ### Arming (R44, R349) -/

/-- An arming is taken (R44, R349): a pending one gives status 5, an odd count or a short CADTPER field status 6. -/
def State.arm (s : State) (slot : Nat) (regs : Cad) (count : Option (BitVec 48)) : State :=
  if s.arming.isSome then s.finish slot 5
  else if bits regs.tper.toNat 0 32 < 200 ∨ bits regs.tper.toNat 32 32 < 200 ∨ count.elim false (·.getLsbD 0) then s.finish slot 6
  else { s with arming := some ⟨slot, regs, count⟩ }.nextCommand

/-- R44. -/
def execArmtd (s : State) : Result :=
  let slot := s.slotArg
  .next (if s.cmdLen slot ≠ 24 then s.finish slot 3
    else if s.payload slot 22 2 ≠ 0 then s.finish slot 4
    else s.arm slot ⟨s.cadNew.ctl ||| 1, BitVec.ofNat 64 (s.payload slot 0 8), BitVec.ofNat 64 (s.payload slot 8 8)⟩
      (some (BitVec.ofNat 48 (s.payload slot 16 6))))

/-- R41, R44; once the drive has reverted, a new ARMTD is needed (R428; log entry 81). -/
def execCadctlDriveArm (s : State) : Result :=
  let slot := s.slotArg
  .next (if s.cmdLen slot ≠ 16 then s.finish slot 3
    else if s.arming.isNone && s.needsArmtd then s.finish slot 6
    else s.arm slot ⟨s.regValue &&& 0x3FFFFF, s.cadNew.tbase, s.cadNew.tper⟩ none)

/-! ### Records, groups, partitions (R306, R324, R349, R420) -/

/-- R349, R364, R366: the record enters its queue with CMH.part as its partition. -/
def execEnqueue (s : State) : Result :=
  let slot := s.slotArg
  let part := s.cmdPart slot
  let x := s.payload slot 0 128
  let w := BitVec.ofNat 1024 (x - x % 8 + part)
  .next (if s.cmdLen slot ≠ 128 then s.finish slot 3
    else if s.shut.contains part then s.finish slot 5
    else if s.chunkBad (64 * lnr w 512 22) 64 || s.leasesBad w then s.finish slot 3
    else match s.enqueueStatus w part with
      | 0 => (s.enqueueRecord w part).finish slot 1
      | 1 => s.finish slot 9
      | 2 => s.finish slot 10
      | _ => s.finish slot 6)

/-- The member list of a GROUPDEF, in ascending order (R324; layout by log entry 10, which leaves room for 1,007 of the 4,096 members that
R324 allows). -/
def State.memberList (s : State) (slot : Nat) : List Nat :=
  sortBy (fun x : Nat => x) ((List.range ((s.cmdLen slot - 4) / 4)).map fun i => s.payload slot (4 + 4 * i) 4 % 2 ^ 18).dedup

/-- R324: the group is defined, with its sequence counter at 0. A call under way of a group that is defined anew goes on with the new member
list, counter and accumulator (DESIGN CHOICE, log entry 127). -/
def execGroupdef (s : State) : Result :=
  let slot := s.slotArg
  let n := s.cmdLen slot
  let ms := s.memberList slot
  .next (if n % 4 ≠ 0 ∨ n < 4 ∨ 256 < (ms.map (· / 256)).dedup.length then s.finish slot 3
    else if s.payload slot 2 2 ≠ 0 ∨ (List.range ((n - 4) / 4)).any (fun i => 2 ^ 18 ≤ s.payload slot (4 + 4 * i) 4) then s.finish slot 4
    else ({ s with groups := Sp.put (s.payload slot 0 2) ⟨ms, 0, 0, none⟩ s.groups } : State).wakeCalls.finish slot 1)

/-- R349: the quads take their partition at the next boundary. -/
def execPartset (s : State) : Result :=
  let slot := s.slotArg
  let p := s.payload slot 0 8
  let mask := s.payload slot 8 8
  .next (if s.cmdLen slot ≠ 16 ∨ 8 ≤ p then s.finish slot 3
    else { s with partset := s.partset ++ ((List.range 64).filter fun q => bits mask q 1 = 1).map fun q => (q, p) }.finish slot 1)

/-- R420, R422: a partition that is pre-empted resumes; another is pre-empted at the next boundary. -/
def execPreempt (s : State) : Result :=
  let slot := s.slotArg
  let p := s.payload slot 0 8
  .next (if s.cmdLen slot ≠ 8 ∨ 8 ≤ p then s.finish slot 3
    else if s.halted.contains p then { s with resuming := s.resuming.filter (· != p) ++ [p] }.finish slot 1
    else { s with preempt := s.preempt.filter (· != p) ++ [p] }.finish slot 1)

/-- R352: the sender waits until the stack's slot is empty. A stack whose firmware does not run gives status 6. -/
def execMboxsend (s : State) : Result :=
  let slot := s.slotArg
  let k := s.payload slot 0 8
  .next (if s.cmdLen slot ≠ 72 ∨ 8 ≤ k then s.finish slot 3
    else if !s.bootst.getLsbD (2 + k) then s.finish slot 6
    else if s.mboxOut.any (·.1 == k) then s.at 0 (s.cyc + 1) pEnd (.run s.focus .mboxsend)
    else { s with mboxOut := Sp.put k (BitVec.ofNat 512 (s.payload slot 8 64)) s.mboxOut }.finish slot 1)

/-- R348, R351: the report, with the digests of the base-die firmware that runs, its signature with the device identity key and the
certificate; what no rule gives is free (log entry 12). -/
def execAttest (s : State) : Result :=
  let slot := s.slotArg
  let (n, s) := s.fresh
  let free := fun a k => (List.range k).map fun i => Config.attestByte (a + i)
  let nonce := s.cmd.bytes (4096 * slot + 64) 48
  let digests := ((List.range 8).map fun k =>
    if s.bootst.getLsbD (2 + k) then sha384 (signedPart (Config.stackImage k)) else List.replicate 48 0).flatten
  let report := free 0 16 ++ leBytes 2 s.device.toNat ++ free 16 2 ++ nonce ++ digests ++ leBytes 8 s.bootst.toNat ++ leBytes 4 0
  .next (if s.cmdLen slot ≠ 48 then s.finish slot 3
    else (s.reply slot (report ++ identitySignature n report ++ free 1024 208)).finish slot 1)

/-! ### Memory access (R349) -/

/-- The access header of MEMWR and MEMRD: space, core, length, address. -/
structure Access where
  space : Nat
  core : Nat
  len : Nat
  addr : Nat
deriving DecidableEq, Repr

/-- The access header in a slot (R349). -/
def State.memAccess (s : State) (slot : Nat) : Access :=
  ⟨s.payload slot 0 1, s.payload slot 1 1, s.payload slot 4 4, s.payload slot 8 8⟩

/-- Bytes of a space (R349). -/
def spaceSize (sp : Nat) : Nat := match sp with | 0 => 2 ^ 28 | 1 => 2 ^ 22 | 2 => 2 ^ 18 | _ => 2 ^ 31

/-- The status that turns an access away (R349), in the order of its codes: layout, reserved bytes, a task, a channel. -/
def State.accessStatus (s : State) (slot : Nat) (a : Access) (most : Nat) : Option Nat :=
  if 3 < a.space ∨ a.len = 0 ∨ most < a.len ∨ spaceSize a.space < a.addr + a.len
    ∨ (a.space = 3 ∧ (a.addr % 64 ≠ 0 ∨ a.len % 64 ≠ 0)) then some 3
  else if s.payload slot 2 2 ≠ 0 then some 4
  else if a.space ≠ 0 ∧ (s.core a.core).record.isSome then some 5
  else if a.space = 3 ∧ s.channelOut a.core then some 6
  else none

/-- The 8-byte words of a range that are uncorrectable, in the memory that an access names. -/
def State.badWords (s : State) (a : Access) : List Nat :=
  let ws := wordsOf ((List.range a.len).map (a.addr + ·))
  let ms := if a.space = 0 then s.marks else (s.core a.core).marks
  let st := if a.space = 0 then Store.chunk else if a.space = 1 then Store.spm else Store.dmem
  ws.filter fun w => ms.any fun m => m.store == st && m.hard && m.unit == w

/-- A word that a write covers in part. -/
def Access.partOf (a : Access) (w : Nat) : Bool := 8 * w < a.addr || a.addr + a.len < 8 * w + 8

/-- R349: part of an uncorrectable word gives status 3 and writes nothing; HBM is written in MAINT slots. -/
def execMemwr (s : State) : Result :=
  let slot := s.slotArg
  let a := s.memAccess slot
  let data := s.cmd.bytes (4096 * slot + 80) a.len
  .next (if s.cmdLen slot < 16 ∨ s.cmdLen slot ≠ 16 + a.len then s.finish slot 3
    else match s.accessStatus slot a 4016 with
      | some st => s.finish slot st
      | none =>
        if a.space = 3 then { s with hbmCmd := some ⟨slot, a.core, true, a.addr, 0, a.len / 64, false, []⟩ }
        else if (s.badWords a).any a.partOf then s.finish slot 3
        else if a.space = 0 then
          { s with
            chunk := s.chunk.storeAll (addressed a.addr data)
            marks := s.marks.filter fun (m : Mark) =>
              !(m.store == Store.chunk && a.addr ≤ 8 * m.unit && 8 * m.unit + 8 ≤ a.addr + a.len) }.finish slot 1
        else (s.landRaw a.core (a.space = 1) false none [] (addressed a.addr data) id).finish slot 1)

/-- R349: uncorrectable data gives status 3 and no data, and counts in CERRST.ue; corrected words count in CERRST.ce (R356, R366); HBM is
read in MAINT slots. -/
def execMemrd (s : State) : Result :=
  let slot := s.slotArg
  let a := s.memAccess slot
  .next (if s.cmdLen slot ≠ 16 then s.finish slot 3
    else match s.accessStatus slot a 4000 with
      | some st => s.finish slot st
      | none =>
        if a.space = 3 then { s with hbmCmd := some ⟨slot, a.core, false, a.addr, 0, a.len / 64, false, []⟩ }
        else
          let bad := (s.badWords a).length
          if bad ≠ 0 then
            (if a.space = 0 then s else s.modCore a.core fun k => { k with cerrst := bump k.cerrst 16 8 bad }).finish slot 3
          else
            let m := if a.space = 0 then s.chunk else if a.space = 1 then (s.core a.core).spm else (s.core a.core).dmem
            let s := if a.space = 0 then s
              else s.fixes a.core (if a.space = 1 then .spm else .dmem) (wordsOf ((List.range a.len).map (a.addr + ·)))
            (s.reply slot (m.bytes a.addr a.len)).finish slot 1)

end Sys2Proof.Machine
end

