-- ==== Sys2Proof/Machine/Bringup.lean ====
section
/-! DEFINITION. The release of reset and the steps of power-on (R32, R347, R348), with the training of the channels (R437-R444);
how long a step takes is free (log entry 4). -/

namespace Sys2Proof.Machine

open Sys2Proof

/-! ### Training (R442, R443) -/

/-- Change the training state of a channel. -/
def Core.modPhy (k : Core) (f : Phy → Phy) : Core := { k with phy := f k.phy }

/-- The training page (R442): translation entry 0 maps VA 0 onto the context area. -/
def trainPage : W64 := 0x000003FC00000031

/-- The centre of an eye, given by its lowest code and its width; a lane without one keeps its code 64 (R443). -/
def centreOf (e : Nat × Nat) : Nat := if e.2 = 0 then 64 else (2 * e.1 + e.2 - 1) / 2

/-- A lane after a run of a sweep at code v (R443): the longest run of passing codes so far, the lowest of equals. -/
def Lane.swept (l : Lane) (v : Nat) : Lane :=
  if l.err ≠ 0 then { l with run := 0 }
  else { l with run := l.run + 1, eye := if l.eye.2 < l.run + 1 then (v - l.run, l.run + 1) else l.eye }

/-- A failing lane (R443). -/
def Lane.fails (l : Lane) (minw : Nat) : Bool := l.readEye.2 < max 1 minw || l.eye.2 < max 1 minw

/-- The failing lanes of a pseudo-channel with the spares that are to carry them; none when too few spares are usable (R443). -/
def Phy.assign (f : Phy) (p : Fin 2) : Option (List (Nat × Nat × Nat)) :=
  let fails := fun (l : Fin 38) => f.lanes[p][l].fails (bits f.ctl.toNat 8 7)
  let bad := (List.finRange 38).filter fun l => l.val < 36 && fails l
  let spares := (List.finRange 38).filter fun l => 36 ≤ l.val && !fails l
  if spares.length < bad.length then none else some ((bad.zip spares).map fun x => (p.val, x.1.val, x.2.val))

/-- Whether a lane of a pseudo-channel is in use (R439, R443). -/
def Phy.inUse (f : Phy) (p : Fin 2) (l : Nat) : Bool :=
  let m := f.map[p].toNat
  let carried := fun (lo : Nat) => bits m (lo + 6) 1 == 1
  if l = 36 then carried 0 else if l = 37 then carried 8
  else !((carried 0 && bits m 0 6 == l) || (carried 8 && bits m 8 6 == l))

/-- Whether the confirming run has found every lane in use without a mismatch (R443). -/
def Phy.confirmed (f : Phy) : Bool :=
  (List.finRange 2).all fun p => (List.finRange 38).all fun l => f.lanes[p][l].err == 0 || !f.inUse p l.val

/-- The routine of a channel begins (R442, R443): every PHYDLY takes its reset value, pattern mode is written, and the training page is
mapped. -/
def State.beginTraining (s : State) (c : Nat) : State :=
  (s.modCore c fun k =>
    let k := k.allLanes fun _ l => { l with rnew := 64, wnew := 64, run := 0, eye := (0, 0), readEye := (0, 0) }
    { k.modPhy fun f => { f with ctl := setField f.ctl 0 1 1, train := some ⟨.read, 0, false, false, []⟩ } with
      tt := Sp.set Tte.reset k.tt 0 { Tte.reset with word := trainPage } }).at c s.cyc pEnd .train

/-- The next step of power-on begins. -/
def State.bringUp (s : State) (step : Nat) : State :=
  s.at 0 (s.cyc + 1 + Config.bringUpCycles step) pEnd (.run (argFocus 0 step) .resetRelease)

/-- A step succeeds: its bits of BOOTST are set (R348). -/
def State.booted (s : State) (x : W64) : State := { s with bootst := s.bootst ||| x }

/-- The routine of a channel ends (R443, R444): pattern mode is left, and the training page is unmapped (log entry 88). Step 2 of power-on
succeeds with the last channel. -/
def State.endTraining (s : State) (c : Nat) (ok conf : Bool) : State :=
  let s := s.modCore c fun k =>
    { k.modPhy fun f => { f with
        ctl := setField f.ctl 0 1 0, train := none
        trnst := setField (setField f.trnst 0 2 (if ok then 1 else 2)) 6 1 conf.toNat } with
      tt := Sp.set Tte.reset k.tt 0 Tte.reset }
  let s := if ok then s else s.outOfService c
  if !s.bootst.getLsbD 1 && (List.range 256).all fun i => bits (s.core i).phy.trnst.toNat 0 2 != 0 then (s.booted 2).bringUp 3 else s

/-- Whether a firmware chain that begins at this cycle breaks no rule at its tick 0 (R442): the idle chain wants nothing and nothing makes
it want a command before, and the rules allow the two ACTs. -/
def State.mayTrain (s : State) (c : Nat) : Bool :=
  let h := (s.core c).takeTiming.ch
  let t := 3 * (s.cyc + 2)
  h.run.isNone && h.idleWants = [] && h.broken t (.act 0) [] = [] && h.broken (t + 1) (.act 1) [] = [] &&
    !(s.agenda.any fun it => it.core == c && it.tick ≤ t + 1 && match it.ev with
      | .run _ .refreshDebtIncrement | .run _ .maintenanceDebtIncrement | .run _ .maintSlotEnd => true
      | _ => false)

/-- A run of the training chain begins, or the next cycle is tried (R442): every PHYERR is cleared first. -/
def State.runTraining (s : State) (c : Nat) (f : Lane → Lane) : State :=
  if s.mayTrain c then
    let s := s.modCore c fun k => (k.allLanes fun _ l => f l).phyClear.modPhy fun y => { y with train := y.train.map fun t => { t with begun := true } }
    { (({ s with focus := coreFocus c }).beginChain 0 0 0 s.cyc 0 true) with focus := s.focus }
  else s.at c (s.cyc + 1) pEnd .train

/-- The routine moves on to a stage of its own, at code 0. -/
def Core.trainTo (k : Core) (stage : TrainStage) (repairs : List (Nat × Nat × Nat)) : Core :=
  k.modPhy fun f => { f with train := some ⟨stage, 0, false, false, repairs⟩ }

/-- The read sweep is over (R443): the delays take the centres, and the write sweep begins. -/
def Core.endReadSweep (k : Core) : Core :=
  (k.allLanes fun _ l => { l with rnew := BitVec.ofNat 7 (centreOf l.eye), readEye := l.eye, eye := (0, 0), run := 0 }).trainTo .write []

/-- The write sweep is over (R443): the delays take the centres, and the failing lanes are to be repaired. -/
def State.endWriteSweep (s : State) (c : Nat) : State :=
  let s := s.modCore c fun k => k.allLanes fun _ l => { l with wnew := BitVec.ofNat 7 (centreOf l.eye) }
  match (s.core c).phy.assign 0, (s.core c).phy.assign 1 with
  | some a, some b => (s.modCore c fun k => k.trainTo .repair (a ++ b)).at c s.cyc pEnd .train
  | _, _ => s.endTraining c false false

/-- The mailbox message that asks for a repair (R443). -/
def repairMessage (c : Nat) (r : Nat × Nat × Nat) : BitVec 512 := BitVec.ofNat 512 (ofLe ([2, c % 32, r.2.1, r.2.2, r.1].map fun x => BitVec.ofNat 8 x))

/-- The routine asks for its next repair once the stack's slot is empty (R352, R443). -/
def State.askRepair (s : State) (c : Nat) (r : Nat × Nat × Nat) : State :=
  if s.mboxOut.any (·.1 == c / 32) then s.at c (s.cyc + 1) pEnd .train
  else { (s.modCore c fun k => k.modPhy fun f => { f with train := f.train.map fun t => { t with begun := true } }) with
    mboxOut := Sp.put (c / 32) (repairMessage c r) s.mboxOut }

/-- A sweep at a code (R443): a run that has ended is judged, one that broke a rule runs again (R442), and the next code follows. -/
def State.sweep (s : State) (c : Nat) (t : Train) (f : Nat → Lane → Lane) (ended : State → State) : State :=
  let judged := t.begun && !t.broke
  let v := if judged then t.code + 1 else t.code
  let s := if judged then s.modCore c fun k => k.allLanes fun _ l => l.swept t.code else s
  let s := s.modCore c fun k => k.modPhy fun y => { y with train := some { t with code := v, begun := false, broke := false } }
  if v = 128 then ended s else s.runTraining c (f v)

/-- The training routine of a channel takes its next step (R443). -/
def State.trainStep (s : State) (c : Nat) : State :=
  match (s.core c).phy.train with
  | none => s
  | some t => match t.stage with
    | .read => s.sweep c t (fun v l => { l with rnew := BitVec.ofNat 7 v }) fun s => (s.modCore c Core.endReadSweep).at c s.cyc pEnd .train
    | .write => s.sweep c t (fun v l => { l with wnew := BitVec.ofNat 7 v }) fun s => s.endWriteSweep c
    | .repair =>
      if t.broke then s.endTraining c false false
      else match t.repairs with
        | r :: _ => s.askRepair c r
        | [] => (s.modCore c fun k => k.trainTo .confirm []).at c s.cyc pEnd .train
    | .confirm =>
      if t.begun && !t.broke then s.endTraining c (s.core c).phy.confirmed (!(s.core c).phy.confirmed)
      else (s.modCore c fun k => k.trainTo .confirm []).runTraining c id

/-! ### Power-on (R347) -/

/-- The debts of every pseudo-channel begin to grow (R255, R256). -/
def State.startDebts (s : State) : State :=
  (List.range 256).foldl (fun (s : State) c => ([0, 1] : List Nat).foldl (fun (s : State) p =>
    let h := (s.core c).ch
    (s.post ⟨s.now + h.trefi, pTick, c, .run (argFocus c p) .refreshDebtIncrement⟩).post
      ⟨s.now + h.tmnti, pTick, c, .run (argFocus c p) .maintenanceDebtIncrement⟩) s) s

/-- Stacks whose firmware verifies (R347, step 3). -/
def bootStacks : W64 := BitVec.ofNat 64 ((List.range 8).map fun k => if stackFirmwareOk k then 2 ^ (2 + k) else 0).sum

/-- The stations that FABCTL enables and that train (R347, step 4). -/
def State.trainStations (s : State) : BitVec 16 :=
  BitVec.ofNat 16 ((List.range 16).map fun i => if s.fabctl.getLsbD (1 + i) && Config.stationTrains i then 2 ^ i else 0).sum

/-- The identifier that link training returns: no device of a pod has 0x3FF (R23). -/
def assignedDevice : BitVec 10 := if Config.trainedDevice = 0x3FF then 0 else Config.trainedDevice

/-- R32, R347: the release is cycle 0 of phase 0, and power-on takes its steps, each once the one before has succeeded. The
step is the focus argument, 0 the release itself. -/
def execResetRelease (s : State) : Result :=
  .next (match s.focus.arg with
    | 0 =>
      let s := { s with released := true, phStart := s.cyc, creditAt := s.cyc, draw := s.idleDraw }
      (s.startDebts.at 0 s.cyc pEnd .decide).bringUp 1
    | 1 => if romDigestOk then (s.booted 1).bringUp 2 else s
    | 2 => (List.range 256).foldl State.beginTraining s
    | 3 =>
      let failed := (List.range 8).filter fun k => !stackFirmwareOk k
      let s := failed.foldl (fun (s : State) k => { s with perrst := setField s.perrst (35 + k) 1 1 }) s
      (s.booted bootStacks).bringUp 4
    | 4 =>
      let up := s.trainStations
      if up.setWidth 64 = (s.fabctl >>> 1) &&& 0xFFFF then
        ({ s with trained := up, device := if up = 0 then 0x3FF else assignedDevice }.booted 0x400).bringUp 5
      else s
    | 5 => { s with ptp := true }.booted 0x800
    | _ => s)

end Sys2Proof.Machine
end

