-- ==== Sys2Proof/Machine/Block.lean ====
section
/-! DEFINITION. Described blocks (R104, R105, R111-R116). -/

namespace Sys2Proof.Machine

open Sys2Proof

/-- One bit of the CRC-16 of R116. -/
def crc16Bits (crc : Nat) : Nat → Nat
  | 0 => crc
  | n + 1 => crc16Bits (if crc / 2 ^ 15 = 1 then (crc * 2 % 2 ^ 16) ^^^ 0x1021 else crc * 2 % 2 ^ 16) n

/-- The CRC-16 of R116. -/
def crc16 (bs : List Byte) : Nat := bs.foldl (fun c b => crc16Bits (c ^^^ (b.toNat * 2 ^ 8)) 8) 0xFFFF

/-- A format of R113: element width, positions of a group that are present (24 when dense), payload bytes used,
positions covered. -/
structure BlockFmt where
  width : Nat
  present : Nat
  used : Nat
  positions : Nat
deriving DecidableEq, Repr

/-- The format codes of R113. -/
def blockFmt (code : Nat) : Option BlockFmt :=
  match code with
  | 0x01 => some ⟨4, 24, 48, 96⟩
  | 0x02 => some ⟨8, 24, 48, 48⟩
  | 0x11 => some ⟨4, 12, 36, 96⟩
  | 0x12 => some ⟨8, 12, 60, 96⟩
  | 0x22 => some ⟨8, 8, 44, 96⟩
  | 0x32 => some ⟨8, 6, 36, 96⟩
  | _ => none

/-- Byte i of a block. -/
def bAt (bs : List Byte) (i : Nat) : Nat := (bs.getD i 0).toNat

/-- Bytes of one group of a sparse format (R114). -/
def BlockFmt.groupBytes (f : BlockFmt) : Nat := 3 + f.present * f.width / 8

/-- The position mask of a group (R114). -/
def BlockFmt.mask (f : BlockFmt) (bs : List Byte) (g : Nat) : Nat :=
  let o := 2 + g * f.groupBytes
  bAt bs o + 2 ^ 8 * bAt bs (o + 1) + 2 ^ 16 * bAt bs (o + 2)

/-- One bits of a mask below bit n. -/
def popBelow (m : Nat) : Nat → Nat
  | 0 => 0
  | n + 1 => popBelow m n + m / 2 ^ n % 2

/-- Value k of a packed run of elements of a width, from byte o on (R114). -/
def packed (bs : List Byte) (o w k : Nat) : Nat :=
  if w = 8 then bAt bs (o + k) else if k % 2 = 0 then bAt bs (o + k / 2) % 16 else bAt bs (o + k / 2) / 16

/-- The code at a position, or none when it is absent (R114). -/
def BlockFmt.code (f : BlockFmt) (bs : List Byte) (p : Nat) : Option Nat :=
  if f.present = 24 then some (packed bs 2 f.width p)
  else
    let g := p / 24
    let m := f.mask bs g
    if m / 2 ^ (p % 24) % 2 = 1 then some (packed bs (2 + g * f.groupBytes + 3) f.width (popBelow m (p % 24))) else none

/-- The first check of R115 that fails, with the failing group and the bits set in its mask; second marks the second
half of a D8 column (R118). -/
def blockFail (bs : List Byte) (second : Bool) : Option (Nat × Nat × Nat) :=
  if crc16 (bs.take 62) ≠ bAt bs 62 + 256 * bAt bs 63 then some (1, 0, 0)
  else match blockFmt (bAt bs 0) with
    | none => some (2, 0, 0)
    | some f =>
      if (f.width = 8 ∧ bAt bs 1 / 64 = 3) ∨ (second ∧ bAt bs 0 ≠ 0x02) then some (2, 0, 0)
      else if (bs.take 62).drop (2 + f.used) |>.any (· ≠ 0) then some (3, 0, 0)
      else if f.present = 24 then none
      else (List.range 4).findSome? fun g =>
        let n := popBelow (f.mask bs g) 24
        if n = f.present then none else some (4, g, n)

/-- A code's value on the float path (R103-R105, R111): by the type field, scaled exactly; an infinity is read as the
largest finite value. -/
def floatWeight (width scale code : Nat) : FVal :=
  let e := sgn 6 (scale % 64)
  let t := scale / 64
  let v := if width = 4 then (if t = 0 then fofInt (sgn 4 code) else decode4 (8 + t) code)
    else if t = 0 then fmtE4M3.decode code
    else if t = 1 then (match fmtE5M2.decode code with
      | .inf n => fmtE5M2.decode (fmtE5M2.signed n fmtE5M2.maxFin)
      | v => v)
    else fofInt (sgn 8 code)
  fscale e v

/-- The expansion of a well-formed block on a path (R105, R111): a weight or absent for each position. -/
def expand (bs : List Byte) (int : Bool) : List (Option Weight) :=
  match blockFmt (bAt bs 0) with
  | none => []
  | some f => (List.range f.positions).map fun p =>
      (f.code bs p).map fun x => if int then Weight.i (sgn f.width x) else Weight.f (floatWeight f.width (bAt bs 1) x)

/-- The report of a block fault (R390): check, reader, address, position in the run. -/
def blockErr (bs : List Byte) (fail : Nat × Nat × Nat) (reader slot addr loc pos : Nat) : Err :=
  { Err.plain 0x0A (fail.1 + 16 * reader) slot addr with
    loc := BitVec.ofNat 32 loc
    aux := pos
    val0 := BitVec.ofNat 32 (crc16 (bs.take 62) + 2 ^ 16 * (bAt bs 62 + 256 * bAt bs 63))
    val1 := BitVec.ofNat 32 (if fail.1 = 4 then fail.2.1 + 4 * fail.2.2 else 0) }

end Sys2Proof.Machine
end

