-- ==== Sys2Proof/Machine/Memory.lean ====
section
/-! DEFINITION. The memory slots (R194-R206): M0 reaches SPM and M1 reaches DMEM. -/

namespace Sys2Proof.Machine

open Sys2Proof

/-- Size of SPM (R190). -/
def spmSize : Nat := 0x400000
/-- Size of DMEM (R190). -/
def dmemSize : Nat := 0x40000

/-- Whether the slot reaches SPM (R66). -/
def State.inSpm (s : State) : Bool := s.focus.slot != .m1

/-- An access of n bytes is in its memory and aligned (R196). -/
def State.eaOk (s : State) (ea n align : Nat) : Bool :=
  ea % align == 0 && ea + n ≤ (if s.inSpm then spmSize else dmemSize)

/-- A checked address: class 0x04 when it is outside its memory or misaligned (R196, R386). -/
def State.access (s : State) (ea n align : Nat) (f : State → State) : State :=
  if s.eaOk ea n align then f s else s.trap 4 0

/-- A load: its read point is one cycle after issue (R194). -/
def State.load (s : State) (r : LoadReq) : State := s.later (s.cyc + 1) pRead (.load s.focus r)

/-- A store: it lands two cycles after issue (R194). -/
def State.storeBytes (s : State) (bs : List (Nat × Byte)) : State :=
  s.result 2 (if s.inSpm then .spm bs else .dmem bs)

/-- Cycles from the read point to the register (R194). -/
def State.loadRest (s : State) : Nat := if s.inSpm then 7 else 3

/-- Bytes of a load type (R197). -/
def ldBytes : LdType → Nat | .z8 | .x8 => 1 | .z16 | .x16 => 2 | .z32 | .x32 => 4 | .d64 => 8
/-- The value that a load type delivers (R197). -/
def ldValue (t : LdType) (x : Nat) : W64 :=
  match t with
  | .x8 => BitVec.ofInt 64 (sgn 8 x)
  | .x16 => BitVec.ofInt 64 (sgn 16 x)
  | .x32 => BitVec.ofInt 64 (sgn 32 x)
  | _ => BitVec.ofNat 64 x
/-- Bytes of a store type (R198). -/
def stBytes : StType → Nat | .n8 => 1 | .n16 => 2 | .n32 => 4 | .n64 => 8

/-- R197: s30 is refused (R384). -/
def execLd (g : Guard) (d : Fin 32) (a b : Sel) (t : LdType) (s : State) : Result :=
  s.slot g fun s => s.mayWrite d fun s =>
    let ea := (s.opS a + s.opS b).toNat
    s.access ea (ldBytes t) (ldBytes t) fun s => s.load (.s d ea t)

/-- R198. -/
def execSt (g : Guard) (d : Fin 32) (a b : Sel) (t : StType) (s : State) : Result :=
  s.slot g fun s =>
    let ea := (s.opS a + s.opS b).toNat
    s.access ea (stBytes t) (stBytes t) fun s => s.storeBytes (leCells ea (stBytes t) (s.cur.readS d).toNat)

/-- R199. -/
def execLdi (g : Guard) (d : Fin 32) (a : Sel) (imm : BitVec 11) (s : State) : Result :=
  s.slot g fun s => s.mayWrite d fun s =>
    let ea := (s.opS a + 8 * imm.signExtend 64).toNat
    s.access ea 8 8 fun s => s.load (.s d ea .d64)

/-- R199. -/
def execSti (g : Guard) (d : Fin 32) (a : Sel) (imm : BitVec 11) (s : State) : Result :=
  s.slot g fun s =>
    let ea := (s.opS a + 8 * imm.signExtend 64).toNat
    s.access ea 8 8 fun s => s.storeBytes (leCells ea 8 (s.cur.readS d).toNat)

/-- A whole-register access is aligned, its address is in its memory, and so is every byte that it touches: those of the active
elements (R196, R200; DEDUCED, log entry 31). -/
def State.vaOk (s : State) (ea : Nat) (m : VReg) : Bool :=
  let size := if s.inSpm then spmSize else dmemSize
  ea % 64 == 0 && ea < size && (List.range 512).all fun j => elem 8 m j == 0 || ea + j < size

/-- A whole-register access under the bits m: class 0x04 when R196 refuses it. -/
def State.vaccess (s : State) (ea : Nat) (m : VReg) (f : State → State) : State := if s.vaOk ea m then f s else s.trap 4 0

/-- A whole-register load under the bits m (R200). -/
def State.vload (s : State) (d : Fin 32) (ea : Nat) (m : VReg) : State :=
  s.vaccess ea m fun s => s.load (.v (physV s.cur.regs.rb d) ea m)

/-- A whole-register store under the bits m (R200): whole bytes, or the halves of bytes for 4-bit elements. -/
def State.vstore (s : State) (d : Fin 32) (ea : Nat) (m : VReg) (w : Nat) : State :=
  s.vaccess ea m fun s =>
    let x := s.cur.readV d
    let on := (List.range 512).filter fun j => elem 8 m j ≠ 0
    if w = 4 then
      s.result 2 (.nibbles s.inSpm (on.map fun j => (ea + j, BitVec.ofNat 8 (elem 8 m j), BitVec.ofNat 8 (elem 8 x j))))
    else s.storeBytes (on.map fun j => (ea + j, BitVec.ofNat 8 (elem 8 x j)))

/-- R200. -/
def execVld (g : Guard) (d : Fin 32) (a b : Sel) (k : Fin 8) (wd : Width) (s : State) : Result :=
  s.slot g fun s => s.vload d (s.opS a + s.opS b).toNat (activeBits (s.cur.readK k) wd.bits)

/-- R200. -/
def execVst (g : Guard) (d : Fin 32) (a b : Sel) (k : Fin 8) (wd : Width) (s : State) : Result :=
  s.slot g fun s => s.vstore d (s.opS a + s.opS b).toNat (activeBits (s.cur.readK k) wd.bits) wd.bits

/-- R201. -/
def execVldi (g : Guard) (d : Fin 32) (a : Sel) (imm : BitVec 11) (s : State) : Result :=
  s.slot g fun s => s.vload d (s.opS a + 64 * imm.signExtend 64).toNat (BitVec.allOnes 4096)

/-- R201. -/
def execVsti (g : Guard) (d : Fin 32) (a : Sel) (imm : BitVec 11) (s : State) : Result :=
  s.slot g fun s => s.vstore d (s.opS a + 64 * imm.signExtend 64).toNat (BitVec.allOnes 4096) 32

/-- Bytes and alignment of a packed mask (R202). -/
def kBytes : Width → Nat × Nat | .w32 => (16, 16) | .w16 => (32, 32) | .w8 => (64, 64) | .w4 => (128, 64)

/-- R202. -/
def execKld (g : Guard) (d : Fin 8) (a b : Sel) (wd : Width) (s : State) : Result :=
  s.slot g fun s =>
    let ea := (s.opS a + s.opS b).toNat
    s.access ea (kBytes wd).1 (kBytes wd).2 fun s => s.load (.k d ea wd)

/-- The packed image of a mask (R202). -/
def packMask (k : KReg) (w : Nat) : Nat :=
  joinElems 1 ((List.range (4096 / w)).map fun i => (k.getLsbD (i * w / 4)).toNat)

/-- R202. -/
def execKst (g : Guard) (d : Fin 8) (a b : Sel) (wd : Width) (s : State) : Result :=
  s.slot g fun s =>
    let ea := (s.opS a + s.opS b).toNat
    s.access ea (kBytes wd).1 (kBytes wd).2 fun s =>
      s.storeBytes (leCells ea (kBytes wd).1 (packMask (s.cur.readK d) wd.bits))

/-- The accessed elements of part p with their addresses (R203). -/
def partEas (m : KReg) (p : Fin 4) (f : Nat → W64) : List (Nat × Nat) :=
  ((List.range 32).filter fun j => active m 32 (32 * p.val + j)).map fun j => (32 * p.val + j, (f j).toNat)

/-- Two elements clash: the same bank in different rows (R191, R204). -/
def clash (a b : Nat) : Bool := bits a 6 5 == bits b 6 5 && bits a 11 11 != bits b 11 11

/-- A strided or indexed access (R203-R205): class 0x04 for a bad address, class 0x05 for a clash. -/
def State.scattered (s : State) (es : List (Nat × Nat)) (f : State → State) : State :=
  if es.any fun e => !s.eaOk e.2 4 4 then s.trap 4 0
  else if es.any fun a => es.any fun b => clash a.2 b.2 then s.trap 5 0
  else f s

/-- The bytes that a scattered store writes: the element of the highest index prevails (R205). -/
def scatterBytes (x : VReg) (es : List (Nat × Nat)) : List (Nat × Byte) :=
  (es.map fun (e, a) => leCells a 4 (elem 32 x e)).flatten

/-- R205. -/
def execVlds (g : Guard) (d : Fin 32) (a b : Sel) (k : Fin 8) (p : Fin 4) (s : State) : Result :=
  s.slot g fun s =>
    let es := partEas (s.cur.readK k) p fun j => s.opS a + s.opS b * BitVec.ofNat 64 j
    s.scattered es fun s => s.load (.gather (physV s.cur.regs.rb d) es)

/-- R205. -/
def execVsts (g : Guard) (d : Fin 32) (a b : Sel) (k : Fin 8) (p : Fin 4) (s : State) : Result :=
  s.slot g fun s =>
    let es := partEas (s.cur.readK k) p fun j => s.opS a + s.opS b * BitVec.ofNat 64 j
    s.scattered es fun s => s.storeBytes (scatterBytes (s.cur.readV d) es)

/-- The address of an indexed element (R205). -/
def indexed (a : W64) (x : VReg) (p : Fin 4) (j : Nat) : W64 := a + BitVec.ofInt 64 (sgn 32 (elem 32 x (32 * p.val + j)))

/-- R205. -/
def execVldx (g : Guard) (d : Fin 32) (a : Sel) (b : Fin 32) (k : Fin 8) (p : Fin 4) (s : State) : Result :=
  s.slot g fun s =>
    let es := partEas (s.cur.readK k) p (indexed (s.opS a) (s.cur.readV b) p)
    s.scattered es fun s => s.load (.gather (physV s.cur.regs.rb d) es)

/-- R205. -/
def execVstx (g : Guard) (d : Fin 32) (a : Sel) (b : Fin 32) (k : Fin 8) (p : Fin 4) (s : State) : Result :=
  s.slot g fun s =>
    let es := partEas (s.cur.readK k) p (indexed (s.opS a) (s.cur.readV b) p)
    s.scattered es fun s => s.storeBytes (scatterBytes (s.cur.readV d) es)

/-- R206. -/
def execVldb (g : Guard) (d : Fin 32) (a b : Sel) (k : Fin 8) (int : Bool) (s : State) : Result :=
  s.slot g fun s =>
    let ea := (s.opS a + s.opS b).toNat
    s.access ea 64 64 fun s => s.load (.block (physV s.cur.regs.rb d) ea (s.cur.readK k) int)

/-! ### The read point -/

/-- The value of a position of a block in a register (R206). -/
def blockLane : Option Weight → Nat
  | none => 0
  | some (.f v) => (fmtF32.round 0 0 v).1
  | some (.i v) => (BitVec.ofInt 32 v).toNat

/-- The addresses that a load reads (R194). -/
def LoadReq.addrs : LoadReq → List Nat
  | .s _ ea t => (List.range (ldBytes t)).map (ea + ·)
  | .v _ ea m => ((List.range 512).filter fun j => elem 8 m j ≠ 0).map (ea + ·)
  | .k _ ea w => (List.range (kBytes w).1).map (ea + ·)
  | .gather _ es => (es.map fun (_, a) => (List.range 4).map (a + ·)).flatten
  | .block _ ea _ _ => (List.range 64).map (ea + ·)

/-- A byte of the list read, by its address. -/
def byteAt (as : List Nat) (bs : List Byte) (a : Nat) : Nat := (bs.getD (as.findIdx (· == a)) 0).toNat

/-- The mask that KLD forms (R202). -/
def unpackMask (x w : Nat) : KReg := maskOf w fun i => x / 2 ^ i % 2 == 1

/-- The read point of a load (R194): memory is sampled, and the register is written at its latency. A block that fails a
check writes nothing (R206, R394, R395). -/
def State.readPoint (s : State) (r : LoadReq) : State :=
  let c := s.focus.core.val
  let as := r.addrs
  let (res, s) := s.readBytes c s.inSpm 0 s.focus.slot.num s.focus.addr as
  match res with
  | none => s
  | some bs =>
    match r with
    | .s d _ t => s.result s.loadRest (.s d (ldValue t (ofLe bs)))
    | .v p ea m => s.result s.loadRest (.v p m (ofElems 8 fun j => if elem 8 m j ≠ 0 then byteAt as bs (ea + j) else 0))
    | .k d _ w => s.result s.loadRest (.k d (BitVec.allOnes 1024) (unpackMask (ofLe bs) w.bits))
    | .gather p es =>
      let x := fun (a : Nat) => ofLe ((List.range 4).map fun i => BitVec.ofNat 8 (byteAt as bs (a + i)))
      s.result s.loadRest (.v p (scatter32 (es.map fun e => (e.1, 2 ^ 32 - 1))) (scatter32 (es.map fun e => (e.1, x e.2))))
    | .block p ea k int =>
      match blockFail bs false with
      | some f => s.raiseOn c (blockErr bs f 0 s.focus.slot.num s.focus.addr ea 0)
      | none =>
        let ls := (expand bs int).map blockLane
        let n := ls.length
        s.result 11 (.v p (ofElems 32 fun i => if i < n ∧ active k 32 i then 2 ^ 32 - 1 else 0)
          (BitVec.ofNat 4096 (joinElems 32 ls)))
where
  /-- A register with the listed 32-bit elements. -/
  scatter32 (es : List (Nat × Nat)) : VReg :=
    BitVec.ofNat 4096 (es.foldl (fun n (i, x) => n + x * 2 ^ (i * 32)) 0)

end Sys2Proof.Machine
end

