-- ==== Sys2Proof/Machine/Matrix.lean ====
section
/-! DEFINITION. The matrix engine and the copy engine (R208-R238, R394-R397). -/

namespace Sys2Proof.Machine

open Sys2Proof

/-! ### Issue of the engine words -/

/-- R232. -/
def execMset (g : Guard) (o : BitVec 12) (a : Fin 32) (k : Fin 8) (s : State) : Result :=
  s.slot g fun s => s.enqueue .matrix (.mset g o a k) o (s.cur.readS a) 0 0

/-- R233. -/
def execMcall (g : Guard) (o : BitVec 12) (a b : Fin 32) (s : State) : Result :=
  s.slot g fun s => s.computeOnly fun s => s.enqueue .matrix (.mcall g o a b) o (s.cur.readS a) (s.cur.readS b) 0

/-- R234. -/
def execMload (g : Guard) (o : BitVec 12) (a b : Fin 32) (s : State) : Result :=
  s.slot g fun s => s.computeOnly fun s => s.enqueue .matrix (.mload g o a b) o (s.cur.readS a) (s.cur.readS b) 0

/-- R235. -/
def execCpyaSpm (g : Guard) (o : BitVec 12) (a b : Fin 32) (s : State) : Result :=
  s.slot g fun s => s.enqueue .copy (.cpyaSpm g o a b) o (s.cur.readS a) (s.cur.readS b) 0

/-- R235. -/
def execCpyaAcc (g : Guard) (o : BitVec 12) (a b : Fin 32) (s : State) : Result :=
  s.slot g fun s => s.enqueue .copy (.cpyaAcc g o a b) o (s.cur.readS a) (s.cur.readS b) 0

/-! ### State of the engine -/

/-- Change the matrix engine of the focused core. -/
def State.modMx (s : State) (f : Matrix → Matrix) : State := s.modCur fun k => { k with mx := f k.mx }

/-- The matrix engine of the focused core. -/
def State.mx (s : State) : Matrix := s.cur.mx

/-- Change the sequencer. -/
def State.modSeq (s : State) (f : Seq → Seq) : State := s.modMx fun m => { m with seq := m.seq.map f }

/-- A half of the weight latch (R214). -/
def Matrix.half (m : Matrix) (h : Bool) : Half := if h then m.half1 else m.half0

/-- An error of the matrix engine (R388, R390): slot 8, the bundle that issued the command, and for class 0x0B the routine number. -/
def State.mxErr (s : State) (cls info loc : Nat) : State :=
  s.raiseOn s.focus.core.val { Err.plain cls info 8 s.focus.addr with
    loc := BitVec.ofNat 32 loc, aux := if cls = 0x0B then (match s.mx.seq with | some q => q.routine | none => 0) else 0 }

/-- The end cycle of the steps issued so far, no earlier than t (R220). -/
def Seq.endCycle (q : Seq) (t : Nat) : Nat :=
  [q.portFree, q.arrayFree, q.sw0, q.sw1, q.gLand, q.aLand].foldl max t

/-- The sequencer issues no further step, and the routine ends with the steps issued (R220, R395); an MLOAD ends at once. -/
def State.seqStop (s : State) : State :=
  match s.mx.seq with
  | none => s.modMx fun m => { m with busyTo := min m.busyTo (s.cyc + 1) }
  | some q =>
    let e := q.endCycle (s.cyc + 1)
    ((s.drop s.focus.core.val fun ev => match ev with | .seqStep => true | .run _ i => i == .routineEnd | _ => false).modMx fun m =>
      { m with seq := some { q with stopped := true }, busyTo := e }).later e pLand (.run s.focus .routineEnd)

/-- The latest landing cycle of the pending operations of the focused core that satisfy p, no earlier than the next cycle. -/
def State.lastOf (s : State) (p : Ev → Bool) : Nat :=
  (s.agenda.filter fun it => it.core == s.focus.core.val && p it.ev).foldl (fun t it => max t (it.tick / 3)) (s.cyc + 1)

/-- A step of the port unit stops at this cycle (R391, R395, R396): what it has read lands, and the routine ends with the steps
issued. -/
def State.portStop (s : State) : State :=
  let e := s.lastOf fun ev => match ev with | .abuf _ | .latch .. => true | _ => false
  (s.modSeq fun q => { q with portFree := s.cyc + 1, sw0 := e, sw1 := e, gLand := e }).seqStop

/-- Rows in one array cycle (R208). -/
def rho (afmt : Nat) (x2 : Bool) : Nat := 64 / codeWidth afmt * (if x2 then 2 else 1)

/-- An MMA stops at this cycle (R391, R396): none of its array cycles that satisfy dead lands, and the routine ends with the steps
issued. -/
def State.arrayStop (s : State) (o : MmaOp) (dead : Nat → Bool) : State :=
  let s := s.drop s.focus.core.val fun ev => match ev with
    | .array o' _ _ => o' == o
    | .acc (some (o', m, _)) _ => o' == o && dead m
    | _ => false
  let e := s.lastOf fun ev => match ev with | .acc .. => true | _ => false
  (s.modSeq fun q => if q.aLand = o.start + (o.n + rho o.afmt o.x2 - 1) / rho o.afmt o.x2 + 5 then
    { q with arrayFree := s.cyc + 1, aLand := e } else q).seqStop

/-- A matrix fault at a step's issue, which stops the sequencer (R395, R396). -/
def State.mxStop (s : State) (cls info loc : Nat) : State := (s.mxErr cls info loc).seqStop

/-- A step has issued (R217): the next step, n cycles later than the following cycle. -/
def State.stepTo (s : State) (target : Option Nat) (cyc : Nat) : State :=
  (s.modSeq fun q => { q with step := target.getD (q.step + 1), last := s.cyc, next := cyc }).later cyc pEngine .seqStep

/-- The next step in order issues n cycles after the following cycle. -/
def State.stepOn (s : State) (n : Nat) : State := s.stepTo none (s.cyc + 1 + n)

/-! ### Starts -/

/-- MSET at its start (R232). -/
def State.startMset (s : State) (k : Fin 8) (x : W64) : State :=
  s.modCur fun c => { c with regs := { c.regs with mp := c.regs.mp.set k x } }.unmark .mp k.val

/-- MCALL at its start (R217, R233): class 0x02 in an exchange phase, class 0x08 while the engine is busy (R385),
class 0x0E for a failed register (R392), class 0x1C for an uncorrectable entry (R393), class 0x0B for an invalid entry (R396). A
correctable entry is corrected at its read (R366). -/
def State.startMcall (s : State) (a b : W64) : State :=
  let n := a.toNat % 256
  let m := s.mx
  let e := (Sp.get 0 m.rtab n).toNat
  if s.exchange s.focus.core.val then s.mxErr 2 1 0
  else if m.seq.isSome ∨ s.cyc < m.busyTo then s.mxErr 8 2 0
  else if (s.cur.marked .mp (List.range 8) true).isSome then
    (s.cur.badUnits .mp (List.range 8)).foldl (fun s u =>
      s.raiseOn s.focus.core.val { Err.plain 0x0E 5 8 s.focus.addr with loc := BitVec.ofNat 32 u }) s
  else if (s.cur.marked .rtab [n] true).isSome then s.mxErr 0x1C 3 n
  else if bits e 13 1 = 0 then (s.fixes s.focus.core.val .rtab [n]).raiseOn s.focus.core.val { Err.plain 0x0B 8 8 s.focus.addr with aux := n }
  else
    ((s.fixes s.focus.core.val .rtab [n]).modMx fun m => { m with
      began := s.cyc
      ma := Vector.ofFn fun i => s.cur.regs.mp[i].setWidth 32
      mc := (Vector.replicate 4 0).set 0 (b.setWidth 32)
      seq := some ⟨bits e 0 13, s.cyc, s.cyc + 1, n, s.focus.addr, 0, 0, 0, 0, 0, 0, false⟩ }).later
      (s.cyc + 1) pEngine .seqStep

/-- Bytes of a plain weight (R226), 0 for an illegal format. -/
def plainBytes (fmt : Nat) : Nat := match fmt with | 1 | 2 | 6 => 2 | 3 | 4 | 7 => 1 | _ => 0

/-- The load of a directory entry begins (R225). -/
def State.beginWld (s : State) (l : Load) (addr : Nat) : State := s.later s.cyc pPort (.port (.entry l addr) s.focus.addr)

/-- The load of plain weights begins (R226): class 0x0B, info 6, for an illegal use. -/
def State.beginWldp (s : State) (l : Load) (ok : State → State) : State :=
  let b := plainBytes l.fmt
  if b = 0 ∨ l.base % 64 ≠ 0 ∨ spmSize < l.base + 12288 * b then s.mxStop 0x0B 6 l.base
  else ok (s.later s.cyc pPort (.port (.plain l 0) s.focus.addr))

/-- Port cycles of plain weights (R218). -/
def plainCycles (fmt : Nat) : Nat := 6 * plainBytes fmt

/-- MLOAD at its start (R234): a load step issued at the start cycle. -/
def State.startMload (s : State) (a b : W64) : State :=
  let h := b.getLsbD 0
  if s.exchange s.focus.core.val then s.mxErr 2 1 0
  else if s.mx.seq.isSome ∨ s.cyc < s.mx.busyTo then s.mxErr 8 2 0
  else if b.getLsbD 2 then
    let fmt := bits b.toNat 3 4
    s.beginWldp ⟨h, !codeFloat fmt, true, a.toNat, 0, fmt, [], 0, false, false⟩ fun s =>
      s.modMx fun m => { m with began := s.cyc, busyTo := s.cyc + plainCycles fmt + 4 }
  else
    (s.modMx fun m => { m with began := s.cyc, busyTo := s.cyc + 5 }).beginWld ⟨h, b.getLsbD 1, true, 0, 0, 0, [], 0, false, true⟩ a.toNat

/-- The operands of a CPYA (R235). -/
def copyOp (toSpm : Bool) (a b : W64) (addr : Nat) : CopyOp :=
  let x := b.toNat
  let fmt := bits x 22 4
  { toSpm := toSpm, addr := a.toNat, row0 := bits x 0 11, n := bits x 11 11 + 1, fmt := fmt, int := b.getLsbD 26,
    mode := bits x 27 3, scale := if b.getLsbD 30 then some (sgn 6 (bits x 31 6)) else none,
    pitch := if bits x 37 11 = 0 then 16 * codeWidth fmt else 64 * bits x 37 11, clr := b.getLsbD 48 && toSpm,
    bundle := addr }

/-- CPYA at its start (R235, R236): class 0x08 while the engine is busy, class 0x0B, info 9, for an illegal use. -/
def State.startCpya (s : State) (o : CopyOp) : State :=
  if s.cyc < s.mx.copyFree then s.mxErr 8 3 0
  else if 12 ≤ o.fmt ∨ o.addr % 64 ≠ 0 ∨ spmSize < o.addr + (o.n - 1) * o.pitch + 16 * codeWidth o.fmt then
    s.raiseOn s.focus.core.val { Err.plain 0x0B 9 8 s.focus.addr with loc := BitVec.ofNat 32 o.addr }
  else (s.modMx fun m => { m with copyBegan := s.cyc, copyFree := s.cyc + o.n }).later s.cyc pCopyRead (.copyRow o 0)

/-! ### Micro-steps -/

/-- A maK. -/
def State.maOf (s : State) (k : Fin 8) : Nat := s.mx.ma[k].toNat

/-- R222, R220. -/
def execMend (s : State) : Result := .next s.seqStop

/-- R222. -/
def execMnop (n : BitVec 16) (s : State) : Result := .next (s.stepOn n.toNat)

/-- R222. -/
def execMseta (k : Fin 8) (imm : BitVec 32) (s : State) : Result :=
  .next ((s.modMx fun m => { m with ma := m.ma.set k imm }).stepOn 0)

/-- R222. -/
def execMadda (k : Fin 8) (imm : BitVec 32) (s : State) : Result :=
  .next ((s.modMx fun m => { m with ma := m.ma.set k (m.ma[k] + imm) }).stepOn 0)

/-- R222. -/
def execMsetc (k : Fin 4) (imm : BitVec 32) (s : State) : Result :=
  .next ((s.modMx fun m => { m with mc := m.mc.set k imm }).stepOn 0)

/-- R222: the body runs max(n, 1) times. -/
def execMloop (k : Fin 4) (target : BitVec 13) (s : State) : Result :=
  .next (if 1 < s.mx.mc[k].toNat then
      (s.modMx fun m => { m with mc := m.mc.set k (m.mc[k] - 1) }).stepTo (some target.toNat) (s.cyc + 1)
    else (s.modMx fun m => { m with mc := m.mc.set k 0 }).stepOn 0)

/-- R219: the next step waits for the events of the mask. -/
def execMsync (mask : BitVec 4) (s : State) : Result :=
  .next (match s.mx.seq with
    | none => s
    | some q =>
      let t := [(0, q.sw0), (1, q.sw1), (2, q.gLand), (3, q.aLand)].foldl
        (fun t (i, c) => if mask.getLsbD i then max t c else t) (s.cyc + 1)
      s.stepTo none t)

/-- Rows of a group (R223): 1,536 bytes. -/
def gatherGroup (width : Nat) : Nat := 128 / width

/-- The SPM address of row k of a gather (R223). -/
def Gather.rowAddr (g : Gather) (k : Nat) : Nat :=
  match g.stride with
  | some st => (((g.base : Int) + k * st) % 2 ^ 32).toNat
  | none => (g.base + g.idx.getD k 0 * (12 * g.width)) % 2 ^ 32

/-- A row lies in SPM (R224). -/
def Gather.rowOk (g : Gather) (k : Nat) : Bool := g.rowAddr k + 12 * g.width ≤ spmSize

/-- The address of the step in execution. -/
def State.stepAddr (s : State) : Nat := match s.mx.seq with | some q => q.step | none => 0

/-- Width of an AGATH code (R223). -/
def gatherWidth (wd : Fin 4) : Nat := match wd with | 0 => 16 | 1 => 8 | 2 => 4 | 3 => 0

/-- R223, R224: the checks of R396, info 4, at issue; the port is busy for the list cycles and the groups. -/
def execAgath (bs is : Fin 8) (wd : Fin 4) (stride : Bool) (a : Fin 8) (aoff nm : BitVec 11) (s : State) : Result :=
  let w := gatherWidth wd
  let n := nm.toNat + 1
  let st : Int := sgn 32 (s.maOf is)
  let g : Gather := ⟨s.maOf bs, w, if stride then some st else none, s.maOf a + aoff.toNat, n, s.maOf is, []⟩
  let lists := if stride then 0 else (n + 1023) / 1024
  if w = 0 then .next (s.mxStop 0x0B 4 s.stepAddr)
  else if g.base % 16 ≠ 0 ∨ (stride ∧ st % 16 ≠ 0) then .next (s.mxStop 0x0B 4 g.base)
  else if !stride ∧ (g.list % 64 ≠ 0 ∨ spmSize < g.list + 2 * n) then .next (s.mxStop 0x0B 4 g.list)
  else if stride ∧ (List.range n).any (fun k => !g.rowOk k) then
    .next (s.mxStop 0x0B 4 (((List.range n).find? fun k => !g.rowOk k).elim 0 g.rowAddr))
  else
    let groups := (n + gatherGroup w - 1) / gatherGroup w
    .next (((s.modSeq fun q => { q with portFree := s.cyc + lists + groups, gLand := s.cyc + lists + groups + 2 }).later
      s.cyc pPort (.port (if stride then .gatherRows g 0 else .gatherList g 0) s.focus.addr)).stepOn 0)

/-- R225: the entry is read in the step's own cycle. -/
def execWld (d : Fin 8) (j : BitVec 16) (int h : Bool) (s : State) : Result :=
  let addr := (((s.maOf d : Nat) : Int) + 8 * j.toInt) % 2 ^ 32
  .next (((s.modSeq fun q => { q with portFree := s.cyc + 1 }).beginWld
    ⟨h, int, false, 0, 0, 0, [], 0, false, true⟩ addr.toNat).stepOn 0)

/-- The latest switch cycle of a half. -/
def Seq.setSw (q : Seq) (h : Bool) (c : Nat) : Seq := if h then { q with sw1 := c } else { q with sw0 := c }

/-- R226. -/
def execWldp (d : Fin 8) (fmt : Fin 16) (h : Bool) (s : State) : Result :=
  .next (s.beginWldp ⟨h, !codeFloat fmt.val, false, s.maOf d, 0, fmt.val, [], 0, false, false⟩ fun s =>
    (s.modSeq fun q => { q.setSw h (s.cyc + plainCycles fmt.val + 4) with portFree := s.cyc + plainCycles fmt.val }).stepOn 0)

/-- Post the landings of the groups of an ACLR from group m on (R227). -/
def State.clearGroups (s : State) (c0 n : Nat) : Nat → Nat → State
  | 0, _ => s
  | fuel + 1, m =>
    let rows := (List.range 32).filter fun i => 32 * m + i < n
    ((s.later (s.cyc + m + 6) pLand (.acc none ((rows.map fun i => (List.range 128).map fun j =>
      ((c0 + 32 * m + i) % 2048 * 128 + j, AccUpd.clear)).flatten))).clearGroups c0 n fuel (m + 1))

/-- R227. -/
def execAclr (c : Fin 8) (coff nm : BitVec 11) (s : State) : Result :=
  let n := nm.toNat + 1
  let groups := (n + 31) / 32
  .next (((s.modSeq fun q => { q with arrayFree := s.cyc + groups, aLand := s.cyc + groups + 5 }).clearGroups
    (s.maOf c + coff.toNat) n groups 0).stepOn 0)

/-- The uses of MMA that R229 calls illegal, against a half. -/
def mmaBad (h : Half) (afmt : Nat) (x2 : Bool) : Bool :=
  afmt == 0 || afmt == 5 || 12 ≤ afmt || h.int == codeFloat afmt || (x2 && codeWidth afmt == 16) || (x2 && !h.sparse)

/-- R228, R229. -/
def execMma (c : Fin 8) (coff : BitVec 11) (a : Fin 8) (aoff : BitVec 11) (afmt : Fin 16) (x2 h : Bool) (nm : BitVec 11)
    (s : State) : Result :=
  if mmaBad (s.mx.half h) afmt.val x2 then
    .next (s.mxStop 0x0B 7 s.stepAddr)
  else
    let n := nm.toNat + 1
    let cycles := (n + rho afmt.val x2 - 1) / rho afmt.val x2
    .next (((s.modSeq fun q => { q with arrayFree := s.cyc + cycles, aLand := s.cyc + cycles + 5 }).later s.cyc pRead
      (.array ⟨s.stepAddr, s.cyc, s.maOf c + coff.toNat, s.maOf a + aoff.toNat, afmt.val, x2, h, n⟩ 0 s.focus.addr)).stepOn 0)

/-- R220: the engine is free from the end cycle. -/
def execRoutineEnd (s : State) : Result :=
  .next (s.modMx fun m => { m with seq := none, busyTo := s.cyc })

/-- The unit that the step of a word uses is free (R217): the port serves AGATH, WLD and WLDP, the array ACLR and MMA. -/
def unitFree (q : Seq) (w : Nat) : Nat :=
  match fld w 58 6 with
  | 0x08 | 0x09 | 0x0A => q.portFree
  | 0x0B | 0x0C => q.arrayFree
  | _ => 0

/-- The sequencer at a cycle (R217): the step is fetched, waits for its unit, and issues; what makes it illegal is found at its issue
(R221, R396). A step that comes to issue in the very cycle in which an array cycle or a port cycle faults is one already issued (DESIGN
CHOICE, log entry 98). -/
def State.seqStep (s : State) (ex : Instr → State → Result) : Result :=
  match s.mx.seq with
  | none => .next s
  | some q =>
    let s := { s with focus := { s.focus with addr := q.addr, slot := .eng } }
    let w := (Sp.get 0 s.mx.rstore q.step).toNat
    if 8192 ≤ q.step then .next (s.mxStop 0x0B 10 q.step)
    else if (s.cur.marked .rstore [q.step] true).isSome then .next (s.mxStop 0x1C 4 q.step)
    else if s.cyc < unitFree q w then .next (s.later (unitFree q w) pEngine .seqStep)
    else
      let s := s.fixes s.focus.core.val .rstore [q.step]
      match decodeMicro w with
      | none => .next (s.mxStop 0x0B (if 1 ≤ fld w 58 6 ∧ fld w 58 6 ≤ 12 then 3 else 2) q.step)
      | some i => ex i s

/-! ### The port unit -/

/-- Two of the 64-byte SPM rows touched clash (R224): one bank, different rows. -/
def gatherClash (as : List Nat) : Option Nat :=
  let ids := (as.map (· / 64)).dedup
  ids.find? (fun i => ids.any fun j => i % 32 = j % 32 && i != j) |>.map (· * 64)

/-- The capacity of ABUF in rows of a width (R212). -/
def abufRows (width : Nat) : Nat := 98304 / (12 * width)

/-- A matrix fault at a port cycle, which stops its step and the sequencer (R395, R396). -/
def State.portErr (s : State) (info loc : Nat) : State := (s.mxErr 0x0B info loc).portStop

/-- The SPM address that a port cycle reads first. -/
def Port.loc : Port → Nat
  | .gatherList g k => g.list + 2048 * k
  | .gatherRows g m => g.rowAddr (gatherGroup g.width * m)
  | .entry _ a => a
  | .blocks l k => l.base + 2048 * k
  | .plain l k => l.base + 2048 * k

/-- A port cycle at or after the core's arrival, or in an exchange phase, whose port is the network's, reads nothing: class 0x0B,
info 11 (R48, R192, R396; log entry 78 for the cycle of the arrival itself). -/
def State.portCycle (s : State) (loc : Nat) (f : State → State) : State :=
  if s.exchange s.focus.core.val || s.cur.arrival.any (·.cyc ≤ s.cyc) then s.portErr 11 loc else f s

/-- One port cycle of an index list (R223). -/
def State.gatherList (s : State) (g : Gather) (k : Nat) : State :=
  let n := min 1024 (g.n - 1024 * k)
  let (res, s) := s.readBytes s.focus.core.val true 1 8 s.focus.addr ((List.range (2 * n)).map (g.list + 2048 * k + ·))
  match res with
  | none => s.portStop
  | some bs =>
    let g := { g with idx := g.idx ++ (List.range n).map fun i => bAt bs (2 * i) + 256 * bAt bs (2 * i + 1) }
    s.later (s.cyc + 1) pPort
      (.port (if g.n ≤ 1024 * (k + 1) then .gatherRows g 0 else .gatherList g (k + 1)) s.focus.addr)

/-- One port cycle of a group of rows (R223, R224). Of a group that both holds a row outside SPM and clashes, infos 4 and 1 of one port
cycle (R396), the first is reported alone (DESIGN CHOICE, log entry 94). -/
def State.gatherRows (s : State) (g : Gather) (m : Nat) : State :=
  let gg := gatherGroup g.width
  let rows := ((List.range gg).map (gg * m + ·)).filter (· < g.n)
  let bytes := 12 * g.width
  match rows.find? fun k => !g.rowOk k with
  | some k => s.portErr 4 (g.rowAddr k)
  | none =>
    let as := (rows.map fun k => (List.range bytes).map (g.rowAddr k + ·)).flatten
    match gatherClash as with
    | some a => s.portErr 1 a
    | none =>
      let (res, s) := s.readBytes s.focus.core.val true 1 8 s.focus.addr as
      match res with
      | none => s.portStop
      | some bs =>
        let dst := (rows.map fun k => (List.range bytes).map ((g.row0 + k) % abufRows g.width * bytes + ·)).flatten
        let s := s.later (s.cyc + 3) pLand (.abuf (dst.zip bs))
        if gg * (m + 1) < g.n then s.later (s.cyc + 1) pPort (.port (.gatherRows g (m + 1)) s.focus.addr) else s

/-- The end cycles of a load once its length is known (R218, R234). -/
def State.loadEnds (s : State) (l : Load) (free sw : Nat) : State :=
  if l.mload then s.modMx fun m => { m with busyTo := sw }
  else s.modSeq fun q => { q.setSw l.half sw with portFree := max q.portFree free }

/-- The port cycle that reads a directory entry (R117, R225, R396). -/
def State.loadEntry (s : State) (l : Load) (addr : Nat) : State :=
  if addr % 8 ≠ 0 ∨ spmSize < addr + 8 then s.portErr 5 addr
  else
    let (res, s) := s.readBytes s.focus.core.val true 1 8 s.focus.addr ((List.range 8).map (addr + ·))
    match res with
    | none => s.portStop
    | some bs =>
      let e := ofLe bs
      let base := 64 * bits e 0 32
      let n := bits e 32 9
      if bits e 41 23 ≠ 0 ∨ 256 < n ∨ (n ≠ 0 ∧ spmSize < base + 64 * n) then s.portErr 5 addr
      else
        let cyc := (n + 31) / 32
        let s := s.loadEnds l (s.cyc + cyc + 1) (s.cyc + cyc + 5)
        if n = 0 then s.later (s.cyc + 5) pLand (.latch l.half ⟨[], l.int, false⟩)
        else s.later (s.cyc + 1) pPort (.port (.blocks { l with base := base, count := n } 0) s.focus.addr)

/-- One block enters a load (R118, R119): none when it fails a check. -/
def Load.take (l : Load) (bs : List Byte) : Option Load :=
  if (blockFail bs l.second).isSome then none
  else
    let d8 := bAt bs 0 == 0x02
    let sparse := l.allSparse && bAt bs 0 / 16 != 0
    if 128 ≤ l.col then some { l with allSparse := sparse }
    else
      let row0 := if l.second then 48 else 0
      let new := ((List.range 96).zip (expand bs l.int)).filterMap fun (p, w) =>
        w.map fun x => ((row0 + p) * 128 + l.col, x)
      some { l with
        entries := new.foldl (fun m (i, x) => Sp.put i x m) l.entries
        allSparse := sparse
        second := d8 && !l.second
        col := if d8 && !l.second then l.col else l.col + 1 }

/-- Blocks of one port cycle in run order (R118, R394): the load, or the position and content of the first that fails. -/
def Load.takeAll (l : Load) (k : Nat) : List (List Byte) → Sum Load (Nat × List Byte × Bool)
  | [] => .inl l
  | b :: r => match l.take b with
    | some l' => l'.takeAll (k + 1) r
    | none => .inr (k, b, l.second)

/-- Rows of 64 bytes cut from a list. -/
def chunks64 : Nat → List Byte → List (List Byte)
  | 0, _ => []
  | n + 1, bs => bs.take 64 :: chunks64 n (bs.drop 64)

/-- A port cycle of a run of blocks (R225, R394, R395). -/
def State.loadBlocks (s : State) (l : Load) (k : Nat) : State :=
  let n := min 32 (l.count - 32 * k)
  let (res, s) := s.readBytes s.focus.core.val true 1 8 s.focus.addr ((List.range (64 * n)).map (l.base + 2048 * k + ·))
  match res with
  | none => s.portStop
  | some bs =>
    match l.takeAll (32 * k) (chunks64 n bs) with
    | .inr (i, b, second) =>
      match blockFail b second with
      | some f => (s.raiseOn s.focus.core.val
          (blockErr b f (if l.mload then 2 else 1) 8 s.focus.addr (l.base + 64 * i) i)).portStop
      | none => s
    | .inl l =>
      if l.count ≤ 32 * (k + 1) then s.later (s.cyc + 5) pLand (.latch l.half ⟨l.entries, l.int, l.allSparse⟩)
      else s.later (s.cyc + 1) pPort (.port (.blocks l (k + 1)) s.focus.addr)

/-- The value of a plain weight (R226). -/
def plainWeight (fmt x : Nat) : Weight :=
  if codeFloat fmt then .f ((codeFmt fmt).decode x) else .i (sgn (codeWidth fmt) x)

/-- A port cycle of plain weights (R226): column-major, 2,048 bytes. -/
def State.loadPlain (s : State) (l : Load) (k : Nat) : State :=
  let b := plainBytes l.fmt
  let (res, s) := s.readBytes s.focus.core.val true 1 8 s.focus.addr ((List.range 2048).map (l.base + 2048 * k + ·))
  match res with
  | none => s.portStop
  | some bs =>
    let per := 2048 / b
    let new := (List.range per).map fun i =>
      let e := per * k + i
      (e % 96 * 128 + e / 96, plainWeight l.fmt (if b = 1 then bAt bs i else bAt bs (2 * i) + 256 * bAt bs (2 * i + 1)))
    let l := { l with entries := new.foldl (fun m (i, x) => Sp.put i x m) l.entries }
    if k + 1 < plainCycles l.fmt then s.later (s.cyc + 1) pPort (.port (.plain l (k + 1)) s.focus.addr)
    else s.later (s.cyc + 5) pLand (.latch l.half ⟨l.entries, l.int, false⟩)

/-- A cycle of the port unit (R218, R223-R226). -/
def State.port (s : State) (p : Port) (addr : Nat) : State :=
  ({ s with focus := { s.focus with addr := addr, slot := .eng } } : State).portCycle p.loc fun s =>
    match p with
    | .gatherList g k => s.gatherList g k
    | .gatherRows g m => s.gatherRows g m
    | .entry l a => s.loadEntry l a
    | .blocks l k => s.loadBlocks l k
    | .plain l k => s.loadPlain l k

/-! ### The array -/

/-- Element p of an A row (R212). -/
def Matrix.aElem (m : Matrix) (w row p : Nat) : Nat :=
  let bit := p * w
  m.abuf.byte (row * (12 * w) + bit / 8) |>.toNat |> fun b =>
    if w = 16 then b + 256 * (m.abuf.byte (row * (12 * w) + bit / 8 + 1)).toNat
    else if w = 8 then b else bits b (bit % 8) 4

/-- The present entries of a column of a half, by depth (R214). -/
def Half.column (h : Half) (j : Nat) : List (Nat × Weight) :=
  h.entries.filterMap fun (i, x) => if i % 128 = j then some (i / 128, x) else none

/-- The group sums of one element on the float path (R120): nothing for a group with no present entry. -/
def floatGroups (a : Nat → FVal) (col : List (Nat × Weight)) : List W32 :=
  (List.range 4).filterMap fun g =>
    let ps := col.filterMap fun (p, w) => if p / 24 = g then
      (match w with | .f x => some (fmulEx (a p) x) | .i _ => none) else none
    if ps = [] then none else some (BitVec.ofNat 32 (fmtF32.round 0 0 (fsumEx false ps)).1)

/-- The sum of one element on the integer path, modulo 2^32 (R122). -/
def intSum (a : Nat → Int) (col : List (Nat × Weight)) : W32 :=
  BitVec.ofInt 32 (col.foldl (fun n (p, w) => match w with | .i x => n + a p * x | .f _ => n) 0)

/-- The landings of one row (R228): elements without a present entry are not written. -/
def rowUpdates (m : Matrix) (h : Half) (afmt arow crow : Nat) (cols : List (Nat × List (Nat × Weight))) :
    List (Nat × AccUpd) :=
  let w := codeWidth afmt
  cols.map fun (j, col) =>
    (crow * 128 + j,
      if h.int then .i (intSum (fun p => sgn w (m.aElem w arow p)) col)
      else .f (floatGroups (fun p => decodeCode afmt (m.aElem w arow p)) col))

/-- The soft errors that an array cycle meets (R366, R390, R397), each with its info and location: parity of ABUF, with its row of `bytes`
bytes, of the half, of an operand latch, residue. -/
def Core.arrayErrs (k : Core) (h : Bool) (bytes : Nat) (abytes : List Nat) : List (Nat × Nat) :=
  let of := fun (info : Nat) (st : Store) => (k.marks.filter (·.store == st)).map fun m => (info, m.unit)
  (k.badUnits .abuf abytes).map (fun u => (1, u / bytes))
    ++ ((k.marks.filter fun m => m.store == .latch && m.unit / 12288 == h.toNat).map fun m => (2, m.unit % 12288))
    ++ of 3 .operand ++ of 4 .residue

/-- The operand latches are loaded, and the group sums formed, anew at each array cycle: their errors last for one (R366, R397). -/
def Core.passArray (k : Core) : Core :=
  if k.marks = [] then k else { k with marks := k.marks.filter fun m => !(m.store == .operand || m.store == .residue) }

/-- An array cycle of an MMA (R228, R229): the rows are formed now and land six cycles later. A fault in it lets the step of its own cycle
issue (DESIGN CHOICE, log entry 98). -/
def State.array (s : State) (o : MmaOp) (m addr : Nat) : State :=
  let s := { s with focus := { s.focus with addr := addr, slot := .eng } }
  let h := s.mx.half o.half
  let r := rho o.afmt o.x2
  let rows := ((List.range r).map (r * m + ·)).filter (· < o.n)
  let w := codeWidth o.afmt
  if mmaBad h o.afmt o.x2 then (s.mxErr 0x0B 7 o.step).arrayStop o fun _ => false
  else
    let ab := (rows.map fun i => (List.range (12 * w)).map ((o.a0 + i) % abufRows w * (12 * w) + ·)).flatten
    let s := if s.cur.marks = [] then s else (s.cur.arrayErrs o.half (12 * w) ab).foldl (fun (s : State) e =>
      s.raiseOn s.focus.core.val { Err.plain 0x0C e.1 8 addr with loc := BitVec.ofNat 32 e.2 }) (s.modCur Core.passArray)
    let cols := ((List.range 128).map fun j => (j, h.column j)).filter (·.2 ≠ [])
    let ups := (rows.map fun i =>
      rowUpdates s.mx h o.afmt ((o.a0 + i) % abufRows w) ((o.c0 + i) % 2048) cols).flatten
    let s := s.later (s.cyc + 6) pLand (.acc (some (o, m, addr)) ups)
    if r * (m + 1) < o.n then s.later (s.cyc + 1) pRead (.array o (m + 1) addr) else s

/-- One ACC element after an array landing (R120, R122, R227). -/
def AccUpd.apply (u : AccUpd) (x : W32) : W32 :=
  match u with
  | .f gs => gs.foldl (fun a g => BitVec.ofNat 32 (fmtF32.add a.toNat g.toNat).1) x
  | .i d => x + d
  | .clear => 0

/-- ACC elements with some of them written. -/
def putAcc (acc els : List (Nat × W32)) : List (Nat × W32) := els.foldl (fun m e => Sp.set 0 m e.1 e.2) acc

/-- ACC elements are written (R213): region bits are set and marks are cleared. -/
def Core.writeAcc (k : Core) (els : List (Nat × W32)) : Core :=
  { k with
    mx := { k.mx with acc := putAcc k.mx.acc els }
    accRegion := els.foldl (fun r e => Sp.set false r e.1 true) k.accRegion
    marks := if k.marks = [] then k.marks else k.marks.filter fun mk => !(mk.store == .acc && els.any fun e => e.1 == mk.unit) }

/-- The rows of ACC that a writer has written enter the signature, with their elements as given (R398). -/
def Core.signRows (k : Core) (cyc who : Nat) (els acc : List (Nat × W32)) : Core :=
  if k.verify.isNone then k
  else ((els.map fun e => e.1 / 128).dedup).foldl (fun k r =>
    k.sign cyc who 6 r ((List.range 128).map fun j => leBytes 4 (Sp.get 0 acc (128 * r + j)).toNat).flatten) k

/-- The ACC elements that array cycle m of an MMA reads (R228). -/
def MmaOp.elements (o : MmaOp) (m : Nat) : List Nat :=
  let r := rho o.afmt o.x2
  ((((List.range r).map (r * m + ·)).filter (· < o.n)).map fun i => (List.range 128).map fun j => (o.c0 + i) % 2048 * 128 + j).flatten

/-- ACC after an array landing, and which elements it wrote, with their values before (R120, R122, R227, R237). -/
def Core.landArray (k : Core) (cyc : Nat) (ups : List (Nat × AccUpd)) : Core :=
  let els := ups.map fun (i, u) => (i, u.apply (Sp.get 0 k.mx.acc i))
  let wrote := (k.mx.accWrote.filter fun e => e.1 = cyc) ++ els.map fun e => (cyc, e.1, Sp.get 0 k.mx.acc e.1)
  let k := k.writeAcc els
  ({ k with mx := { k.mx with accWrote := wrote } } : Core).signRows cyc rMatrix els k.mx.acc

/-- An array landing (R228, R237). An MMA reads its ACC rows in this cycle; an uncorrectable element stops it: this array cycle
and its later ones land nothing (R391). -/
def State.landAcc (s : State) (c : Nat) (src : Option (MmaOp × Nat × Nat)) (ups : List (Nat × AccUpd)) : State :=
  match src with
  | none => s.modCore c (·.landArray s.cyc ups)
  | some (o, m, addr) => match s.meet c .acc 1 8 addr (o.elements m) with
    | (false, s) => s.arrayStop o (m ≤ ·)
    | (true, s) => s.modCore c (·.landArray s.cyc ups)

/-- The 4-byte elements of a row of ACC, with some of them replaced. -/
def patchRow (row : Nat) (els : List (Nat × W32)) (data : List Byte) : List Byte :=
  ((List.range 128).map fun j => match els.find? (·.1 == 128 * row + j) with
    | some e => leBytes 4 e.2.toNat
    | none => (data.drop (4 * j)).take 4).flatten

/-- The rows that the array has landed in this cycle, for the signature: the copy engine's elements come before them (R398). -/
def Verify.patch (v : Verify) (els : List (Nat × W32)) : Verify :=
  { v with writes := v.writes.map fun w =>
      if w.1 = rMatrix then (w.1, w.2.take 4 ++ patchRow (ofLe (w.2.take 4) / 16) els (w.2.drop 4)) else w }

/-- A copy-engine write of ACC (R236, R237): an element that the array writes in this cycle keeps the array's value. Two copy-engine
writes of one element in one cycle, a CPYA.ACC row and the clear of a later CPYA.SPM, are applied in the order of their commands, so
that the clear prevails: no rule orders them (DESIGN CHOICE, log entry 75). In the signature the copy engine's row comes before the array's
(R398; DEDUCED, log entry 130). -/
def Core.landCopy (k : Core) (cyc : Nat) (els : List (Nat × W32)) : Core :=
  let array := k.mx.accWrote.filter fun e => e.1 = cyc
  let free := els.filter fun e => !(array.any fun w => w.2.1 == e.1)
  let before := putAcc (array.foldr (fun w m => Sp.set 0 m w.2.1 w.2.2) k.mx.acc) els
  let k := k.writeAcc free
  let k : Core := { k with
    mx := { k.mx with accWrote := array.map fun (w : Nat × Nat × W32) => (w.1, w.2.1, Sp.get 0 before w.2.1) }
    verify := k.verify.map fun (v : Verify) => if v.cyc = cyc then v.patch free else v }
  k.signRows cyc rCopy els before

/-- See Core.landCopy. -/
def State.landCopyAcc (s : State) (c : Nat) (els : List (Nat × W32)) : State := s.modCore c fun k => k.landCopy s.cyc els

/-- The bytes of packed elements (R81). -/
def packElems (w : Nat) (xs : List Nat) : List Byte := leBytes (xs.length * w / 8) (joinElems w xs)

/-- The words of one row's conversions (R109, R236). -/
def State.rowWords (s : State) (mode : Nat) : List Nat × State :=
  if mode = 4 then let (ws, s) := s.drawWords s.focus.core.val 128; (ws.map rngWord, s) else (List.replicate 128 0, s)

/-- The copy engine stops (R391). -/
def State.copyStop (s : State) : State := s.modMx fun m => { m with copyFree := s.cyc }

/-- The generator that an SR row draws from is read with its parity (R109, R366, R392): class 0x0E at the row's cycle for an uncorrectable
one, as for a row that cannot be read (DESIGN CHOICE, log entry 119). -/
def State.readRng (s : State) (o : CopyOp) : Bool × State :=
  if o.mode = 4 ∧ (s.cur.marked .rngs [0] true).isSome then (false, s.raiseOn s.focus.core.val (Err.plain 0x0E 9 8 o.bundle))
  else (true, s)

/-- A row of a CPYA (R235, R236). Its SR words are drawn at the cycle that reads it, s + k: R236 gives the order of R109 and no cycle
of the draw itself (DEDUCED, log entry 74). A row that cannot be read is not landed, and stops the copy engine (R391). -/
def State.copyRow (s : State) (o : CopyOp) (k : Nat) : State :=
  let c := s.focus.core.val
  let (rng, s) := s.readRng o
  let row := (o.row0 + k) % 2048
  let at_ := o.addr + k * o.pitch
  let w := codeWidth o.fmt
  let acc := if o.int then 5 else 0
  let next := fun (s : State) => if k + 1 < o.n then s.later (s.cyc + 1) pCopyRead (.copyRow o (k + 1)) else s
  if o.toSpm then
    let (sound, s) := s.meet c .acc 2 8 o.bundle ((List.range 128).map (row * 128 + ·))
    if !sound || !rng then s.copyStop
    else
      let (ws, s) := s.rowWords o.mode
      let xs := (List.range 128).map fun j =>
        (cvt acc o.fmt o.mode o.scale (ws.getD j 0) (Sp.get 0 s.mx.acc (row * 128 + j)).toNat).1
      let s := s.later (s.cyc + 4) pCopySpm (.copySpm (addressed at_ (packElems w xs)))
      next (if o.clr then s.later (s.cyc + 1) pCopyLand (.copyAcc ((List.range 128).map fun j => (row * 128 + j, 0))) else s)
  else
    let (res, s) := s.readBytes c true 2 8 o.bundle ((List.range (16 * w)).map (at_ + ·))
    match if rng then res else none with
    | none => s.copyStop
    | some bs =>
      let x := ofLe bs
      let (ws, s) := s.rowWords o.mode
      next (s.later (s.cyc + 4) pCopyLand (.copyAcc ((List.range 128).map fun j =>
        (row * 128 + j, BitVec.ofNat 32 (cvt o.fmt acc o.mode o.scale (ws.getD j 0) (bits x (j * w) w)).1))))

end Sys2Proof.Machine
end

