-- ==== Sys2Proof/Machine/Scalar.lean ====
section
/-! DEFINITION. Integer arithmetic, compares, predicates and moves of the scalar slots (R123-R134). -/

namespace Sys2Proof.Machine

open Sys2Proof

/-- A form of two integer sources and latency 1. -/
def State.alu2 (s : State) (g : Guard) (d : Fin 32) (a b : Sel) (f : W64 → W64 → W64) : Result :=
  s.slot g fun s => s.putS d 1 (f (s.opS a) (s.opS b))

/-- A form of one integer source and latency 1. -/
def State.alu1 (s : State) (g : Guard) (d : Fin 32) (a : Sel) (f : W64 → W64) : Result :=
  s.slot g fun s => s.putS d 1 (f (s.opS a))

/-- A compare of two integer sources (R132). -/
def State.cmp2 (s : State) (g : Guard) (d : Fin 8) (a b : Sel) (f : W64 → W64 → Bool) : Result :=
  s.slot g fun s => s.putQ d (f (s.opS a) (s.opS b))

/-- A compare with an immediate (R132). -/
def State.cmpI (s : State) (g : Guard) (d : Fin 8) (a : Sel) (imm : BitVec 11) (f : W64 → W64 → Bool) : Result :=
  s.slot g fun s => s.putQ d (f (s.opS a) (imm.signExtend 64))

/-- Predicate logic (R133). -/
def State.logicQ (s : State) (g : Guard) (d : Fin 8) (a b : PSel) (f : Bool → Bool → Bool) : Result :=
  s.slot g fun s => s.putQ d (f (s.opQ a) (s.opQ b))

/-- The shift count of R126. -/
def shiftCount (b : W64) : Nat := b.toNat % 64

/-- EXTR (R128): position bits [5:0] and width bits [12:6] of B. -/
def extrOf (a b : W64) : W64 :=
  let p := bits b.toNat 0 6
  let v := min (bits b.toNat 6 7) (64 - p)
  BitVec.ofNat 64 (bits a.toNat p v)

/-- INS (R128) into the old destination. -/
def insOf (old a b : W64) : W64 :=
  let p := bits b.toNat 0 6
  let v := min (bits b.toNat 6 7) (64 - p)
  BitVec.ofNat 64 (old.toNat - bits old.toNat p v * 2 ^ p + bits a.toNat 0 v * 2 ^ p)

/-- Leading zeros (R128). -/
def clzOf (a : W64) : Nat := 64 - (if a = 0 then 0 else Nat.log2 a.toNat + 1)

/-- Trailing zeros, counted over fuel bits (R128). -/
def ctzFrom : Nat → Nat → Nat
  | 0, _ => 0
  | n + 1, x => if x % 2 = 1 then 0 else 1 + ctzFrom n (x / 2)

/-- One bits among fuel bits (R128). -/
def popFrom : Nat → Nat → Nat
  | 0, _ => 0
  | n + 1, x => x % 2 + popFrom n (x / 2)

/-- PKQ's image (R96). -/
def Core.predImage (k : Core) : W64 :=
  BitVec.ofNat 64 ((List.finRange 8).foldl (fun n i => n + (k.readQ i).toNat * 2 ^ i.val) 0)

/-- R125. -/
def execAdd (g : Guard) (d : Fin 32) (a b : Sel) (s : State) : Result := s.alu2 g d a b (· + ·)

/-- R125. -/
def execSub (g : Guard) (d : Fin 32) (a b : Sel) (s : State) : Result := s.alu2 g d a b (· - ·)

/-- R125. -/
def execAnd (g : Guard) (d : Fin 32) (a b : Sel) (s : State) : Result := s.alu2 g d a b (· &&& ·)

/-- R125. -/
def execOr (g : Guard) (d : Fin 32) (a b : Sel) (s : State) : Result := s.alu2 g d a b (· ||| ·)

/-- R125. -/
def execXor (g : Guard) (d : Fin 32) (a b : Sel) (s : State) : Result := s.alu2 g d a b (· ^^^ ·)

/-- R125. -/
def execAndn (g : Guard) (d : Fin 32) (a b : Sel) (s : State) : Result := s.alu2 g d a b fun x y => x &&& ~~~y

/-- R125. -/
def execMin (g : Guard) (d : Fin 32) (a b : Sel) (s : State) : Result := s.alu2 g d a b fun x y => if x.slt y then x else y

/-- R125. -/
def execMax (g : Guard) (d : Fin 32) (a b : Sel) (s : State) : Result := s.alu2 g d a b fun x y => if x.slt y then y else x

/-- R125. -/
def execMinl (g : Guard) (d : Fin 32) (a b : Sel) (s : State) : Result := s.alu2 g d a b fun x y => if x.ult y then x else y

/-- R125. -/
def execMaxl (g : Guard) (d : Fin 32) (a b : Sel) (s : State) : Result := s.alu2 g d a b fun x y => if x.ult y then y else x

/-- R126. -/
def execShl (g : Guard) (d : Fin 32) (a b : Sel) (s : State) : Result := s.alu2 g d a b fun x y => x <<< shiftCount y

/-- R126. -/
def execShr (g : Guard) (d : Fin 32) (a b : Sel) (s : State) : Result := s.alu2 g d a b fun x y => x >>> shiftCount y

/-- R126. -/
def execSra (g : Guard) (d : Fin 32) (a b : Sel) (s : State) : Result := s.alu2 g d a b fun x y => x.sshiftRight (shiftCount y)

/-- R126. -/
def execRol (g : Guard) (d : Fin 32) (a b : Sel) (s : State) : Result := s.alu2 g d a b fun x y => x.rotateLeft (shiftCount y)

/-- R127. -/
def execMul (g : Guard) (d : Fin 32) (a b : Sel) (s : State) : Result := s.alu2 g d a b (· * ·)

/-- R127. -/
def execMulh (g : Guard) (d : Fin 32) (a b : Sel) (s : State) : Result := s.alu2 g d a b fun x y => BitVec.ofInt 64 (x.toInt * y.toInt / 2 ^ 64)

/-- R127. -/
def execMulhl (g : Guard) (d : Fin 32) (a b : Sel) (s : State) : Result := s.alu2 g d a b fun x y => BitVec.ofNat 64 (x.toNat * y.toNat / 2 ^ 64)

/-- R128. -/
def execExtr (g : Guard) (d : Fin 32) (a b : Sel) (s : State) : Result := s.alu2 g d a b extrOf

/-- R128: the old destination is read at issue. A field of no bits lands that old value like any other result, over what another bundle has
landed since (DESIGN CHOICE, log entry 103). -/
def execIns (g : Guard) (d : Fin 32) (a b : Sel) (s : State) : Result :=
  s.slot g fun s => s.putS d 1 (insOf (s.cur.readS d) (s.opS a) (s.opS b))

/-- R128. -/
def execClz (g : Guard) (d : Fin 32) (a : Sel) (s : State) : Result := s.alu1 g d a fun x => BitVec.ofNat 64 (clzOf x)

/-- R128. -/
def execCtz (g : Guard) (d : Fin 32) (a : Sel) (s : State) : Result := s.alu1 g d a fun x => BitVec.ofNat 64 (ctzFrom 64 x.toNat)

/-- R128. -/
def execPopc (g : Guard) (d : Fin 32) (a : Sel) (s : State) : Result := s.alu1 g d a fun x => BitVec.ofNat 64 (popFrom 64 x.toNat)

/-- R128. -/
def execBrev (g : Guard) (d : Fin 32) (a : Sel) (s : State) : Result := s.alu1 g d a fun x => x.reverse

/-- R129. -/
def execAddsh (g : Guard) (d : Fin 32) (a b : Sel) (n : Fin 8) (s : State) : Result :=
  s.alu2 g d a b fun x y => x + (y <<< n.val)

/-- R130. -/
def execAddi (g : Guard) (d : Fin 32) (a : Sel) (imm : BitVec 11) (s : State) : Result :=
  s.alu1 g d a fun x => x + imm.signExtend 64

/-- R130. -/
def execAndi (g : Guard) (d : Fin 32) (a : Sel) (imm : BitVec 11) (s : State) : Result :=
  s.alu1 g d a fun x => x &&& imm.signExtend 64

/-- R130. -/
def execOri (g : Guard) (d : Fin 32) (a : Sel) (imm : BitVec 11) (s : State) : Result :=
  s.alu1 g d a fun x => x ||| imm.signExtend 64

/-- R130. -/
def execXori (g : Guard) (d : Fin 32) (a : Sel) (imm : BitVec 11) (s : State) : Result :=
  s.alu1 g d a fun x => x ^^^ imm.signExtend 64

/-- R130. -/
def execShli (g : Guard) (d : Fin 32) (a : Sel) (n : Fin 64) (s : State) : Result :=
  s.alu1 g d a fun x => x <<< n.val

/-- R130. -/
def execShri (g : Guard) (d : Fin 32) (a : Sel) (n : Fin 64) (s : State) : Result :=
  s.alu1 g d a fun x => x >>> n.val

/-- R130. -/
def execSrai (g : Guard) (d : Fin 32) (a : Sel) (n : Fin 64) (s : State) : Result :=
  s.alu1 g d a fun x => x.sshiftRight n.val

/-- R131: no guard. -/
def execMovi (d : Fin 32) (imm : BitVec 20) (s : State) : Result := .next (s.putS d 1 (imm.signExtend 64))

/-- R131: no guard. -/
def execMovhi (d : Fin 32) (imm : BitVec 20) (s : State) : Result := .next (s.putS d 1 (imm.signExtend 64 <<< 12))

/-- R131: no guard. -/
def execAddl (d : Fin 32) (imm : BitVec 20) (s : State) : Result := .next (s.putS d 1 (s.cur.readS d + imm.signExtend 64))

/-- R132. -/
def execCmpeq (g : Guard) (d : Fin 8) (a b : Sel) (s : State) : Result := s.cmp2 g d a b fun x y => x == y

/-- R132. -/
def execCmpne (g : Guard) (d : Fin 8) (a b : Sel) (s : State) : Result := s.cmp2 g d a b fun x y => x != y

/-- R132. -/
def execCmplt (g : Guard) (d : Fin 8) (a b : Sel) (s : State) : Result := s.cmp2 g d a b fun x y => x.slt y

/-- R132. -/
def execCmple (g : Guard) (d : Fin 8) (a b : Sel) (s : State) : Result := s.cmp2 g d a b fun x y => x.sle y

/-- R132. -/
def execCmplo (g : Guard) (d : Fin 8) (a b : Sel) (s : State) : Result := s.cmp2 g d a b fun x y => x.ult y

/-- R132. -/
def execCmpls (g : Guard) (d : Fin 8) (a b : Sel) (s : State) : Result := s.cmp2 g d a b fun x y => x.ule y

/-- R132. -/
def execCmpeqi (g : Guard) (d : Fin 8) (a : Sel) (imm : BitVec 11) (s : State) : Result :=
  s.cmpI g d a imm fun x y => x == y

/-- R132. -/
def execCmplti (g : Guard) (d : Fin 8) (a : Sel) (imm : BitVec 11) (s : State) : Result :=
  s.cmpI g d a imm fun x y => x.slt y

/-- R132. -/
def execCmploi (g : Guard) (d : Fin 8) (a : Sel) (imm : BitVec 11) (s : State) : Result :=
  s.cmpI g d a imm fun x y => x.ult y

/-- R133. -/
def execPand (g : Guard) (d : Fin 8) (a b : PSel) (s : State) : Result := s.logicQ g d a b fun x y => x && y

/-- R133. -/
def execPor (g : Guard) (d : Fin 8) (a b : PSel) (s : State) : Result := s.logicQ g d a b fun x y => x || y

/-- R133. -/
def execPxor (g : Guard) (d : Fin 8) (a b : PSel) (s : State) : Result := s.logicQ g d a b fun x y => x != y

/-- R133. -/
def execPandn (g : Guard) (d : Fin 8) (a b : PSel) (s : State) : Result := s.logicQ g d a b fun x y => x && !y

/-- R134. -/
def execMov (g : Guard) (d : Fin 32) (a : Sel) (s : State) : Result := s.alu1 g d a fun x => x

/-- R134, R96. -/
def execPkq (g : Guard) (d : Fin 32) (s : State) : Result := s.slot g fun s => s.putS d 1 s.cur.predImage

/-- R134, R96: q1 to q7 take bits 1 to 7. -/
def execUpkq (g : Guard) (a : Sel) (s : State) : Result :=
  s.slot g fun s => s.result 1 (.qs ((s.opS a).setWidth 8))

end Sys2Proof.Machine
end

