-- ==== Sys2Proof/Machine/ScalarFp.lean ====
section
/-! DEFINITION. FP32 arithmetic and conversions of the scalar slots (R135-R139). -/

namespace Sys2Proof.Machine

open Sys2Proof

/-- An FP32 form of two sources and latency 4 (R135). -/
def State.fp2 (s : State) (g : Guard) (d : Fin 32) (a b : Sel) (f : Nat → Nat → Nat × Classes) : Result :=
  s.slot g fun s => s.putF d 4 (f (s.opF a) (s.opF b))

/-- The old destination as FP32, read at issue (R136). -/
def State.oldF (s : State) (d : Fin 32) : Nat := (s.cur.readS d).toNat % 2 ^ 32

/-- An FP compare (R137). -/
def State.fcmp (s : State) (g : Guard) (d : Fin 8) (a b : Sel) (f : FVal → FVal → Bool) : Result :=
  s.slot g fun s => s.putQ d (f (fmtF32.decode (s.opF a)) (fmtF32.decode (s.opF b)))

/-- FCVT (R138): in SR mode one word is drawn whatever the minor and the source. -/
def State.fcvt (s : State) (g : Guard) (d : Fin 32) (c : Sel) (f : State → Nat → Nat → Nat × Classes) : Result :=
  s.slot g fun s =>
    let mode := bits (s.opC c) 0 3
    if d = 30 then s.trap 3 2
    else if mode = 4 then
      let (ws, s) := s.drawWords s.focus.core.val 1
      s.putF d 3 (f s mode (rngWord (ws.headD 0)))
    else s.putF d 3 (f s mode 0)

/-- The FP32 immediate of an FI form (R70). -/
def immF (imm : BitVec 20) : Nat := imm.toNat * 2 ^ 12

/-- R135. -/
def execFadd (g : Guard) (d : Fin 32) (a b : Sel) (s : State) : Result := s.fp2 g d a b fmtF32.add

/-- R135. -/
def execFsub (g : Guard) (d : Fin 32) (a b : Sel) (s : State) : Result := s.fp2 g d a b fmtF32.sub

/-- R135. -/
def execFmul (g : Guard) (d : Fin 32) (a b : Sel) (s : State) : Result := s.fp2 g d a b fmtF32.mul

/-- R135. -/
def execFmin (g : Guard) (d : Fin 32) (a b : Sel) (s : State) : Result := s.fp2 g d a b fun x y => (fmtF32.minmax false x y, 0)

/-- R135. -/
def execFmax (g : Guard) (d : Fin 32) (a b : Sel) (s : State) : Result := s.fp2 g d a b fun x y => (fmtF32.minmax true x y, 0)

/-- R135: no class, NaN payloads kept. -/
def execFabs (g : Guard) (d : Fin 32) (a : Sel) (s : State) : Result :=
  s.slot g fun s => s.putF d 4 (s.opF a % 2 ^ 31, 0)

/-- R135: no class, NaN payloads kept. -/
def execFneg (g : Guard) (d : Fin 32) (a : Sel) (s : State) : Result :=
  s.slot g fun s => s.putF d 4 (s.opF a ^^^ 2 ^ 31, 0)

/-- R136. -/
def execFma (g : Guard) (d : Fin 32) (a b : Sel) (s : State) : Result :=
  s.slot g fun s => s.putF d 4 (fmtF32.fma (s.opF a) (s.opF b) (s.oldF d))

/-- R136. -/
def execFmaD (g : Guard) (d : Fin 32) (a b : Sel) (s : State) : Result :=
  s.slot g fun s => s.putF d 4 (fmtF32.fma (s.opF a) (s.oldF d) (s.opF b))

/-- R137. -/
def execFcmpeq (g : Guard) (d : Fin 8) (a b : Sel) (s : State) : Result := s.fcmp g d a b feq

/-- R137. -/
def execFcmplt (g : Guard) (d : Fin 8) (a b : Sel) (s : State) : Result := s.fcmp g d a b flt

/-- R137. -/
def execFcmple (g : Guard) (d : Fin 8) (a b : Sel) (s : State) : Result := s.fcmp g d a b fun x y => flt x y || feq x y

/-- R137. -/
def execFcmpun (g : Guard) (d : Fin 8) (a b : Sel) (s : State) : Result := s.fcmp g d a b fun x y => isNan x || isNan y

/-- R138, minor 0. -/
def execFcvtI64F32 (g : Guard) (d : Fin 32) (a c : Sel) (s : State) : Result :=
  s.fcvt g d c fun s mode w => let (r, cl) := toIntFmt 64 mode w (fmtF32.decode (s.opF a)); ((BitVec.ofInt 64 r).toNat, cl)

/-- R138, minor 1. -/
def execFcvtF32I64 (g : Guard) (d : Fin 32) (a c : Sel) (s : State) : Result :=
  s.fcvt g d c fun s mode w => fmtF32.round mode w (fofInt (s.opS a).toInt)

/-- R138, minor 2. -/
def execFcvtF16F32 (g : Guard) (d : Fin 32) (a c : Sel) (s : State) : Result :=
  s.fcvt g d c fun s mode w => fmtF16.round mode w (fmtF32.decode (s.opF a))

/-- R138, minor 3. -/
def execFcvtBf16F32 (g : Guard) (d : Fin 32) (a c : Sel) (s : State) : Result :=
  s.fcvt g d c fun s mode w => fmtBF16.round mode w (fmtF32.decode (s.opF a))

/-- R138, minor 4: exact, the mode ignored. -/
def execFcvtF32F16 (g : Guard) (d : Fin 32) (a c : Sel) (s : State) : Result :=
  s.fcvt g d c fun s _ _ => fmtF32.round 0 0 (fmtF16.decode (s.opH 0x3C00 a))

/-- R138, minor 5: exact after R100, the mode ignored. -/
def execFcvtF32Bf16 (g : Guard) (d : Fin 32) (a c : Sel) (s : State) : Result :=
  s.fcvt g d c fun s _ _ => fmtF32.round 0 0 (fmtBF16.decode (s.opH 0x3F80 a))

/-- R139: no guard. -/
def execFmovi (d : Fin 32) (imm : BitVec 20) (s : State) : Result := .next (s.putS d 1 (BitVec.ofNat 64 (immF imm)))

/-- R139: no guard. -/
def execFaddi (d : Fin 32) (imm : BitVec 20) (s : State) : Result := .next (s.putF d 4 (fmtF32.add (s.oldF d) (immF imm)))

/-- R139: no guard. -/
def execFmuli (d : Fin 32) (imm : BitVec 20) (s : State) : Result := .next (s.putF d 4 (fmtF32.mul (s.oldF d) (immF imm)))

end Sys2Proof.Machine
end

