-- ==== Sys2Proof/Machine/VectorInt.lean ====
section
/-! DEFINITION. Integer arithmetic, immediates, compares, selects and masks of the vector slots (R153-R163, R173-R176). -/

namespace Sys2Proof.Machine

open Sys2Proof

/-- An integer form of two sources (R157): f takes the width and the elements. -/
def State.vint (s : State) (g : Guard) (d : Fin 32) (a b : Sel) (k : Fin 8) (t : IType) (f : Nat → Nat → Nat → Nat) : Result :=
  s.slot g fun s =>
    let w := t.bits
    let x := s.opV w 1 a
    let y := s.opV w 1 b
    s.putV d 2 (activeBits (s.cur.readK k) w) (ofElems w fun i => f w (elem w x i) (elem w y i))

/-- An immediate form on every INT32 element (R160). -/
def State.vimm (s : State) (g : Guard) (d : Fin 32) (a : Sel) (f : BitVec 32 → BitVec 32) : Result :=
  s.slot g fun s =>
    let x := s.opV 32 1 a
    s.putV d 2 (BitVec.allOnes 4096) (ofElems 32 fun i => (f (BitVec.ofNat 32 (elem 32 x i))).toNat)

/-- A compare (R162): the mask bits of the active elements take the result. -/
def State.vcmp (s : State) (g : Guard) (d : Fin 8) (a b : Sel) (k : Fin 8) (w one : Nat) (f : Nat → Nat → Bool) : Result :=
  s.slot g fun s =>
    let x := s.opV w one a
    let y := s.opV w one b
    let m := s.cur.readK k
    s.putK d (maskOf w fun i => active m w i) (maskOf w fun i => f (elem w x i) (elem w y i))

/-- An integer saturated to w bits, as its pattern (R157). -/
def satPat (w : Nat) (x : Int) : Nat :=
  (BitVec.ofInt w (max (-(2 ^ (w - 1))) (min (2 ^ (w - 1) - 1) x))).toNat

/-- Mask logic (R174). -/
def State.logicK (s : State) (g : Guard) (d : Fin 8) (a b : KSel) (f : KReg → KReg → KReg) : Result :=
  s.slot g fun s => s.putK d (BitVec.allOnes 1024) (f (s.opK a) (s.opK b))

/-- KSET from bits of a vector (R175). -/
def State.ksetBy (s : State) (g : Guard) (d : Fin 8) (a : Sel) (wd : Width) (f : Nat → Nat → Bool) : Result :=
  s.slot g fun s =>
    let w := wd.bits
    let x := s.opV w 1 a
    s.putK d (BitVec.allOnes 1024) (maskOf w fun i => f w (elem w x i))

/-- R157. -/
def execVadd (g : Guard) (d : Fin 32) (a b : Sel) (k : Fin 8) (t : IType) (s : State) : Result :=
  s.vint g d a b k t fun _ x y => x + y

/-- R157. -/
def execVsub (g : Guard) (d : Fin 32) (a b : Sel) (k : Fin 8) (t : IType) (s : State) : Result :=
  s.vint g d a b k t fun w x y => x + 2 ^ w - y

/-- R157. -/
def execVmul (g : Guard) (d : Fin 32) (a b : Sel) (k : Fin 8) (t : IType) (s : State) : Result :=
  s.vint g d a b k t fun _ x y => x * y

/-- R157. -/
def execVmin (g : Guard) (d : Fin 32) (a b : Sel) (k : Fin 8) (t : IType) (s : State) : Result :=
  s.vint g d a b k t fun w x y => if sgn w x < sgn w y then x else y

/-- R157. -/
def execVmax (g : Guard) (d : Fin 32) (a b : Sel) (k : Fin 8) (t : IType) (s : State) : Result :=
  s.vint g d a b k t fun w x y => if sgn w x < sgn w y then y else x

/-- R157. -/
def execVminl (g : Guard) (d : Fin 32) (a b : Sel) (k : Fin 8) (t : IType) (s : State) : Result :=
  s.vint g d a b k t fun _ x y => min x y

/-- R157. -/
def execVmaxl (g : Guard) (d : Fin 32) (a b : Sel) (k : Fin 8) (t : IType) (s : State) : Result :=
  s.vint g d a b k t fun _ x y => max x y

/-- R157. -/
def execVand (g : Guard) (d : Fin 32) (a b : Sel) (k : Fin 8) (t : IType) (s : State) : Result :=
  s.vint g d a b k t fun _ x y => x &&& y

/-- R157. -/
def execVor (g : Guard) (d : Fin 32) (a b : Sel) (k : Fin 8) (t : IType) (s : State) : Result :=
  s.vint g d a b k t fun _ x y => x ||| y

/-- R157. -/
def execVxor (g : Guard) (d : Fin 32) (a b : Sel) (k : Fin 8) (t : IType) (s : State) : Result :=
  s.vint g d a b k t fun _ x y => x ^^^ y

/-- R157. -/
def execVshl (g : Guard) (d : Fin 32) (a b : Sel) (k : Fin 8) (t : IType) (s : State) : Result :=
  s.vint g d a b k t fun w x y => x * 2 ^ (y % w)

/-- R157. -/
def execVshr (g : Guard) (d : Fin 32) (a b : Sel) (k : Fin 8) (t : IType) (s : State) : Result :=
  s.vint g d a b k t fun w x y => x / 2 ^ (y % w)

/-- R157. -/
def execVsra (g : Guard) (d : Fin 32) (a b : Sel) (k : Fin 8) (t : IType) (s : State) : Result :=
  s.vint g d a b k t fun w x y => (BitVec.ofInt w (sgn w x / 2 ^ (y % w))).toNat

/-- R157. -/
def execVadds (g : Guard) (d : Fin 32) (a b : Sel) (k : Fin 8) (t : IType) (s : State) : Result :=
  s.vint g d a b k t fun w x y => satPat w (sgn w x + sgn w y)

/-- R157. -/
def execVsubs (g : Guard) (d : Fin 32) (a b : Sel) (k : Fin 8) (t : IType) (s : State) : Result :=
  s.vint g d a b k t fun w x y => satPat w (sgn w x - sgn w y)

/-- R160. -/
def execVaddi (g : Guard) (d : Fin 32) (a : Sel) (imm : BitVec 11) (s : State) : Result := s.vimm g d a fun x => x + imm.signExtend 32

/-- R160. -/
def execVandi (g : Guard) (d : Fin 32) (a : Sel) (imm : BitVec 11) (s : State) : Result := s.vimm g d a fun x => x &&& imm.signExtend 32

/-- R160. -/
def execVshli (g : Guard) (d : Fin 32) (a : Sel) (n : Fin 32) (s : State) : Result := s.vimm g d a fun x => x <<< n.val

/-- R160. -/
def execVshri (g : Guard) (d : Fin 32) (a : Sel) (n : Fin 32) (s : State) : Result := s.vimm g d a fun x => x >>> n.val

/-- R160. -/
def execVsrai (g : Guard) (d : Fin 32) (a : Sel) (n : Fin 32) (s : State) : Result := s.vimm g d a fun x => x.sshiftRight n.val

/-- R161: no guard, every element. -/
def execVmovi (d : Fin 32) (imm : BitVec 20) (s : State) : Result :=
  .next (s.putV d 2 (BitVec.allOnes 4096) (splat 32 (imm.signExtend 32).toNat))

/-- R162. -/
def execVcmpeq (g : Guard) (d : Fin 8) (a b : Sel) (k : Fin 8) (t : IType) (s : State) : Result :=
  s.vcmp g d a b k t.bits 1 fun x y => x == y

/-- R162. -/
def execVcmplt (g : Guard) (d : Fin 8) (a b : Sel) (k : Fin 8) (t : IType) (s : State) : Result :=
  s.vcmp g d a b k t.bits 1 fun x y => sgn t.bits x < sgn t.bits y

/-- R162. -/
def execVcmple (g : Guard) (d : Fin 8) (a b : Sel) (k : Fin 8) (t : IType) (s : State) : Result :=
  s.vcmp g d a b k t.bits 1 fun x y => sgn t.bits x ≤ sgn t.bits y

/-- R162. -/
def execVfcmpeq (g : Guard) (d : Fin 8) (a b : Sel) (k : Fin 8) (t : FType) (s : State) : Result :=
  s.vcmp g d a b k t.bits t.one fun p q => (feq) (t.fmt.decode p) (t.fmt.decode q)

/-- R162. -/
def execVfcmplt (g : Guard) (d : Fin 8) (a b : Sel) (k : Fin 8) (t : FType) (s : State) : Result :=
  s.vcmp g d a b k t.bits t.one fun p q => (flt) (t.fmt.decode p) (t.fmt.decode q)

/-- R162. -/
def execVfcmple (g : Guard) (d : Fin 8) (a b : Sel) (k : Fin 8) (t : FType) (s : State) : Result :=
  s.vcmp g d a b k t.bits t.one fun p q => (fun x y => flt x y || feq x y) (t.fmt.decode p) (t.fmt.decode q)

/-- R162. -/
def execVfcmpun (g : Guard) (d : Fin 8) (a b : Sel) (k : Fin 8) (t : FType) (s : State) : Result :=
  s.vcmp g d a b k t.bits t.one fun p q => (fun x y => isNan x || isNan y) (t.fmt.decode p) (t.fmt.decode q)

/-- R163: every element is written. Selector 36 supplies the integer 1, since the variant gives only a width (log entry 72, DESIGN
CHOICE). -/
def execVsel (g : Guard) (d : Fin 32) (a b : Sel) (k : Fin 8) (wd : Width) (s : State) : Result :=
  s.slot g fun s =>
    let w := wd.bits
    let m := activeBits (s.cur.readK k) w
    s.putV d 2 (BitVec.allOnes 4096) ((s.opV w 1 a &&& m) ||| (s.opV w 1 b &&& ~~~m))

/-- R163; selector 36 supplies the integer 1 (log entry 72, DESIGN CHOICE). -/
def execVmov (g : Guard) (d : Fin 32) (a : Sel) (k : Fin 8) (wd : Width) (s : State) : Result :=
  s.slot g fun s => s.putV d 2 (activeBits (s.cur.readK k) wd.bits) (s.opV wd.bits 1 a)

/-- R174. -/
def execKand (g : Guard) (d : Fin 8) (a b : KSel) (s : State) : Result := s.logicK g d a b fun x y => x &&& y

/-- R174. -/
def execKor (g : Guard) (d : Fin 8) (a b : KSel) (s : State) : Result := s.logicK g d a b fun x y => x ||| y

/-- R174. -/
def execKxor (g : Guard) (d : Fin 8) (a b : KSel) (s : State) : Result := s.logicK g d a b fun x y => x ^^^ y

/-- R174. -/
def execKandn (g : Guard) (d : Fin 8) (a b : KSel) (s : State) : Result := s.logicK g d a b fun x y => x &&& ~~~y

/-- The count of KSET.FIRST (R175): 35 gives 0 and 36 gives 1. -/
def State.opN (s : State) (a : Sel) : Nat := match a with | .one => 1 | a => (s.word a).toNat

/-- R175. -/
def execKsetFirst (g : Guard) (d : Fin 8) (a : Sel) (wd : Width) (s : State) : Result :=
  s.slot g fun s => let n := s.opN a; s.putK d (BitVec.allOnes 1024) (maskOf wd.bits fun i => i < n)

/-- R175. -/
def execKsetNz (g : Guard) (d : Fin 8) (a : Sel) (wd : Width) (s : State) : Result := s.ksetBy g d a wd fun _ x => x != 0

/-- R175. -/
def execKsetNeg (g : Guard) (d : Fin 8) (a : Sel) (wd : Width) (s : State) : Result :=
  s.ksetBy g d a wd fun w x => x / 2 ^ (w - 1) % 2 == 1

end Sys2Proof.Machine
end

