-- ==== Sys2Proof/Machine/VectorFp.lean ====
section
/-! DEFINITION. Floating-point arithmetic and conversions of the vector slots (R158-R171). -/

namespace Sys2Proof.Machine

open Sys2Proof

/-- An FP form of two sources and the old destination (R158, R159). -/
def State.vfp (s : State) (g : Guard) (d : Fin 32) (a b : Sel) (k : Fin 8) (t : FType) (lat : Nat)
    (f : Nat → Nat → Nat → Nat × Classes) : Result :=
  s.slot g fun s =>
    let w := t.bits
    let x := s.opV w t.one a
    let y := s.opV w t.one b
    let z := s.cur.readV d
    s.putVF d lat w (s.cur.readK k) ((List.range (4096 / w)).map fun i => f (elem w x i) (elem w y i) (elem w z i))

/-- R158. -/
def execVfadd (g : Guard) (d : Fin 32) (a b : Sel) (k : Fin 8) (t : FType) (s : State) : Result :=
  s.vfp g d a b k t 4 fun x y _ => t.fmt.add x y

/-- R158. -/
def execVfsub (g : Guard) (d : Fin 32) (a b : Sel) (k : Fin 8) (t : FType) (s : State) : Result :=
  s.vfp g d a b k t 4 fun x y _ => t.fmt.sub x y

/-- R158. -/
def execVfmul (g : Guard) (d : Fin 32) (a b : Sel) (k : Fin 8) (t : FType) (s : State) : Result :=
  s.vfp g d a b k t 4 fun x y _ => t.fmt.mul x y

/-- R158. -/
def execVfmin (g : Guard) (d : Fin 32) (a b : Sel) (k : Fin 8) (t : FType) (s : State) : Result :=
  s.vfp g d a b k t 4 fun x y _ => (t.fmt.minmax false x y, 0)

/-- R158. -/
def execVfmax (g : Guard) (d : Fin 32) (a b : Sel) (k : Fin 8) (t : FType) (s : State) : Result :=
  s.vfp g d a b k t 4 fun x y _ => (t.fmt.minmax true x y, 0)

/-- R158, R159. -/
def execVfma (g : Guard) (d : Fin 32) (a b : Sel) (k : Fin 8) (t : FType) (s : State) : Result :=
  s.vfp g d a b k t 5 fun x y z => t.fmt.fma x y z

/-- R158, R159. -/
def execVfmad (g : Guard) (d : Fin 32) (a b : Sel) (k : Fin 8) (t : FType) (s : State) : Result :=
  s.vfp g d a b k t 5 fun x y z => t.fmt.fma x z y

/-- R158: only the sign bit changes, latency 2, no class. -/
def execVfabs (g : Guard) (d : Fin 32) (a : Sel) (k : Fin 8) (t : FType) (s : State) : Result :=
  s.vfp g d a .zero k t 2 fun x _ _ => (x % t.fmt.signBit, 0)

/-- R158: only the sign bit changes, latency 2, no class. -/
def execVfneg (g : Guard) (d : Fin 32) (a : Sel) (k : Fin 8) (t : FType) (s : State) : Result :=
  s.vfp g d a .zero k t 2 fun x _ _ => (x ^^^ t.fmt.signBit, 0)

/-- R161: no guard, every element. -/
def execVfmovi (d : Fin 32) (imm : BitVec 20) (s : State) : Result :=
  .next (s.putV d 2 (BitVec.allOnes 4096) (splat 32 (immF imm)))

/-- An FI form on the old destination (R161). -/
def State.vfi (s : State) (d : Fin 32) (f : Nat → Nat × Classes) : Result :=
  let z := s.cur.readV d
  .next (s.putVF d 4 32 (BitVec.allOnes 1024) ((List.range 128).map fun i => f (elem 32 z i)))

/-- R161. -/
def execVfaddi (d : Fin 32) (imm : BitVec 20) (s : State) : Result := s.vfi d fun x => fmtF32.add x (immF imm)

/-- R161. -/
def execVfmuli (d : Fin 32) (imm : BitVec 20) (s : State) : Result := s.vfi d fun x => fmtF32.mul x (immF imm)

/-! ### Conversions -/

/-- A conversion control word (R165); modes 5 to 7 round as RNE. -/
structure Ctl where
  mode : Nat
  src : Nat
  dst : Nat
  scale : Option Int
  part : Nat
deriving DecidableEq, Repr

/-- The fields of a control word (R165). -/
def Ctl.of (c : Nat) : Ctl :=
  { mode := bits c 0 3, src := bits c 3 4, dst := bits c 7 4,
    scale := if bits c 11 1 = 1 then some (sgn 6 (bits c 12 6)) else none, part := bits c 18 2 }

/-- The pattern that selector one supplies for a format code (R75, R153). -/
def codeOne (c : Nat) : Nat := match c with | 0 => 0x3F800000 | 1 => 0x3C00 | 2 => 0x3F80 | 3 => 0x38 | 4 => 0x3C | _ => 1

/-- The ratio of widths of a widening or narrowing, 0 when there is none (R167). -/
def ratio (narrow wide : Nat) : Nat :=
  if narrow = 0 ∨ wide = 0 then 0 else if wide = 2 * narrow then 2 else if wide = 4 * narrow then 4 else 0

/-- The five conversion majors (R167). -/
inductive Conv where
  | f | i | iff | widen | narrow
deriving DecidableEq, Repr

/-- Whether a format pair is supported by a major (R167). -/
def Conv.supports (v : Conv) (c : Ctl) : Bool :=
  let a := codeWidth c.src
  let b := codeWidth c.dst
  a != 0 && b != 0 && (match v with
    | .f => codeFloat c.src && codeFloat c.dst && a == b
    | .i => !codeFloat c.dst && a == b
    | .iff => !codeFloat c.src && codeFloat c.dst && a == b
    | .widen => let f := ratio a b; f != 0 && c.part < f
    | .narrow => let f := ratio b a; f != 0 && c.part < f)

/-- An unsupported form (R167): zeros into the governed elements of the destination width, and invalid once. -/
def State.convZero (s : State) (d : Fin 32) (k : KReg) (w lat : Nat) : State :=
  (s.putV d lat (activeBits k w) 0).flags lat clsInvalid

/-- The elements that a conversion writes: each by destination index, source index and governing mask bit (R168). -/
def Conv.map (v : Conv) (c : Ctl) : List (Nat × Nat × Nat) :=
  let a := codeWidth c.src
  let b := codeWidth c.dst
  match v with
  | .widen => (List.range (4096 / b)).map fun i => (i, ratio a b * i + c.part, i * b / 4)
  | .narrow => (List.range (4096 / a)).map fun i => (ratio b a * i + c.part, i, i * a / 4)
  | _ => (List.range (4096 / b)).map fun i => (i, i, i * b / 4)

/-- A register with the listed elements, the others 0. -/
def scatter (w : Nat) (es : List (Nat × Nat)) : VReg :=
  BitVec.ofNat 4096 (es.foldl (fun n (i, x) => n + x % 2 ^ w * 2 ^ (i * w)) 0)

/-- A conversion (R164-R171). In SR mode one word is drawn for each element position, in ascending order. -/
def State.conv (s : State) (v : Conv) (g : Guard) (d : Fin 32) (a cs : Sel) (km : Fin 8) : Result :=
  s.slot g fun s =>
    let c := Ctl.of (s.opC cs)
    let k := s.cur.readK km
    if v.supports c then
      let x := s.opV (codeWidth c.src) (codeOne c.src) a
      let m := v.map c
      let (ws, s) := if c.mode = 4 then s.drawWords s.focus.core.val m.length else (m.map fun _ => 0, s)
      let rs := (m.zip ws).map fun ((j, i, bit), wd) =>
        (j, k.getLsbD bit, cvt c.src c.dst c.mode c.scale (rngWord wd) (elem (codeWidth c.src) x i))
      let b := codeWidth c.dst
      let on := rs.filter (·.2.1)
      (s.putV d 3 (scatter b (on.map fun r => (r.1, 2 ^ b - 1))) (scatter b (on.map fun r => (r.1, r.2.2.1)))).flags 3
        (on.foldl (fun cl r => cl ||| r.2.2.2) 0)
    else s.convZero d k (if codeWidth c.dst = 0 then 32 else codeWidth c.dst) 3

/-- R167, R168. -/
def execVcvtf (g : Guard) (d : Fin 32) (a c : Sel) (k : Fin 8) (s : State) : Result := s.conv .f g d a c k

/-- R167, R168. -/
def execVcvti (g : Guard) (d : Fin 32) (a c : Sel) (k : Fin 8) (s : State) : Result := s.conv .i g d a c k

/-- R167, R168. -/
def execVcvtif (g : Guard) (d : Fin 32) (a c : Sel) (k : Fin 8) (s : State) : Result := s.conv .iff g d a c k

/-- R167, R168. -/
def execVwiden (g : Guard) (d : Fin 32) (a c : Sel) (k : Fin 8) (s : State) : Result := s.conv .widen g d a c k

/-- R167, R168. -/
def execVnarrow (g : Guard) (d : Fin 32) (a c : Sel) (k : Fin 8) (s : State) : Result := s.conv .narrow g d a c k

end Sys2Proof.Machine
end

