-- ==== Sys2Proof/Machine/Reads.lean ====
section
/-! DEFINITION. The registers and CBANK entries that a slot reads at its issue: what the parity of the register files and the
code of CBANK cover (R366, R392, R393). -/

namespace Sys2Proof.Machine

open Sys2Proof

/-- The registers behind a selector of a file. -/
def Sel.reads (st : Store) (cbase : Nat) : Sel → List (Store × Nat)
  | .reg r => [(st, r.val)]
  | .cb n => [(.cbase, 0), (.cbank, (cbase + n.val) % 256)]
  | _ => []

/-- A predicate selector. -/
def PSel.reads : PSel → List (Store × Nat) | .q n => [(.q, n.val)] | _ => []
/-- A mask selector. -/
def KSel.reads : KSel → List (Store × Nat) | .k n => [(.k, n.val)] | _ => []

/-- The operands of an instruction, the guard apart, in the names of the word; cb is CBASE. -/
def readsOf (cb : Nat) (i : Instr) : List (Store × Nat) :=
  let s := Sel.reads .s cb
  let v := Sel.reads .v cb
  let sr := fun (r : Fin 32) => [(Store.s, r.val)]
  let vr := fun (r : Fin 32) => [(Store.v, r.val)]
  let kr := fun (r : Fin 8) => [(Store.k, r.val)]
  match i with
  | .add _ _ a b | .sub _ _ a b | .and _ _ a b | .or _ _ a b | .xor _ _ a b | .andn _ _ a b | .min _ _ a b | .max _ _ a b
  | .minl _ _ a b | .maxl _ _ a b | .shl _ _ a b | .shr _ _ a b | .sra _ _ a b | .rol _ _ a b | .mul _ _ a b
  | .mulh _ _ a b | .mulhl _ _ a b | .extr _ _ a b | .addsh _ _ a b _ | .cmpeq _ _ a b | .cmpne _ _ a b | .cmplt _ _ a b
  | .cmple _ _ a b | .cmplo _ _ a b | .cmpls _ _ a b | .fadd _ _ a b | .fsub _ _ a b | .fmul _ _ a b | .fmin _ _ a b
  | .fmax _ _ a b | .fcmpeq _ _ a b | .fcmplt _ _ a b | .fcmple _ _ a b | .fcmpun _ _ a b | .fcvtI64F32 _ _ a b
  | .fcvtF32I64 _ _ a b | .fcvtF16F32 _ _ a b | .fcvtBf16F32 _ _ a b | .fcvtF32F16 _ _ a b | .fcvtF32Bf16 _ _ a b
  | .waitt _ a b | .cbwr _ a b | .ld _ _ a b _ | .kld _ _ a b _ => s a ++ s b
  | .ins _ d a b | .fma _ d a b | .fmaD _ d a b | .st _ d a b _ => s a ++ s b ++ sr d
  | .kst _ d a b _ => s a ++ s b ++ kr d
  | .clz _ _ a | .ctz _ _ a | .popc _ _ a | .brev _ _ a | .addi _ _ a _ | .andi _ _ a _ | .ori _ _ a _ | .xori _ _ a _
  | .shli _ _ a _ | .shri _ _ a _ | .srai _ _ a _ | .cmpeqi _ _ a _ | .cmplti _ _ a _ | .cmploi _ _ a _ | .mov _ _ a
  | .upkq _ a | .fabs _ _ a | .fneg _ _ a | .jr _ a | .jalr _ _ a | .lcset _ a _ | .nopw _ a _ | .setcb _ a | .settv _ a
  | .ldi _ _ a _ | .vldi _ _ a _ => s a
  | .sti _ d a _ => s a ++ sr d
  | .vsti _ d a _ => s a ++ vr d
  | .addl d _ | .faddi d _ | .fmuli d _ => sr d
  | .vfaddi d _ | .vfmuli d _ => vr d
  | .pand _ _ a b | .por _ _ a b | .pxor _ _ a b | .pandn _ _ a b => PSel.reads a ++ PSel.reads b
  | .pkq _ _ => (List.range 8).map fun n => (.q, n)
  | .loop _ _ => [(.lcrb, 0), (.q, 4), (.q, 5), (.q, 6)]
  | .vadd _ _ a b k _ | .vsub _ _ a b k _ | .vmul _ _ a b k _ | .vmin _ _ a b k _ | .vmax _ _ a b k _ | .vminl _ _ a b k _
  | .vmaxl _ _ a b k _ | .vand _ _ a b k _ | .vor _ _ a b k _ | .vxor _ _ a b k _ | .vshl _ _ a b k _ | .vshr _ _ a b k _
  | .vsra _ _ a b k _ | .vadds _ _ a b k _ | .vsubs _ _ a b k _ | .vfadd _ _ a b k _ | .vfsub _ _ a b k _
  | .vfmul _ _ a b k _ | .vfmin _ _ a b k _ | .vfmax _ _ a b k _ | .vcmpeq _ _ a b k _ | .vcmplt _ _ a b k _
  | .vcmple _ _ a b k _ | .vfcmpeq _ _ a b k _ | .vfcmplt _ _ a b k _ | .vfcmple _ _ a b k _ | .vfcmpun _ _ a b k _
  | .vsel _ _ a b k _ | .vcvtf _ _ a b k | .vcvti _ _ a b k | .vcvtif _ _ a b k | .vwiden _ _ a b k | .vnarrow _ _ a b k
  | .vperm _ _ a b k _ | .vrot _ _ a b k _ | .vbcst _ _ a b k _ | .vscan _ _ a b k _
  | .vredf _ _ a b k _ | .vredi _ _ a b k _ | .rcpnr _ _ a b k | .rsqnr _ _ a b k => v a ++ v b ++ kr k
  | .vfma _ d a b k _ | .vfmad _ d a b k _ | .vshuf _ d a b k _ => v a ++ v b ++ vr d ++ kr k
  | .vfabs _ _ a k _ | .vfneg _ _ a k _ | .vmov _ _ a k _ | .exp2 _ _ a k | .log2 _ _ a k | .sqrt _ _ a k | .sin _ _ a k
  | .cos _ _ a k | .tanh _ _ a k | .sigm _ _ a k | .rcp _ _ a k | .rsq _ _ a k => v a ++ kr k
  | .vaddi _ _ a _ | .vshli _ _ a _ | .vshri _ _ a _ | .vsrai _ _ a _ | .vandi _ _ a _ | .ksetFirst _ _ a _ | .ksetNz _ _ a _
  | .ksetNeg _ _ a _ => v a
  | .kand _ _ a b | .kor _ _ a b | .kxor _ _ a b | .kandn _ _ a b => KSel.reads a ++ KSel.reads b
  | .vrand _ _ k => (.rngs, 0) :: kr k
  | .vrandSeed _ a => vr a
  | .vld _ _ a b k _ | .vlds _ _ a b k _ | .vldb _ _ a b k _ => s a ++ s b ++ kr k
  | .vst _ d a b k _ | .vsts _ d a b k _ => s a ++ s b ++ kr k ++ vr d
  | .vldx _ _ a b k _ => s a ++ vr b ++ kr k
  | .vstx _ d a b k _ => s a ++ vr b ++ kr k ++ vr d
  | .mset _ _ a _ | .wpost _ a | .wwait _ a | .coll _ _ a _ | .launch _ a _ => sr a
  | .mcall _ _ a b | .mload _ _ a b | .cpyaSpm _ _ a b | .cpyaAcc _ _ a b | .tlgo _ _ a b | .cadv _ a b | .cadvEnd _ a b
  | .get _ _ a b | .put _ _ a b | .putMc _ _ a b | .racc _ _ a b | .wstart _ _ a b | .wcompl _ _ a b | .wlock _ _ a b
  | .wunlock _ _ a b => sr a ++ sr b
  | .hwait _ h _ | .htest _ _ h _ => [(.h, h.val)]
  | _ => []

/-- The guard of an instruction. -/
def guardOf : Instr → Guard
  | .movi .. | .movhi .. | .addl .. | .fmovi .. | .faddi .. | .fmuli .. | .vfmovi .. | .vfaddi .. | .vfmuli .. | .vmovi .. => ⟨0, false⟩
  | .add g .. | .sub g .. | .and g .. | .or g .. | .xor g .. | .andn g .. | .min g .. | .max g .. | .minl g .. | .maxl g ..
  | .shl g .. | .shr g .. | .sra g .. | .rol g .. | .mul g .. | .mulh g .. | .mulhl g .. | .extr g .. | .ins g .. | .clz g ..
  | .ctz g .. | .popc g .. | .brev g .. | .addsh g .. | .addi g .. | .andi g .. | .ori g .. | .xori g .. | .shli g ..
  | .shri g .. | .srai g .. | .cmpeq g .. | .cmpne g .. | .cmplt g .. | .cmple g .. | .cmplo g .. | .cmpls g .. | .cmpeqi g ..
  | .cmplti g .. | .cmploi g .. | .pand g .. | .por g .. | .pxor g .. | .pandn g .. | .mov g .. | .pkq g .. | .upkq g ..
  | .fadd g .. | .fsub g .. | .fmul g .. | .fmin g .. | .fmax g .. | .fabs g .. | .fneg g .. | .fma g .. | .fmaD g ..
  | .fcmpeq g .. | .fcmplt g .. | .fcmple g .. | .fcmpun g .. | .fcvtI64F32 g .. | .fcvtF32I64 g .. | .fcvtF16F32 g ..
  | .fcvtBf16F32 g .. | .fcvtF32F16 g .. | .fcvtF32Bf16 g .. | .br g .. | .call g .. | .jr g .. | .jalr g .. | .lcset g ..
  | .loop g .. | .nopw g .. | .waitt g .. | .rdtime g .. | .rdtimeFrac g .. | .rdcad g .. | .rdpcyc g .. | .rdcore g ..
  | .flog g .. | .setcb g .. | .cbwr g .. | .trap g .. | .rfd g .. | .rdtrap g .. | .settv g .. | .xfence g .. | .vadd g ..
  | .vsub g .. | .vmul g .. | .vmin g .. | .vmax g .. | .vminl g .. | .vmaxl g .. | .vand g .. | .vor g .. | .vxor g ..
  | .vshl g .. | .vshr g .. | .vsra g .. | .vadds g .. | .vsubs g .. | .vfadd g .. | .vfsub g .. | .vfmul g .. | .vfma g ..
  | .vfmad g .. | .vfmin g .. | .vfmax g .. | .vfabs g .. | .vfneg g .. | .vaddi g .. | .vshli g .. | .vshri g ..
  | .vsrai g .. | .vandi g .. | .vcmpeq g .. | .vcmplt g .. | .vcmple g .. | .vfcmpeq g .. | .vfcmplt g .. | .vfcmple g ..
  | .vfcmpun g .. | .vsel g .. | .vmov g .. | .vcvtf g .. | .vcvti g .. | .vcvtif g .. | .vwiden g .. | .vnarrow g ..
  | .kand g .. | .kor g .. | .kxor g .. | .kandn g .. | .ksetFirst g .. | .ksetNz g .. | .ksetNeg g .. | .vperm g ..
  | .vshuf g .. | .vrot g .. | .vbcst g .. | .vscan g .. | .vredf g .. | .vredi g .. | .exp2 g .. | .log2 g .. | .sqrt g ..
  | .sin g .. | .cos g .. | .tanh g .. | .sigm g .. | .rcp g .. | .rsq g .. | .rcpnr g .. | .rsqnr g .. | .vrand g ..
  | .vrandSeed g .. | .ld g .. | .st g .. | .ldi g .. | .sti g .. | .vld g .. | .vst g .. | .vldi g .. | .vsti g ..
  | .kld g .. | .kst g .. | .vlds g .. | .vsts g .. | .vldx g .. | .vstx g .. | .vldb g .. | .mset g .. | .mcall g ..
  | .mload g .. | .cpyaSpm g .. | .cpyaAcc g .. | .tlgo g .. | .get g .. | .put g .. | .putMc g .. | .racc g .. | .wpost g ..
  | .wstart g .. | .wcompl g .. | .wwait g .. | .wlock g .. | .wunlock g .. | .hwait g .. | .htest g .. | .coll g ..
  | .launch g .. | .cadv g .. | .cadvEnd g .. | .barQuad g .. | .barDie g .. => g
  | _ => ⟨0, false⟩

/-- Whether a vector conversion draws words by its control word: an unsupported form does not (R109, R165, R167). -/
def Conv.draws (v : Conv) (c : Nat) : Bool := (Ctl.of c).mode == 4 && v.supports (Ctl.of c)

/-- Whether a conversion or reduction draws words at its issue (R109, R138, R165, R183). -/
def State.drawsAt (s : State) : Instr → Bool
  | .fcvtI64F32 _ _ _ c | .fcvtF32I64 _ _ _ c | .fcvtF16F32 _ _ _ c | .fcvtBf16F32 _ _ _ c | .fcvtF32F16 _ _ _ c
  | .fcvtF32Bf16 _ _ _ c => bits (s.opC c) 0 3 == 4
  | .vcvtf _ _ _ c _ => Conv.f.draws (s.opC c)
  | .vcvti _ _ _ c _ => Conv.i.draws (s.opC c)
  | .vcvtif _ _ _ c _ => Conv.iff.draws (s.opC c)
  | .vwiden _ _ _ c _ => Conv.widen.draws (s.opC c)
  | .vnarrow _ _ _ c _ => Conv.narrow.draws (s.opC c)
  | .vredf _ _ _ c k t => bits (s.opC c) 2 3 == 4 && bits (s.opC c) 0 2 == 0 &&
      (List.range (4096 / t.bits)).any (active (s.cur.readK k) t.bits)
  | _ => false

/-- The vector name that an instruction writes. -/
def vdestOf : Instr → Option (Fin 32)
  | .vadd _ d .. | .vsub _ d .. | .vmul _ d .. | .vmin _ d .. | .vmax _ d .. | .vminl _ d .. | .vmaxl _ d .. | .vand _ d ..
  | .vor _ d .. | .vxor _ d .. | .vshl _ d .. | .vshr _ d .. | .vsra _ d .. | .vadds _ d .. | .vsubs _ d .. | .vfadd _ d ..
  | .vfsub _ d .. | .vfmul _ d .. | .vfma _ d .. | .vfmad _ d .. | .vfmin _ d .. | .vfmax _ d .. | .vfabs _ d ..
  | .vfneg _ d .. | .vaddi _ d .. | .vshli _ d .. | .vshri _ d .. | .vsrai _ d .. | .vandi _ d .. | .vsel _ d ..
  | .vmov _ d .. | .vcvtf _ d .. | .vcvti _ d .. | .vcvtif _ d .. | .vwiden _ d .. | .vnarrow _ d .. | .vperm _ d ..
  | .vshuf _ d .. | .vrot _ d .. | .vbcst _ d .. | .vscan _ d .. | .vredf _ d .. | .vredi _ d .. | .exp2 _ d .. | .log2 _ d ..
  | .sqrt _ d .. | .sin _ d .. | .cos _ d .. | .tanh _ d .. | .sigm _ d .. | .rcp _ d .. | .rsq _ d .. | .rcpnr _ d ..
  | .rsqnr _ d .. | .vrand _ d .. | .vld _ d .. | .vldi _ d .. | .vlds _ d .. | .vldx _ d .. | .vldb _ d .. => some d
  | .vfmovi d _ | .vfaddi d _ | .vfmuli d _ | .vmovi d _ => some d
  | _ => none

/-- The handle whose tag and counts a command reads at its issue (R271, R411). -/
def State.handleRead (s : State) : Instr → Option (Fin 16)
  | .get _ _ _ b | .put _ _ _ b | .putMc _ _ _ b | .racc _ _ _ b | .wstart _ _ _ b | .wcompl _ _ _ b | .wlock _ _ _ b
  | .wunlock _ _ _ b => some (handleOf (s.cur.readS b))
  | .coll _ _ _ h => some h
  | _ => none

/-- The operands of an instruction with what it reads beside its selectors: RB for a rotating destination (R84), and the handle of
a command. -/
def State.allReads (s : State) (i : Instr) : List (Store × Nat) :=
  readsOf s.cur.regs.cbase.toNat i
    ++ (if (vdestOf i).any fun d => decide (24 ≤ d.val) then [(Store.lcrb, 0)] else [])
    ++ ((s.handleRead i).toList.map fun h => (Store.h, h.val))

/-- The physical registers and entries that a slot with a true guard reads (R84): a rotating vector name reads RB too. -/
def State.slotReads (s : State) (i : Instr) : List (Store × Nat) :=
  let k := s.cur
  let rs := (s.allReads i).flatMap fun (st, n) =>
    if st = .v ∧ 24 ≤ n then [(.lcrb, 0), (.v, (physV k.regs.rb ⟨n % 32, Nat.mod_lt _ (by decide)⟩).val)] else [(st, n)]
  (.q, (guardOf i).q.val) :: (if s.guard (guardOf i) then (if s.drawsAt i then (.rngs, 0) :: rs else rs) else [])

/-- The number of a register file in a class 0x0E record (R390). -/
def Store.file : Store → Nat
  | .s => 1 | .v => 2 | .k => 3 | .q => 4 | .mp => 5 | .h => 6 | .lcrb => 7 | .cbase => 8 | .rngs => 9 | _ => 0

/-- The units of protection of a register of a file, 64 bits of it or all (R366). -/
def Store.words : Store → Nat | .v => 64 | .k => 16 | _ => 1

/-- What the reads of a slot detect, for each uncorrectable word of a register (R366, R390, R392, R393): class 0x0E for a register, class
0x1C for a CBANK entry; s0, q0 and k0 are not stored (R80). -/
def State.readErrs (s : State) (i : Instr) : List Err :=
  let k := s.cur
  if k.marks = [] then []
  else (s.slotReads i).dedup.flatMap fun (st, n) =>
    if n = 0 ∧ (st = .s ∨ st = .q ∨ st = .k) then []
    else (k.badUnits st ((List.range st.words).map (st.words * n + ·))).map fun _ =>
      { (if st = .cbank then Err.plain 0x1C 2 s.focus.slot.num s.focus.addr else Err.plain 0x0E st.file s.focus.slot.num s.focus.addr) with
        loc := BitVec.ofNat 32 n }

/-- Corrected reads of CBANK entries by a slot (R366, R367). -/
def State.readFixes (s : State) (i : Instr) : Nat :=
  if s.cur.marks = [] then 0
  else ((s.slotReads i).filter fun (st, n) => st == .cbank && (s.cur.marked st [n] false).isSome).length

end Sys2Proof.Machine
end

