-- ==== Sys2Proof/Machine/Traps.lean ====
section
/-! DEFINITION. The end of a drain (R370, R371), the verification of reruns (R397, R398), and the save and restore of halted
cores (R421, R422). -/

namespace Sys2Proof.Machine

open Sys2Proof

/-- Whether the drain of a core still runs (R370). -/
def State.draining (s : State) (c : Nat) (d : Drain) : Bool :=
  s.drainBusy c d.f || d.chain.any fun start =>
    s.rdOf c start || (s.core c).ch.run.any fun r => r.start == start && r.left.isSome

/-- The second rollback of a verification (R397): it counts in CERRST.rb only, and posts no event. -/
def State.rerunAgain (s : State) (c : Nat) : State :=
  (s.modCore c fun k => { k with verify := k.verify.map fun v => { v with stage := 2 } }).restore c s.cyc

/-- R371: at the last cycle of its drain, the core writes TRAPREC and enters its handler or starts the recovery. -/
def execTrapDrainCompletion (s : State) : Result :=
  let c := s.focus.core.val
  .next (match s.cur.drain with
    | none => s
    | some d =>
      if s.draining c d then s.atLast c (s.cyc + 1) (.run s.focus .trapDrainCompletion)
      else if d.parked then s.resumeParked c d
      else if d.rfd then s.finishRfd c d
      else if d.verify then s.rerunAgain c
      else s.finishDrain c d)

/-- R397: rerun 1 ends with a drain and a second rollback; at the end of rerun 2 the counts and signatures are compared, and the
ending bundle issues or class 0x1B is raised. -/
def execRerunVerification (s : State) : Result :=
  let c := s.focus.core.val
  .next (match s.cur.verify with
    | none => s
    | some v =>
      let v := v.close
      let n := s.cyc - v.began - v.waited
      if v.stage = 1 then
        let s := s.modCur fun k => { k with verify := some { v with count1 := n, sig1 := v.sig } }
        s.beginDrain c (s.drainFrom c (Err.plain 0x0C 0 15 s.cur.lastAddr) false false true) false
      else if n = v.count1 ∧ v.sig = v.sig1 then (s.modCur fun k => { k with verify := none }).at c s.cyc pIssue .issue
      else s.raiseOn c (v.disagree n s.cur.lastAddr))

/-! ### Context images (R421, R422) -/

/-- First byte of the context area (R421). -/
def contextBase : Nat := 0x7F800000

/-- Bytes of an image (R421). -/
def contextSize : Nat := 0x57D000

/-- Cells of a memory placed at an offset of the image. -/
def Memory.placed (m : Memory) (off n : Nat) : List (Nat × Byte) :=
  (m.filter fun e => e.1 < n).map fun e => (contextBase + off + e.1, e.2)

/-- A memory taken from an offset of the image. -/
def Memory.taken (m : Memory) (off n : Nat) : Memory :=
  (m.filter fun e => contextBase + off ≤ e.1 && e.1 < contextBase + off + n).map fun e => (e.1 - (contextBase + off), e.2)

/-- The 4 bytes of a latch value (R421): an integer, or the FP32 pattern of a value of the float path, all of which it holds (R111). -/
def weightBits : Weight → Nat
  | .f x => (fmtF32.round 0 0 x).1
  | .i x => (x % 2 ^ 32).toNat

/-- A latch value from its 4 bytes. -/
def bitsWeight (int : Bool) (x : Nat) : Weight := if int then .i (sgn 32 x) else .f (fmtF32.decode x)

/-- Entries of a latch half (R214). -/
def halfEntries : Nat := 12288

/-- The image of a latch half at an offset (R421, log entry 13): the values, the absent marks, then the path and the sparse tag. -/
def Half.image421 (h : Half) (off : Nat) : List (Nat × Byte) :=
  (h.entries.map fun e => leCells (contextBase + off + 4 * e.1) 4 (weightBits e.2)).flatten
    ++ addressed (contextBase + off + 4 * halfEntries) ((List.range (halfEntries / 8)).map fun i =>
        BitVec.ofNat 8 (((List.range 8).map fun j => if h.entries.any (·.1 == 8 * i + j) then 0 else 2 ^ j).sum))
    ++ [(contextBase + off + 4 * halfEntries + halfEntries / 8, BitVec.ofNat 8 (h.int.toNat + 2 * h.sparse.toNat))]

/-- A latch half from its image at an offset. -/
def Memory.half421 (m : Memory) (off : Nat) : Half :=
  let at0 := contextBase + off
  let tags := (m.byte (at0 + 4 * halfEntries + halfEntries / 8)).toNat
  let present := (List.range halfEntries).filter fun i => bits (m.byte (at0 + 4 * halfEntries + i / 8)).toNat (i % 8) 1 = 0
  ⟨present.map fun i => (i, bitsWeight (bits tags 0 1 = 1) (m.le (at0 + 4 * i) 4)), bits tags 0 1 = 1, bits tags 1 1 = 1⟩

/-- Word 1 of a window-table entry (R266). -/
def Window.word1 (w : Window) : Nat :=
  w.expect.toNat + 2 ^ 8 * w.count.toNat + 2 ^ 16 * w.tag.toNat + 2 ^ 32 * w.state.val + 2 ^ 34 * (w.holders % 64)

/-- The registers and tables of the image's last block, in the order in which R421 names them (log entry 13): the bytes and the value of
each. -/
def Core.contextFields (k : Core) : List (Nat × Nat) :=
  (k.regs.s.toList.map fun x => (8, x.toNat)) ++ (k.regs.k.toList.map fun x => (128, x.toNat))
    ++ [(8, joinElems 1 (k.regs.q.toList.map (·.toNat)))] ++ (k.handles.toList.map fun h => (8, h.image.toNat))
    ++ (k.regs.mp.toList.map fun x => (8, x.toNat))
    ++ [(8, k.regs.lcN.toNat + 2 ^ 32 * k.regs.lcE.val), (8, k.regs.rb.val), (8, k.regs.cbase.toNat), (8, k.slim.toNat),
        (8, k.regs.rngs.toNat), (8, k.regs.flash.toNat), (8, k.regs.tvec.toNat), (8, k.trap0.toNat), (8, k.trap1.toNat),
        (8, k.trap2.toNat), (8, k.flt0.toNat), (8, k.flt1.toNat), (8, k.regs.latch.toNat)]
    ++ (k.cbank.toList.map fun x => (4, x.toNat)) ++ (k.win.toList.map fun w => (16, w.word0.toNat + 2 ^ 64 * w.word1))
    ++ (List.range 64).map fun e => (8, (Sp.get Tte.reset k.tt e).word.toNat)

/-- The image of a core (R421); the bytes between its parts are free (log entry 13). -/
def Core.image421 (k : Core) (free : Nat) : List (Nat × Byte) :=
  (List.range 0x25000).map (fun i => (contextBase + 0x558000 + i, Config.contextByte (free + i)))
    ++ k.spm.placed 0 0x400000
    ++ (k.mx.acc.map fun e => leCells (contextBase + 0x400000 + 4 * e.1) 4 e.2.toNat).flatten
    ++ k.dmem.placed 0x500000 0x40000
    ++ k.mx.abuf.placed 0x540000 0x18000
    ++ k.mx.half0.image421 0x558000 ++ k.mx.half1.image421 0x568000
    ++ ((List.finRange 32).map fun v => leCells (contextBase + 0x578000 + 512 * v.val) 512 k.regs.v[v].toNat).flatten
    ++ addressed (contextBase + 0x57C000) ((k.contextFields.map fun f => leBytes f.1 f.2).flatten)

/-- The image replaces what the context area held. -/
def Memory.saveContext (m : Memory) (image : List (Nat × Byte)) : Memory :=
  Memory.storeAll (m.filter fun e => e.1 < contextBase || contextBase + contextSize ≤ e.1) image

/-- A handle from what HTEST would read of it (R276). -/
def handleFrom (x : Nat) : Handle :=
  ⟨BitVec.ofNat 4 (bits x 4 4), BitVec.ofNat 8 (bits x 8 8), BitVec.ofNat 8 (bits x 16 8), bits x 2 1 = 1, BitVec.ofNat 16 (bits x 24 16)⟩

/-- The registers that an image holds (R421, R422). -/
def Memory.regs421 (m : Memory) (old : Regs) : Regs :=
  let at0 := contextBase + 0x57C000
  let w := fun (off : Nat) => BitVec.ofNat 64 (m.le (at0 + off) 8)
  { old with
    s := Vector.ofFn fun i => w (8 * i.val)
    v := Vector.ofFn fun i => BitVec.ofNat 4096 (m.le (contextBase + 0x578000 + 512 * i.val) 512)
    k := Vector.ofFn fun i => BitVec.ofNat 1024 (m.le (at0 + 256 + 128 * i.val) 128)
    q := Vector.ofFn fun i => (w 1280).getLsbD i.val
    mp := Vector.ofFn fun i => w (1416 + 8 * i.val)
    lcN := (w 1480).setWidth 32
    lcE := ⟨bits (w 1480).toNat 32 2, Nat.mod_lt _ (by decide)⟩
    rb := ⟨bits (w 1488).toNat 0 3, Nat.mod_lt _ (by decide)⟩
    cbase := (w 1496).setWidth 8
    rngs := w 1512, flash := w 1520, tvec := w 1528, latch := (w 1576).setWidth 16 }

/-- What the read of an uncorrectable unit of a halted core's state detects, where its image is formed (R366, R390): as a chain WR for the
memories, and else as its own reader would (DEDUCED, log entry 117). -/
def Core.contextErr (k : Core) (m : Mark) : Option Err :=
  let e := fun (cls info loc : Nat) => some { Err.plain cls info 15 k.lastAddr with loc := BitVec.ofNat 32 loc }
  match m.store with
  | .spm | .dmem | .acc => some (k.wordErr m.store 3 15 k.lastAddr m.unit)
  | .s | .v | .k | .q | .mp | .h | .lcrb | .cbase | .rngs => e 0x0E m.store.file (m.unit / m.store.words)
  | .abuf => e 0x0C 1 (m.unit / 192)
  | .latch => e 0x0C 2 (m.unit % 12288)
  | .cbank => e 0x1C 2 m.unit
  | .window => e 0x1A 1 m.unit
  | .ttab => e 0x1A 2 m.unit
  | _ => none

/-- The image of a core reads all its state: each unit that it corrects counts, and each that is uncorrectable is detected (R356, R366). -/
def State.contextReads (s : State) (c : Nat) : State :=
  let k := s.core c
  let units := k.marks.map (·.unit)
  let s := [Store.spm, .dmem, .acc, .cbank, .window, .ttab].foldl (fun (s : State) st => s.fixes c st units) s
  ((k.marks.filter (·.hard)).dedup.filterMap k.contextErr).foldl (fun s e => s.raiseOn c e) s

/-- The stores that an image holds (R421), which a restore writes anew. -/
def Store.inImage (st : Store) : Bool :=
  [Store.spm, .dmem, .acc, .s, .v, .k, .q, .mp, .h, .lcrb, .cbase, .rngs, .abuf, .latch, .cbank, .window, .ttab].contains st

/-- A translation entry of a restored core (R422): the image's word, but for an entry that the controller has changed since the save (log
entry 13); reserved bits ignore the write (R7, R260). -/
def Tte.restored (t : Tte) (x : Nat) : Tte :=
  { t with word := if t.fresh then t.word else BitVec.ofNat 64 x &&& 0x3FFFFE0003F, fresh := false }

/-- A core takes what its image holds (R422): every window entry is closed, with its count at the expectation. -/
def Core.takeContext (k : Core) (m : Memory) : Core :=
  let at0 := contextBase + 0x57C000
  let w := fun (off n : Nat) => m.le (at0 + off) n
  { k with
    marks := k.marks.filter fun x => !x.store.inImage
    tt := (List.range 64).foldl (fun t e => Sp.set Tte.reset t e ((Sp.get Tte.reset t e).restored (w (3120 + 8 * e) 8))) k.tt
    regs := m.regs421 k.regs
    spm := m.taken 0 0x400000, dmem := m.taken 0x500000 0x40000
    mx := { k.mx with
      acc := ((m.taken 0x400000 0x100000).map (·.1 / 4)).foldl (fun x i => Sp.set 0 x i (BitVec.ofNat 32 (m.le (contextBase + 0x400000 + 4 * i) 4))) []
      abuf := m.taken 0x540000 0x18000, half0 := m.half421 0x558000, half1 := m.half421 0x568000 }
    handles := Vector.ofFn fun i => handleFrom (w (1288 + 8 * i.val) 8)
    slim := BitVec.ofNat 18 (w 1504 8)
    trap0 := BitVec.ofNat 64 (w 1536 8), trap1 := BitVec.ofNat 64 (w 1544 8), trap2 := BitVec.ofNat 64 (w 1552 8)
    flt0 := BitVec.ofNat 64 (w 1560 8), flt1 := BitVec.ofNat 64 (w 1568 8)
    cbank := Vector.ofFn fun i => BitVec.ofNat 32 (w (1584 + 4 * i.val) 4)
    win := Vector.ofFn fun i =>
      let x := w (2608 + 16 * i.val) 16
      { Window.reset with
        word0 := wteWord x ||| BitVec.ofNat 64 (x % 2), expect := BitVec.ofNat 8 (bits x 64 8), count := BitVec.ofNat 8 (bits x 64 8)
        tag := BitVec.ofNat 16 (bits x 80 16), validNext := k.win[i].validNext } }

/-- Whether a halted core is idle (R421). -/
def State.contextIdle (s : State) (c : Nat) : Bool :=
  let m := (s.core c).mx
  m.seq.isNone && m.busyTo ≤ s.cyc && m.copyFree ≤ s.cyc && (s.core c).ch.run.isNone && !s.rdBusy c
    && (s.core c).win.toList.all fun w => !w.applying

/-- The firmware's chain that saves or restores a context begins on the core's channel (R253, R421, R437); its commands are not modelled one
by one (log entry 13). The focus argument 1 is its end. -/
def State.contextChain (s : State) (cycles : Nat) (ev : Instr) : State :=
  let c := s.focus.core.val
  ((s.modCur Core.takeTiming).modCh fun h => { h with run := some ⟨16384, s.now, s.cyc, 0, 0, none, true, none, 0, []⟩ }).at
    c (s.cyc + 1 + cycles) pEnd (.run (argFocus c 1) ev)

/-- R421: once a halted core is idle, its context is saved by a firmware chain, within 36,000 cycles; what the save reads is corrected, or
detected as uncorrectable (R366). The focus argument is 1 when the save ends. -/
def execContextSave (s : State) : Result :=
  let c := s.focus.core.val
  .next (if s.cur.life ≠ .halted then (if s.focus.arg = 0 then s else s.stopChain c s.now)
    else if s.focus.arg = 0 then
      if s.contextIdle c then s.contextChain (Config.contextCycles c % 36000) .contextSave
      else s.at c (s.cyc + 1) pEnd (.run s.focus .contextSave)
    else
      let free := s.freeCtr
      let s := { s with
        freeCtr := free + 0x25000
        saved := s.saved.map fun (x : Saved) => if x.core = c then { x with done := true } else x }
      ((s.contextReads c).modCur fun k => { k with
        ch := { k.ch with hbm := k.ch.hbm.saveContext (k.image421 free) }
        tt := k.tt.foldl (fun t e => Sp.set Tte.reset t e.1 { e.2 with fresh := false }) k.tt
        marks := k.marks.filter fun m => !(m.store == .hbm && contextBase ≤ 64 * m.unit && 64 * m.unit < contextBase + contextSize) }).stopChain
        c s.now)

/-- R422: once its image is saved, a core is restored from it by a firmware chain, and its code part is loaded from the task image. A code
part that an uncorrectable chunk-store word spoils ends the task (R366; log entry 89). The focus argument is 1 when the restore ends. -/
def execContextRestore (s : State) : Result :=
  let c := s.focus.core.val
  .next (if s.cur.life ≠ .halted then (if s.focus.arg = 0 then s else s.stopChain c s.now)
    else if s.focus.arg = 0 then
      if (s.saved.any fun x => x.core == c && !x.done) || !s.contextIdle c then s.at c (s.cyc + 1) pEnd (.run s.focus .contextRestore)
      else s.contextChain (Config.contextCycles c) .contextRestore
    else
      let s := s.stopChain c s.now
      if s.cur.image.elim false fun i => s.sectionsBad i codePart then s.killTask c
      else
        let s := { s with saved := s.saved.map fun (x : Saved) => if x.core = c then { x with ready := some s.cyc } else x }
        s.modCur fun k =>
          let k := k.takeContext k.ch.hbm
          match k.image with | some i => s.loadCode i k | none => k)

end Sys2Proof.Machine
end

