-- ==== Sys2Proof/Machine/EngineStart.lean ====
section
/-! DEFINITION. The start of a queued engine command (R231, R320). -/

namespace Sys2Proof.Machine

open Sys2Proof

/-- What a command does at its start cycle: the effect of its own chapter (R232-R235, R242, R282, R325). -/
def State.startCommand (s : State) (cmd : Cmd) : State :=
  match cmd.instr with
  | .mset _ _ _ k => s.startMset k cmd.a
  | .mcall .. => s.startMcall cmd.a cmd.b
  | .mload .. => s.startMload cmd.a cmd.b
  | .cpyaSpm .. => s.startCpya (copyOp true cmd.a cmd.b cmd.addr)
  | .cpyaAcc .. => s.startCpya (copyOp false cmd.a cmd.b cmd.addr)
  | .tlgo .. => s.startTlgo cmd.a cmd.b cmd.issued cmd.scope
  | .coll _ _ _ h => s.startColl cmd h
  | .get .. | .put .. | .putMc .. | .racc .. | .wstart .. | .wcompl .. | .wlock .. | .wunlock .. => s.startRemote cmd
  | _ => s

/-- R231, R320: the oldest command of a queue leaves it at its start cycle and begins, ahead of issue, so that a command issued in that cycle
finds its entry free (DESIGN CHOICE, log entry 126). -/
def execEngineCommandStart (q : QueueId) (s : State) : Result :=
  .next (match s.cur.queues[q.idx] with
    | [] => s
    | cmd :: rest =>
      let s := s.modCur fun k => { k with queues := k.queues.set q.idx rest }
      { s with focus := { s.focus with slot := .eng, addr := cmd.addr, scope := cmd.scope } }.startCommand cmd)

end Sys2Proof.Machine
end

