-- ==== Sys2Proof/Machine/Lanes.lean ====
section
/-! DEFINITION. Cross-lane forms and reductions of slot V2 (R177-R184). -/

namespace Sys2Proof.Machine

open Sys2Proof

/-- A gather of elements (R178): element i takes the value src i and is written when it is active and position pos i is. -/
def State.permute (s : State) (d : Fin 32) (km : Fin 8) (w : Nat) (pos src : Nat → Nat) : State :=
  let k := s.cur.readK km
  s.putV d 6 (ofElems w fun i => if active k w i && active k w (pos i) then 2 ^ w - 1 else 0) (ofElems w src)

/-- The source element of VPERM (R179). -/
def permIndex (w i b : Nat) : Nat := if w = 32 then b % 128 else if w = 16 then b % 256 else b % 256 + 256 * (i / 256)

/-- R179; selector 36 supplies the integer 1, since the variant gives only a width (log entry 72, DESIGN CHOICE). -/
def execVperm (g : Guard) (d : Fin 32) (a b : Sel) (k : Fin 8) (wd : Width) (s : State) : Result :=
  s.slot g fun s =>
    let w := wd.bits
    let x := s.opV w 1 a
    let y := s.opV w 1 b
    let p := fun i => permIndex w i (elem w y i)
    s.permute d k w p fun i => elem w x (p i)

/-- The position in the sequence C of the source of element i (R180). -/
def shufIndex (pat n i : Nat) : Nat :=
  match pat with
  | 0 => if i % 2 = 0 then i / 2 else n + i / 2
  | 1 => if i % 2 = 0 then n / 2 + i / 2 else n + n / 2 + i / 2
  | 2 => 2 * i
  | _ => 2 * i + 1

/-- R180; selector 36 as in execVperm (log entry 72). -/
def execVshuf (g : Guard) (d : Fin 32) (a c : Sel) (k : Fin 8) (wd : Width) (s : State) : Result :=
  s.slot g fun s =>
    let w := wd.bits
    let n := 4096 / w
    let x := s.opV w 1 a
    let z := s.cur.readV d
    let j := shufIndex (bits (s.opC c) 0 2) n
    s.permute d k w (fun i => j i % n) fun i => if j i < n then elem w z (j i) else elem w x (j i - n)

/-- R181; selector 36 as in execVperm (log entry 72). -/
def execVrot (g : Guard) (d : Fin 32) (a c : Sel) (k : Fin 8) (wd : Width) (s : State) : Result :=
  s.slot g fun s =>
    let w := wd.bits
    let n := 4096 / w
    let x := s.opV w 1 a
    let m := bits (s.opC c) 0 10 % n
    s.permute d k w (fun i => (i + m) % n) fun i => elem w x ((i + m) % n)

/-- R181; selector 36 as in execVperm (log entry 72). -/
def execVbcst (g : Guard) (d : Fin 32) (a c : Sel) (k : Fin 8) (wd : Width) (s : State) : Result :=
  s.slot g fun s =>
    let w := wd.bits
    let x := s.opV w 1 a
    let m := bits (s.opC c) 0 10 % (4096 / w)
    s.permute d k w (fun _ => m) fun _ => elem w x m

/-- Running results over the active elements in ascending order (R182); an inactive element has none. -/
def scan (f : Nat → Nat → Nat × Classes) (first : Nat → Nat) : Option Nat → List (Bool × Nat) → List (Nat × Classes)
  | _, [] => []
  | acc, (false, _) :: r => (0, 0) :: scan f first acc r
  | none, (true, x) :: r => let y := first x; (y, 0) :: scan f first (some y) r
  | some a, (true, x) :: r => let y := f a x; y :: scan f first (some y.1) r

/-- The combine step of VSCAN on integers (R182). -/
def scanInt (w op x y : Nat) : Nat × Classes :=
  (match op with
    | 0 => (x + y) % 2 ^ w
    | 1 => if sgn w x < sgn w y then y else x
    | _ => if sgn w x < sgn w y then x else y, 0)

/-- The combine step of VSCAN on floating-point elements (R182). -/
def scanFp (f : Fmt) (op x y : Nat) : Nat × Classes :=
  match op with
  | 0 => f.add x y
  | 1 => (f.minmax true x y, 0)
  | _ => (f.minmax false x y, 0)

/-- The types of VSCAN's variant (R182). -/
def scanI (v : Fin 3) : IType := match v with | 0 => .i32 | 1 => .i16 | 2 => .i8
/-- The types of VSCAN's variant (R182). -/
def scanF (v : Fin 3) : FType := match v with | 0 => .f32 | 1 => .f16 | 2 => .bf16

/-- R182. -/
def execVscan (g : Guard) (d : Fin 32) (a c : Sel) (k : Fin 8) (v : Fin 3) (s : State) : Result :=
  s.slot g fun s =>
    let cw := s.opC c
    let op := bits cw 0 2
    let fp := bits cw 2 1 = 1
    let w := if fp then (scanF v).bits else (scanI v).bits
    let m := s.cur.readK k
    if op = 3 then s.convZero d m w 6
    else
      let x := s.opV w (if fp then (scanF v).one else 1) a
      let els := (List.range (4096 / w)).map fun i => (active m w i, elem w x i)
      s.putVF d 6 w m (if fp then scan (scanFp (scanF v).fmt op) (scanF v).fmt.flushed none els
        else scan (scanInt w op) id none els)

/-- The active elements of a source. -/
def activeElems (k : KReg) (w : Nat) (x : VReg) : List Nat :=
  ((List.range (4096 / w)).filter fun i => active k w i).map fun i => elem w x i

/-- One value into every active element (R183, R184). -/
def State.spread (s : State) (d : Fin 32) (m : KReg) (w : Nat) (r : Nat × Classes) : State :=
  (s.putV d 6 (activeBits m w) (splat w r.1)).flags 6 r.2

/-- R183: the exact sum rounded once; in SR mode one word for each position, the first rounding. The mode is that of the sum: maximum and
minimum, and a form without an active element, draw nothing whatever the mode field says (log entry 21, DESIGN CHOICE). -/
def execVredf (g : Guard) (d : Fin 32) (a c : Sel) (k : Fin 8) (t : FType) (s : State) : Result :=
  s.slot g fun s =>
    let cw := s.opC c
    let op := bits cw 0 2
    let mode := bits cw 2 3
    let w := t.bits
    let m := s.cur.readK k
    if op = 3 then s.convZero d m w 6
    else match activeElems m w (s.opV w t.one a) with
      | [] => s
      | e :: es =>
        if op = 0 then
          let (ws, s) := if mode = 4 then s.drawWords s.focus.core.val (4096 / w) else ([], s)
          let vs := (e :: es).map t.fmt.decode
          s.spread d m w (t.fmt.deliver mode (rngWord (ws.headD 0)) vs (fsumEx (mode == 3) vs))
        else s.spread d m w (es.foldl (fun x y => t.fmt.minmax (op == 1) x y) (t.fmt.minmax (op == 1) e e), 0)

/-- The reductions of VREDI (R184) over a non-empty list. -/
def redInt (w op : Nat) (e : Nat) (es : List Nat) : Nat :=
  let total : Int := (e :: es).foldl (fun n x => n + sgn w x) 0
  match op with
  | 0 => (BitVec.ofInt w total).toNat
  | 1 => satPat w total
  | 2 => es.foldl (fun x y => if sgn w x < sgn w y then y else x) e
  | 3 => es.foldl (fun x y => if sgn w x < sgn w y then x else y) e
  | 4 => es.foldl max e
  | _ => es.foldl min e

/-- R184. -/
def execVredi (g : Guard) (d : Fin 32) (a c : Sel) (k : Fin 8) (t : IType) (s : State) : Result :=
  s.slot g fun s =>
    let op := bits (s.opC c) 0 3
    let w := t.bits
    let m := s.cur.readK k
    if 6 ≤ op then s.convZero d m w 6
    else match activeElems m w (s.opV w 1 a) with
      | [] => s
      | e :: es => s.spread d m w (redInt w op e es, 0)

end Sys2Proof.Machine
end

