-- ==== Sys2Proof/Machine/Trans.lean ====
section
/-! DEFINITION. The special functions (R186-R188): the exact result is enclosed in fixed point at growing precision until
both ends round to one FP32 value (log entry 8). -/

namespace Sys2Proof.Machine

open Sys2Proof

/-- Integer square root by bits: the largest r with r² at most n, for n below 4^fuel. -/
def isqrt (n : Nat) : Nat → Nat → Nat
  | 0, r => r
  | k + 1, r => let t := r + 2 ^ k; isqrt n k (if t * t ≤ n then t else r)

/-- Integer square root. -/
def nsqrt (n : Nat) : Nat := isqrt n (bitLen n / 2 + 1) 0

/-- The sum of 2^P / (k 2^k), downward from k: ln 2 in units of 2^-P. -/
def ln2Sum (P : Nat) : Nat → Nat
  | 0 => 0
  | k + 1 => 2 ^ P / ((k + 1) * 2 ^ (k + 1)) + ln2Sum P k

/-- ln 2 in units of 2^-P. -/
def ln2 (P : Nat) : Nat := ln2Sum P P

/-- The alternating series of arctan(1/n) from term k on. -/
def atanSum (P n : Nat) : Nat → Nat → Int → Int
  | 0, _, _ => 0
  | fuel + 1, k, t => t / (2 * k + 1 : Nat) + atanSum P n fuel (k + 1) (-(t / (n * n : Nat)))

/-- π in units of 2^-P, by Machin's formula. -/
def piFix (P : Nat) : Nat :=
  (16 * atanSum P 5 (P / 4 + 4) 0 (2 ^ P / 5 : Nat) - 4 * atanSum P 239 (P / 4 + 4) 0 (2 ^ P / 239 : Nat)).toNat

/-- The Taylor series of e^y from the term t = y^k / k! on; y and t in units of 2^-P. -/
def expSum (P y : Nat) : Nat → Nat → Nat → Nat
  | 0, _, _ => 0
  | fuel + 1, k, t => t + expSum P y fuel (k + 1) (t * y / 2 ^ P / (k + 1))

/-- e^y for 0 ≤ y < 1 in units of 2^-P. -/
def expFix (P y : Nat) : Nat := expSum P y (P / 2 + 12) 0 (2 ^ P)

/-- The series of artanh z from the power t = z^(2k+1) on. -/
def atanhSum (P z2 : Nat) : Nat → Nat → Nat → Nat
  | 0, _, _ => 0
  | fuel + 1, k, t => t / (2 * k + 1) + atanhSum P z2 fuel (k + 1) (t * z2 / 2 ^ P)

/-- ln m for m in [1, 2), both in units of 2^-P. -/
def lnFix (P m : Nat) : Nat :=
  let z := (m - 2 ^ P) * 2 ^ P / (m + 2 ^ P)
  2 * atanhSum P (z * z / 2 ^ P) (P / 3 + 8) 0 z

/-- The Taylor series of sine (k odd) or cosine (k even) from the term t = y^k / k! on. -/
def trigSum (P y2 : Nat) : Nat → Nat → Int → Int
  | 0, _, _ => 0
  | fuel + 1, k, t => t + trigSum P y2 fuel (k + 2) (-(t * (y2 : Int) / (2 ^ P : Nat) / ((k + 1) * (k + 2) : Nat)))

/-- sin y for 0 ≤ y < 1 in units of 2^-P. -/
def sinFix (P y : Nat) : Nat := (trigSum P (y * y / 2 ^ P) (P / 4 + 10) 1 y).toNat
/-- cos y for 0 ≤ y < 1 in units of 2^-P. -/
def cosFix (P y : Nat) : Nat := (trigSum P (y * y / 2 ^ P) (P / 4 + 10) 0 (2 ^ P : Nat)).toNat

/-- Half the width, in units, of the interval about an approximation. -/
def slack : Nat := 2 ^ 20

/-- The rounded FP32 value of a result that app encloses at precision P: v·2^e ± slack·2^e; each precision in turn. -/
def enclose (neg : Bool) (app : Nat → Nat × Int) : List Nat → Nat × Classes
  | [] => (fmtF32.nan, clsInvalid)
  | [P] => let (v, e) := app P; fmtF32.round 0 0 (.fin neg v e)
  | P :: r =>
    let (v, e) := app P
    let lo := fmtF32.round 0 0 (.fin neg (v - slack) e)
    if lo = fmtF32.round 0 0 (.fin neg (v + slack) e) then lo else enclose neg app r

/-- The precisions tried. -/
def precisions : List Nat := [128, 192, 320, 640]

/-- An exact value delivered. -/
def exactly (neg : Bool) (m : Nat) (e : Int) : Nat × Classes := fmtF32.round 0 0 (.fin neg m e)

/-- A finite value in units of 2^-P, rounded down. -/
def fixed (P m : Nat) (e : Int) : Nat :=
  let k := e + P
  if 0 ≤ k then m * 2 ^ k.toNat else m / 2 ^ (-k).toNat

/-- e^-y for y in units of 2^-P: a mantissa in (1/2, 1] in units of 2^-P, and the power of two that divides it. -/
def expNeg (P y : Nat) : Nat × Nat :=
  let l := ln2 P
  let k := y / l
  (2 ^ (2 * P) / expFix P (y - k * l), k)

/-- Whether m·2^e is an integer, for m odd or e not negative after normalisation. -/
def isInt (m : Nat) (e : Int) : Bool := 0 ≤ e || m % 2 ^ (-e).toNat == 0

/-- EXP2 (R186). -/
def exp2F (x : FVal) : Nat × Classes :=
  match x with
  | .nan => (fmtF32.nan, 0)
  | .inf neg => (if neg then 0 else fmtF32.inf, 0)
  | .fin neg m e =>
    if m = 0 then (0x3F800000, 0)
    else if 8 < e + bitLen m then (if neg then (0, 0) else (fmtF32.inf, clsOverflow))
    else if isInt m e then exactly false 1 (if neg then -(fixed 0 m e : Int) else fixed 0 m e)
    else enclose false (fun P =>
      let a := fixed P m e
      let n : Int := if neg then -((a / 2 ^ P : Nat) : Int) - 1 else (a / 2 ^ P : Nat)
      let f := if neg then 2 ^ P - a % 2 ^ P else a % 2 ^ P
      (expFix P (f * ln2 P / 2 ^ P), n - P)) precisions

/-- LOG2 (R186). -/
def log2F (x : FVal) : Nat × Classes :=
  match x with
  | .nan => (fmtF32.nan, 0)
  | .inf neg => if neg then (fmtF32.nan, clsInvalid) else (fmtF32.inf, 0)
  | .fin neg m e =>
    if m = 0 then (fmtF32.signed true fmtF32.inf, clsDivZero)
    else if neg then (fmtF32.nan, clsInvalid)
    else
      let b := bitLen m - 1
      let n : Int := e + b
      if m = 2 ^ b then fmtF32.round 0 0 (if n = 0 then .fin false 0 0 else fofInt n)
      else
        let app := fun P => n * 2 ^ P + ((lnFix P (fixed P m (-b)) * 2 ^ P / ln2 P : Nat) : Int)
        enclose (n < 0) (fun P => ((app P).natAbs, -(P : Int))) precisions

/-- SQRT (R186). -/
def sqrtF (x : FVal) : Nat × Classes :=
  match x with
  | .nan => (fmtF32.nan, 0)
  | .inf neg => if neg then (fmtF32.nan, clsInvalid) else (fmtF32.inf, 0)
  | .fin neg m e =>
    if m = 0 then (fmtF32.signed neg 0, 0)
    else if neg then (fmtF32.nan, clsInvalid)
    else
      let m' := if e % 2 = 0 then m else 2 * m
      let e' := if e % 2 = 0 then e else e - 1
      let n := m' * 2 ^ 80
      let r := nsqrt n
      exactly false (2 * r + (if r * r = n then 0 else 1)) (e' / 2 - 41)

/-- sin(π f) for 0 < f < 1/2, f in units of 2^-K, at precision P. -/
def sinPi (P K f : Nat) : Nat :=
  let p := piFix P
  if 4 * f ≤ 2 ^ K then sinFix P (p * f / 2 ^ K) else cosFix P (p * (2 ^ K - 2 * f) / 2 ^ (K + 1))

/-- The half-turns of |x| modulo 2, in units of 2^-K. -/
def halfTurns (m : Nat) (e : Int) : Nat × Nat :=
  if 1 ≤ e then (0, 0) else let K := (-e).toNat; (m % 2 ^ (K + 1), K)

/-- sin(π x) or, with cosine set, cos(π x) for finite non-zero x (R186). -/
def trigF (cosine neg : Bool) (m : Nat) (e : Int) : Nat × Classes :=
  let (r, K) := halfTurns m e
  let q := 2 * r / 2 ^ K
  let f2 := 2 * r - q * 2 ^ K
  let quarter := (q + cosine.toNat) % 4
  let sign := (if cosine then false else neg) != (2 ≤ quarter : Bool)
  if f2 = 0 then
    if quarter % 2 = 0 then (if cosine then 0 else fmtF32.signed neg 0, 0)
    else exactly sign 1 0
  else
    -- f2 in units of 2^-(K+1), between 0 and 1/2
    let f := if quarter % 2 = 0 then f2 else 2 ^ K - f2
    enclose sign (fun P => (sinPi (P + K) (K + 1) f, -((P + K : Nat) : Int))) precisions

/-- SIN (R186). -/
def sinF (x : FVal) : Nat × Classes :=
  match x with
  | .nan => (fmtF32.nan, 0)
  | .inf _ => (fmtF32.nan, clsInvalid)
  | .fin neg m e => if m = 0 then (fmtF32.signed neg 0, 0) else trigF false neg m e

/-- COS (R186). -/
def cosF (x : FVal) : Nat × Classes :=
  match x with
  | .nan => (fmtF32.nan, 0)
  | .inf _ => (fmtF32.nan, clsInvalid)
  | .fin neg m e => if m = 0 then (0x3F800000, 0) else trigF true neg m e

/-- TANH (R186). -/
def tanhF (x : FVal) : Nat × Classes :=
  match x with
  | .nan => (fmtF32.nan, 0)
  | .inf neg => (fmtF32.signed neg 0x3F800000, 0)
  | .fin neg m e =>
    if m = 0 then (fmtF32.signed neg 0, 0)
    else if e + bitLen m < -12 then exactly neg m e
    else if 5 < e + bitLen m then exactly neg 1 0
    else enclose neg (fun P =>
      let (t, k) := expNeg P (2 * fixed P m e)
      let u := t / 2 ^ k
      ((2 ^ P - u) * 2 ^ P / (2 ^ P + u), -(P : Int))) precisions

/-- SIGM (R186). -/
def sigmF (x : FVal) : Nat × Classes :=
  match x with
  | .nan => (fmtF32.nan, 0)
  | .inf neg => (if neg then 0 else 0x3F800000, 0)
  | .fin neg m e =>
    if m = 0 then (0x3F000000, 0)
    else if 7 < e + bitLen m then (if neg then 0 else 0x3F800000, 0)
    else enclose false (fun P =>
      let (t, k) := expNeg P (fixed P m e)
      if neg then (t * 2 ^ P / (2 ^ P + t / 2 ^ k), -((P + k : Nat) : Int))
      else (2 ^ (2 * P) / (2 ^ P + t / 2 ^ k), -(P : Int))) precisions

/-- A positive value rounded to 13 significant bits (R187), given with a sticky low bit. -/
def round13 (neg : Bool) (m : Nat) (e : Int) : Nat × Classes :=
  let sh := bitLen m - 13
  let y := m / 2 ^ sh
  let r := if roundsUp 0 0 neg y (m % 2 ^ sh) sh then y + 1 else y
  let e' := e + sh
  if e' + bitLen r < -125 then (fmtF32.signed neg 0, clsSubnormal) else exactly neg r e'

/-- A subnormal FP32 operand read as the zero of its sign (R187, R188). -/
def flush32 (x : Nat) : Nat := if x / 2 ^ 23 % 2 ^ 8 = 0 then x / 2 ^ 31 * 2 ^ 31 else x

/-- RCP (R187). -/
def rcpF (x : Nat) : Nat × Classes :=
  match fmtF32.decode (flush32 x) with
  | .nan => (fmtF32.nan, 0)
  | .inf neg => (fmtF32.signed neg 0, 0)
  | .fin neg m e =>
    if m = 0 then (fmtF32.signed neg fmtF32.inf, clsDivZero)
    else
      let q := 2 ^ 64 / m
      round13 neg (2 * q + (if q * m = 2 ^ 64 then 0 else 1)) (-e - 65)

/-- RSQ (R187). -/
def rsqF (x : Nat) : Nat × Classes :=
  match fmtF32.decode (flush32 x) with
  | .nan => (fmtF32.nan, 0)
  | .inf neg => if neg then (fmtF32.nan, clsInvalid) else (0, 0)
  | .fin neg m e =>
    if m = 0 then (fmtF32.signed neg fmtF32.inf, clsDivZero)
    else if neg then (fmtF32.nan, clsInvalid)
    else
      let m' := if e % 2 = 0 then m else 2 * m
      let e' := if e % 2 = 0 then e else e - 1
      let r := nsqrt (2 ^ 128 / m')
      round13 false (2 * r + (if r * r * m' = 2 ^ 128 then 0 else 1)) (-(e' / 2) - 65)

/-- One half and three halves. -/
def half32 : FVal := .fin false 1 (-1)

/-- RCPNR and RSQNR (R188): x and the approximation y. -/
def nrF (rsq : Bool) (x y : Nat) : Nat × Classes :=
  let x := flush32 x
  let y := flush32 y
  let a := fmtF32.decode x
  let b := fmtF32.decode y
  if isNan a || isNan b then (fmtF32.nan, 0)
  else if isZero b || isInf b || isZero a || isInf a then (y, 0)
  else
    let rnd1 := fun (ops : List FVal) (v : FVal) => fmtF32.deliver 0 0 ops v
    if rsq then
      let (u, c1) := rnd1 [b] (fmulEx b b)
      let uv := fmtF32.decode u
      let (t, c2) := rnd1 [a, uv] (faddEx false (.fin false 3 (-1)) (fneg (fmulEx (fmulEx half32 a) uv)))
      let tv := fmtF32.decode t
      let (r, c3) := rnd1 [b, tv] (fmulEx b tv)
      (r, c1 ||| c2 ||| c3)
    else
      let (t, c1) := rnd1 [a, b] (faddEx false (.fin false 1 1) (fneg (fmulEx a b)))
      let tv := fmtF32.decode t
      let (r, c2) := rnd1 [b, tv] (fmulEx b tv)
      (r, c1 ||| c2)

end Sys2Proof.Machine
end

