-- ==== Sys2Proof/Machine/Special.lean ====
section
/-! DEFINITION. The special-function slot (R185-R189). -/

namespace Sys2Proof.Machine

open Sys2Proof

/-- An F-slot form of one operand (R185). -/
def State.special (s : State) (g : Guard) (d : Fin 32) (a : Sel) (k : Fin 8) (f : Nat → Nat × Classes) : Result :=
  s.slot g fun s =>
    let x := s.opV 32 0x3F800000 a
    let m := s.cur.readK k
    s.putVF d 12 32 m ((List.range 128).map fun i => if active m 32 i then f (elem 32 x i) else (0, 0))

/-- R186. -/
def execExp2 (g : Guard) (d : Fin 32) (a : Sel) (k : Fin 8) (s : State) : Result :=
  s.special g d a k fun x => exp2F (fmtF32.decode x)

/-- R186. -/
def execLog2 (g : Guard) (d : Fin 32) (a : Sel) (k : Fin 8) (s : State) : Result :=
  s.special g d a k fun x => log2F (fmtF32.decode x)

/-- R186. -/
def execSqrt (g : Guard) (d : Fin 32) (a : Sel) (k : Fin 8) (s : State) : Result :=
  s.special g d a k fun x => sqrtF (fmtF32.decode x)

/-- R186. -/
def execSin (g : Guard) (d : Fin 32) (a : Sel) (k : Fin 8) (s : State) : Result :=
  s.special g d a k fun x => sinF (fmtF32.decode x)

/-- R186. -/
def execCos (g : Guard) (d : Fin 32) (a : Sel) (k : Fin 8) (s : State) : Result :=
  s.special g d a k fun x => cosF (fmtF32.decode x)

/-- R186. -/
def execTanh (g : Guard) (d : Fin 32) (a : Sel) (k : Fin 8) (s : State) : Result :=
  s.special g d a k fun x => tanhF (fmtF32.decode x)

/-- R186. -/
def execSigm (g : Guard) (d : Fin 32) (a : Sel) (k : Fin 8) (s : State) : Result :=
  s.special g d a k fun x => sigmF (fmtF32.decode x)

/-- R187. -/
def execRcp (g : Guard) (d : Fin 32) (a : Sel) (k : Fin 8) (s : State) : Result := s.special g d a k rcpF

/-- R187. -/
def execRsq (g : Guard) (d : Fin 32) (a : Sel) (k : Fin 8) (s : State) : Result := s.special g d a k rsqF

/-- R188: latency 5. -/
def execRcpnr (g : Guard) (d : Fin 32) (a b : Sel) (k : Fin 8) (s : State) : Result :=
  s.slot g fun s =>
    let x := s.opV 32 0x3F800000 a
    let y := s.opV 32 0x3F800000 b
    s.putVF d 5 32 (s.cur.readK k) ((List.range 128).map fun i => nrF false (elem 32 x i) (elem 32 y i))

/-- R188: latency 5. -/
def execRsqnr (g : Guard) (d : Fin 32) (a b : Sel) (k : Fin 8) (s : State) : Result :=
  s.slot g fun s =>
    let x := s.opV 32 0x3F800000 a
    let y := s.opV 32 0x3F800000 b
    s.putVF d 5 32 (s.cur.readK k) ((List.range 128).map fun i => nrF true (elem 32 x i) (elem 32 y i))

/-- R189: 128 draws, active or not. -/
def execVrand (g : Guard) (d : Fin 32) (k : Fin 8) (s : State) : Result :=
  s.slot g fun s =>
    let (ws, s) := s.drawWords s.focus.core.val 128
    s.putV d 12 (activeBits (s.cur.readK k) 32) (BitVec.ofNat 4096 (joinElems 32 (ws.map fun x => bits x.toNat 32 32)))

/-- R189: the seed takes effect after every draw of the cycle. -/
def execVrandSeed (g : Guard) (a : Fin 32) (s : State) : Result :=
  s.slot g fun s =>
    let x := (s.cur.readV a).setWidth 64
    s.later s.cyc pEnd (.seed (if x = 0 then rngSeed else x))

end Sys2Proof.Machine
end

