-- ==== Sys2Proof/Machine/System.lean ====
section
/-! DEFINITION. System registers, the flash log and the constant bank (R149-R151), the trap registers (R374) and the
daymark (R377-R379). -/

namespace Sys2Proof.Machine

open Sys2Proof

/-- R149: TIME.ns at the start of the issue cycle; the latch takes TIME.frac of the same instant. -/
def execRdtime (g : Guard) (d : Fin 32) (s : State) : Result :=
  s.slot g fun s =>
    let t := s.timeFix s.cyc
    s.putThen d 1 (BitVec.ofNat 64 (t / 65536)) fun s => s.result 1 (.latch (BitVec.ofNat 16 t))

/-- R149. -/
def execRdtimeFrac (g : Guard) (d : Fin 32) (s : State) : Result :=
  s.slot g fun s => s.putS d 1 (s.cur.regs.latch.setWidth 64)

/-- R150: CADENCE. -/
def execRdcad (g : Guard) (d : Fin 32) (s : State) : Result :=
  s.slot g fun s => s.putS d 1 ((s.countOf s.focus.core.val).setWidth 64)

/-- R150, R379: PHASECYC less the shift, holding at 0xFFFF_FFFF (R88). -/
def execRdpcyc (g : Guard) (d : Fin 32) (s : State) : Result :=
  s.slot g fun s => s.putS d 1 (BitVec.ofNat 64 (min (2 ^ 32 - 1) (s.phaseCyc s.focus.core.val) - s.cur.shift))

/-- R150: COREID. -/
def execRdcore (g : Guard) (d : Fin 32) (s : State) : Result :=
  s.slot g fun s => s.putS d 1 (s.coreId s.focus.core.val)

/-- R150, R89: FLASHLOG as it stands at the end of the cycle, then cleared. -/
def execFlog (g : Guard) (d : Fin 32) (s : State) : Result :=
  s.slot g fun s => s.putThen d 1 s.cur.regs.flash fun s => s.later s.cyc pEnd .flogClear

/-- R151. -/
def execSetcb (g : Guard) (a : Sel) (s : State) : Result :=
  s.slot g fun s => s.result 1 (.cbase ((s.opS a).setWidth 8))

/-- R151. -/
def execCbwr (g : Guard) (a b : Sel) (s : State) : Result :=
  s.slot g fun s => s.result 1 (.cbank ((s.opS a).setWidth 8) ((s.opS b).setWidth 32))

/-- R374: TRAPREC word n. -/
def execRdtrap (g : Guard) (d : Fin 32) (n : Fin 3) (s : State) : Result :=
  s.slot g fun s => s.putS d 1 (if n = 0 then s.cur.trap0 else if n = 1 then s.cur.trap1 else s.cur.trap2)

/-- R374: TVEC.addr and TVEC.en. -/
def execSettv (g : Guard) (a : Sel) (s : State) : Result :=
  s.slot g fun s => let x := (s.opS a).toNat
    s.result 1 (.tvec (BitVec.ofNat 64 (bits x 3 16 * 8 + bits x 19 1 * 2 ^ 19)))

/-- Whether a re-issue of the region's own daymark (R379): a rollback issues this bundle again in this cycle. -/
def Core.reissues (k : Core) (addr cyc : Nat) : Bool :=
  k.dayNext == some cyc && k.shadow.any (·.1 == addr)

/-- The daymark issues again (R379): the shift grows by the cycles since its previous issue. -/
def Core.reissue (k : Core) (cyc : Nat) : Core :=
  { k with shift := k.shift + (cyc - k.dayLast), dayLast := cyc, dayNext := none }

/-- R377, R378: with nothing in flight, the shadow is taken, written anew with its code (R366), the region bits are cleared, the replay list
is emptied and the rollback count is reset. The daymark that a rollback issues again keeps its replay list and its count, so that the
region runs again (R361, R379, R380). -/
def execDaymark (s : State) : Result :=
  let again := s.cur.reissues s.focus.addr s.cyc
  let s := if again then s.modCur fun k => k.reissue s.cyc else s
  .next (if s.inFlight s.focus.core.val then s
    else s.modCur fun k =>
      let k := { k with spmRegion := [], dmemRegion := [], accRegion := [] }
      if again then k
      else { k.unmarkAll .shadow with shadow := some (s.focus.addr, k.regs), replay := [], replayed := 0, opsLeft := 0, rolls := 0,
                                      dayFirst := s.cyc, dayLast := s.cyc })

end Sys2Proof.Machine
end

