-- ==== Sys2Proof/Machine/Dispatch.lean ====
section
/-! DEFINITION. The meaning of every instruction: one arm per constructor. -/

namespace Sys2Proof.Machine

open Sys2Proof

/-- What an instruction does. -/
def exec (i : Instr) (s : State) : Host.Outcome State Fault Refusal :=
  match i with
  | .add g d a b => Sys2Proof.Machine.execAdd g d a b s
  | .sub g d a b => Sys2Proof.Machine.execSub g d a b s
  | .and g d a b => Sys2Proof.Machine.execAnd g d a b s
  | .or g d a b => Sys2Proof.Machine.execOr g d a b s
  | .xor g d a b => Sys2Proof.Machine.execXor g d a b s
  | .andn g d a b => Sys2Proof.Machine.execAndn g d a b s
  | .min g d a b => Sys2Proof.Machine.execMin g d a b s
  | .max g d a b => Sys2Proof.Machine.execMax g d a b s
  | .minl g d a b => Sys2Proof.Machine.execMinl g d a b s
  | .maxl g d a b => Sys2Proof.Machine.execMaxl g d a b s
  | .shl g d a b => Sys2Proof.Machine.execShl g d a b s
  | .shr g d a b => Sys2Proof.Machine.execShr g d a b s
  | .sra g d a b => Sys2Proof.Machine.execSra g d a b s
  | .rol g d a b => Sys2Proof.Machine.execRol g d a b s
  | .mul g d a b => Sys2Proof.Machine.execMul g d a b s
  | .mulh g d a b => Sys2Proof.Machine.execMulh g d a b s
  | .mulhl g d a b => Sys2Proof.Machine.execMulhl g d a b s
  | .extr g d a b => Sys2Proof.Machine.execExtr g d a b s
  | .ins g d a b => Sys2Proof.Machine.execIns g d a b s
  | .clz g d a => Sys2Proof.Machine.execClz g d a s
  | .ctz g d a => Sys2Proof.Machine.execCtz g d a s
  | .popc g d a => Sys2Proof.Machine.execPopc g d a s
  | .brev g d a => Sys2Proof.Machine.execBrev g d a s
  | .addsh g d a b n => Sys2Proof.Machine.execAddsh g d a b n s
  | .addi g d a imm => Sys2Proof.Machine.execAddi g d a imm s
  | .andi g d a imm => Sys2Proof.Machine.execAndi g d a imm s
  | .ori g d a imm => Sys2Proof.Machine.execOri g d a imm s
  | .xori g d a imm => Sys2Proof.Machine.execXori g d a imm s
  | .shli g d a n => Sys2Proof.Machine.execShli g d a n s
  | .shri g d a n => Sys2Proof.Machine.execShri g d a n s
  | .srai g d a n => Sys2Proof.Machine.execSrai g d a n s
  | .movi d imm => Sys2Proof.Machine.execMovi d imm s
  | .movhi d imm => Sys2Proof.Machine.execMovhi d imm s
  | .addl d imm => Sys2Proof.Machine.execAddl d imm s
  | .cmpeq g d a b => Sys2Proof.Machine.execCmpeq g d a b s
  | .cmpne g d a b => Sys2Proof.Machine.execCmpne g d a b s
  | .cmplt g d a b => Sys2Proof.Machine.execCmplt g d a b s
  | .cmple g d a b => Sys2Proof.Machine.execCmple g d a b s
  | .cmplo g d a b => Sys2Proof.Machine.execCmplo g d a b s
  | .cmpls g d a b => Sys2Proof.Machine.execCmpls g d a b s
  | .cmpeqi g d a imm => Sys2Proof.Machine.execCmpeqi g d a imm s
  | .cmplti g d a imm => Sys2Proof.Machine.execCmplti g d a imm s
  | .cmploi g d a imm => Sys2Proof.Machine.execCmploi g d a imm s
  | .pand g d a b => Sys2Proof.Machine.execPand g d a b s
  | .por g d a b => Sys2Proof.Machine.execPor g d a b s
  | .pxor g d a b => Sys2Proof.Machine.execPxor g d a b s
  | .pandn g d a b => Sys2Proof.Machine.execPandn g d a b s
  | .mov g d a => Sys2Proof.Machine.execMov g d a s
  | .pkq g d => Sys2Proof.Machine.execPkq g d s
  | .upkq g a => Sys2Proof.Machine.execUpkq g a s
  | .fadd g d a b => Sys2Proof.Machine.execFadd g d a b s
  | .fsub g d a b => Sys2Proof.Machine.execFsub g d a b s
  | .fmul g d a b => Sys2Proof.Machine.execFmul g d a b s
  | .fmin g d a b => Sys2Proof.Machine.execFmin g d a b s
  | .fmax g d a b => Sys2Proof.Machine.execFmax g d a b s
  | .fabs g d a => Sys2Proof.Machine.execFabs g d a s
  | .fneg g d a => Sys2Proof.Machine.execFneg g d a s
  | .fma g d a b => Sys2Proof.Machine.execFma g d a b s
  | .fmaD g d a b => Sys2Proof.Machine.execFmaD g d a b s
  | .fcmpeq g d a b => Sys2Proof.Machine.execFcmpeq g d a b s
  | .fcmplt g d a b => Sys2Proof.Machine.execFcmplt g d a b s
  | .fcmple g d a b => Sys2Proof.Machine.execFcmple g d a b s
  | .fcmpun g d a b => Sys2Proof.Machine.execFcmpun g d a b s
  | .fcvtI64F32 g d a c => Sys2Proof.Machine.execFcvtI64F32 g d a c s
  | .fcvtF32I64 g d a c => Sys2Proof.Machine.execFcvtF32I64 g d a c s
  | .fcvtF16F32 g d a c => Sys2Proof.Machine.execFcvtF16F32 g d a c s
  | .fcvtBf16F32 g d a c => Sys2Proof.Machine.execFcvtBf16F32 g d a c s
  | .fcvtF32F16 g d a c => Sys2Proof.Machine.execFcvtF32F16 g d a c s
  | .fcvtF32Bf16 g d a c => Sys2Proof.Machine.execFcvtF32Bf16 g d a c s
  | .fmovi d imm => Sys2Proof.Machine.execFmovi d imm s
  | .faddi d imm => Sys2Proof.Machine.execFaddi d imm s
  | .fmuli d imm => Sys2Proof.Machine.execFmuli d imm s
  | .br g off => Sys2Proof.Machine.execBr g off s
  | .call g off => Sys2Proof.Machine.execCall g off s
  | .jr g a => Sys2Proof.Machine.execJr g a s
  | .jalr g d a => Sys2Proof.Machine.execJalr g d a s
  | .lcset g a e => Sys2Proof.Machine.execLcset g a e s
  | .loop g off => Sys2Proof.Machine.execLoop g off s
  | .nopw g a imm => Sys2Proof.Machine.execNopw g a imm s
  | .waitt g a b => Sys2Proof.Machine.execWaitt g a b s
  | .rdtime g d => Sys2Proof.Machine.execRdtime g d s
  | .rdtimeFrac g d => Sys2Proof.Machine.execRdtimeFrac g d s
  | .rdcad g d => Sys2Proof.Machine.execRdcad g d s
  | .rdpcyc g d => Sys2Proof.Machine.execRdpcyc g d s
  | .rdcore g d => Sys2Proof.Machine.execRdcore g d s
  | .flog g d => Sys2Proof.Machine.execFlog g d s
  | .setcb g a => Sys2Proof.Machine.execSetcb g a s
  | .cbwr g a b => Sys2Proof.Machine.execCbwr g a b s
  | .trap g imm => Sys2Proof.Machine.execTrap g imm s
  | .rfd g => Sys2Proof.Machine.execRfd g s
  | .rdtrap g d n => Sys2Proof.Machine.execRdtrap g d n s
  | .settv g a => Sys2Proof.Machine.execSettv g a s
  | .xfence g p q => Sys2Proof.Machine.execXfence g p q s
  | .vadd g d a b k t => Sys2Proof.Machine.execVadd g d a b k t s
  | .vsub g d a b k t => Sys2Proof.Machine.execVsub g d a b k t s
  | .vmul g d a b k t => Sys2Proof.Machine.execVmul g d a b k t s
  | .vmin g d a b k t => Sys2Proof.Machine.execVmin g d a b k t s
  | .vmax g d a b k t => Sys2Proof.Machine.execVmax g d a b k t s
  | .vminl g d a b k t => Sys2Proof.Machine.execVminl g d a b k t s
  | .vmaxl g d a b k t => Sys2Proof.Machine.execVmaxl g d a b k t s
  | .vand g d a b k t => Sys2Proof.Machine.execVand g d a b k t s
  | .vor g d a b k t => Sys2Proof.Machine.execVor g d a b k t s
  | .vxor g d a b k t => Sys2Proof.Machine.execVxor g d a b k t s
  | .vshl g d a b k t => Sys2Proof.Machine.execVshl g d a b k t s
  | .vshr g d a b k t => Sys2Proof.Machine.execVshr g d a b k t s
  | .vsra g d a b k t => Sys2Proof.Machine.execVsra g d a b k t s
  | .vadds g d a b k t => Sys2Proof.Machine.execVadds g d a b k t s
  | .vsubs g d a b k t => Sys2Proof.Machine.execVsubs g d a b k t s
  | .vfadd g d a b k t => Sys2Proof.Machine.execVfadd g d a b k t s
  | .vfsub g d a b k t => Sys2Proof.Machine.execVfsub g d a b k t s
  | .vfmul g d a b k t => Sys2Proof.Machine.execVfmul g d a b k t s
  | .vfma g d a b k t => Sys2Proof.Machine.execVfma g d a b k t s
  | .vfmad g d a b k t => Sys2Proof.Machine.execVfmad g d a b k t s
  | .vfmin g d a b k t => Sys2Proof.Machine.execVfmin g d a b k t s
  | .vfmax g d a b k t => Sys2Proof.Machine.execVfmax g d a b k t s
  | .vfabs g d a k t => Sys2Proof.Machine.execVfabs g d a k t s
  | .vfneg g d a k t => Sys2Proof.Machine.execVfneg g d a k t s
  | .vaddi g d a imm => Sys2Proof.Machine.execVaddi g d a imm s
  | .vshli g d a n => Sys2Proof.Machine.execVshli g d a n s
  | .vshri g d a n => Sys2Proof.Machine.execVshri g d a n s
  | .vsrai g d a n => Sys2Proof.Machine.execVsrai g d a n s
  | .vandi g d a imm => Sys2Proof.Machine.execVandi g d a imm s
  | .vfmovi d imm => Sys2Proof.Machine.execVfmovi d imm s
  | .vfaddi d imm => Sys2Proof.Machine.execVfaddi d imm s
  | .vfmuli d imm => Sys2Proof.Machine.execVfmuli d imm s
  | .vmovi d imm => Sys2Proof.Machine.execVmovi d imm s
  | .vcmpeq g d a b k t => Sys2Proof.Machine.execVcmpeq g d a b k t s
  | .vcmplt g d a b k t => Sys2Proof.Machine.execVcmplt g d a b k t s
  | .vcmple g d a b k t => Sys2Proof.Machine.execVcmple g d a b k t s
  | .vfcmpeq g d a b k t => Sys2Proof.Machine.execVfcmpeq g d a b k t s
  | .vfcmplt g d a b k t => Sys2Proof.Machine.execVfcmplt g d a b k t s
  | .vfcmple g d a b k t => Sys2Proof.Machine.execVfcmple g d a b k t s
  | .vfcmpun g d a b k t => Sys2Proof.Machine.execVfcmpun g d a b k t s
  | .vsel g d a b k w => Sys2Proof.Machine.execVsel g d a b k w s
  | .vmov g d a k w => Sys2Proof.Machine.execVmov g d a k w s
  | .vcvtf g d a c k => Sys2Proof.Machine.execVcvtf g d a c k s
  | .vcvti g d a c k => Sys2Proof.Machine.execVcvti g d a c k s
  | .vcvtif g d a c k => Sys2Proof.Machine.execVcvtif g d a c k s
  | .vwiden g d a c k => Sys2Proof.Machine.execVwiden g d a c k s
  | .vnarrow g d a c k => Sys2Proof.Machine.execVnarrow g d a c k s
  | .kand g d a b => Sys2Proof.Machine.execKand g d a b s
  | .kor g d a b => Sys2Proof.Machine.execKor g d a b s
  | .kxor g d a b => Sys2Proof.Machine.execKxor g d a b s
  | .kandn g d a b => Sys2Proof.Machine.execKandn g d a b s
  | .ksetFirst g d a w => Sys2Proof.Machine.execKsetFirst g d a w s
  | .ksetNz g d a w => Sys2Proof.Machine.execKsetNz g d a w s
  | .ksetNeg g d a w => Sys2Proof.Machine.execKsetNeg g d a w s
  | .vperm g d a b k w => Sys2Proof.Machine.execVperm g d a b k w s
  | .vshuf g d a c k w => Sys2Proof.Machine.execVshuf g d a c k w s
  | .vrot g d a c k w => Sys2Proof.Machine.execVrot g d a c k w s
  | .vbcst g d a c k w => Sys2Proof.Machine.execVbcst g d a c k w s
  | .vscan g d a c k v => Sys2Proof.Machine.execVscan g d a c k v s
  | .vredf g d a c k t => Sys2Proof.Machine.execVredf g d a c k t s
  | .vredi g d a c k t => Sys2Proof.Machine.execVredi g d a c k t s
  | .exp2 g d a k => Sys2Proof.Machine.execExp2 g d a k s
  | .log2 g d a k => Sys2Proof.Machine.execLog2 g d a k s
  | .sqrt g d a k => Sys2Proof.Machine.execSqrt g d a k s
  | .sin g d a k => Sys2Proof.Machine.execSin g d a k s
  | .cos g d a k => Sys2Proof.Machine.execCos g d a k s
  | .tanh g d a k => Sys2Proof.Machine.execTanh g d a k s
  | .sigm g d a k => Sys2Proof.Machine.execSigm g d a k s
  | .rcp g d a k => Sys2Proof.Machine.execRcp g d a k s
  | .rsq g d a k => Sys2Proof.Machine.execRsq g d a k s
  | .rcpnr g d a b k => Sys2Proof.Machine.execRcpnr g d a b k s
  | .rsqnr g d a b k => Sys2Proof.Machine.execRsqnr g d a b k s
  | .vrand g d k => Sys2Proof.Machine.execVrand g d k s
  | .vrandSeed g a => Sys2Proof.Machine.execVrandSeed g a s
  | .ld g d a b t => Sys2Proof.Machine.execLd g d a b t s
  | .st g d a b t => Sys2Proof.Machine.execSt g d a b t s
  | .ldi g d a imm => Sys2Proof.Machine.execLdi g d a imm s
  | .sti g d a imm => Sys2Proof.Machine.execSti g d a imm s
  | .vld g d a b k w => Sys2Proof.Machine.execVld g d a b k w s
  | .vst g d a b k w => Sys2Proof.Machine.execVst g d a b k w s
  | .vldi g d a imm => Sys2Proof.Machine.execVldi g d a imm s
  | .vsti g d a imm => Sys2Proof.Machine.execVsti g d a imm s
  | .kld g d a b w => Sys2Proof.Machine.execKld g d a b w s
  | .kst g d a b w => Sys2Proof.Machine.execKst g d a b w s
  | .vlds g d a b k p => Sys2Proof.Machine.execVlds g d a b k p s
  | .vsts g d a b k p => Sys2Proof.Machine.execVsts g d a b k p s
  | .vldx g d a b k p => Sys2Proof.Machine.execVldx g d a b k p s
  | .vstx g d a b k p => Sys2Proof.Machine.execVstx g d a b k p s
  | .vldb g d a b k int => Sys2Proof.Machine.execVldb g d a b k int s
  | .mset g o a k => Sys2Proof.Machine.execMset g o a k s
  | .mcall g o a b => Sys2Proof.Machine.execMcall g o a b s
  | .mload g o a b => Sys2Proof.Machine.execMload g o a b s
  | .cpyaSpm g o a b => Sys2Proof.Machine.execCpyaSpm g o a b s
  | .cpyaAcc g o a b => Sys2Proof.Machine.execCpyaAcc g o a b s
  | .tlgo g o a b => Sys2Proof.Machine.execTlgo g o a b s
  | .get g o a b => Sys2Proof.Machine.execGet g o a b s
  | .put g o a b => Sys2Proof.Machine.execPut g o a b s
  | .putMc g o a b => Sys2Proof.Machine.execPutMc g o a b s
  | .racc g o a b => Sys2Proof.Machine.execRacc g o a b s
  | .wpost g a => Sys2Proof.Machine.execWpost g a s
  | .wstart g o a b => Sys2Proof.Machine.execWstart g o a b s
  | .wcompl g o a b => Sys2Proof.Machine.execWcompl g o a b s
  | .wwait g a => Sys2Proof.Machine.execWwait g a s
  | .wlock g o a b => Sys2Proof.Machine.execWlock g o a b s
  | .wunlock g o a b => Sys2Proof.Machine.execWunlock g o a b s
  | .hwait g h vis => Sys2Proof.Machine.execHwait g h vis s
  | .htest g d h clr => Sys2Proof.Machine.execHtest g d h clr s
  | .coll g o a h => Sys2Proof.Machine.execColl g o a h s
  | .launch g a d => Sys2Proof.Machine.execLaunch g a d s
  | .cadv g a b => Sys2Proof.Machine.execCadv g a b s
  | .cadvEnd g a b => Sys2Proof.Machine.execCadvEnd g a b s
  | .barQuad g => Sys2Proof.Machine.execBarQuad g s
  | .barDie g => Sys2Proof.Machine.execBarDie g s
  | .mnop n => Sys2Proof.Machine.execMnop n s
  | .mseta k imm => Sys2Proof.Machine.execMseta k imm s
  | .madda k imm => Sys2Proof.Machine.execMadda k imm s
  | .msetc k imm => Sys2Proof.Machine.execMsetc k imm s
  | .mloop k target => Sys2Proof.Machine.execMloop k target s
  | .msync mask => Sys2Proof.Machine.execMsync mask s
  | .agath xs ix wd stride a aoff nm => Sys2Proof.Machine.execAgath xs ix wd stride a aoff nm s
  | .wld d j int h => Sys2Proof.Machine.execWld d j int h s
  | .wldp d fmt h => Sys2Proof.Machine.execWldp d fmt h s
  | .aclr c coff nm => Sys2Proof.Machine.execAclr c coff nm s
  | .mma c coff a aoff afmt x2 h nm => Sys2Proof.Machine.execMma c coff a aoff afmt x2 h nm s
  | .act k off dt => Sys2Proof.Machine.execAct k off dt s
  | .rd ba col dt => Sys2Proof.Machine.execRd ba col dt s
  | .wr ba col dt => Sys2Proof.Machine.execWr ba col dt s
  | .pre ba dt => Sys2Proof.Machine.execPre ba dt s
  | .prea pc dt => Sys2Proof.Machine.execPrea pc dt s
  | .refab pc dt => Sys2Proof.Machine.execRefab pc dt s
  | .refpb ba dt => Sys2Proof.Machine.execRefpb ba dt s
  | .maint pc dt => Sys2Proof.Machine.execMaint pc dt s
  | .chainWaitt next n dt => Sys2Proof.Machine.execChainWaitt next n dt s
  | .ptr p v dt => Sys2Proof.Machine.execPtr p v dt s
  | .rowb k v dt => Sys2Proof.Machine.execRowb k v dt s
  | .lcnt j v dt => Sys2Proof.Machine.execLcnt j v dt s
  | .chainLoop j v dt => Sys2Proof.Machine.execChainLoop j v dt s
  | .chainEnd dt => Sys2Proof.Machine.execChainEnd dt s
  | .chainRdLanding addr pa idx data mark => Sys2Proof.Machine.execChainRdLanding addr pa idx data mark s
  | .visibilityEvent code => Sys2Proof.Machine.execVisibilityEvent code s
  | .engineCommandStart q => Sys2Proof.Machine.execEngineCommandStart q s
  | .barrierRelease die => Sys2Proof.Machine.execBarrierRelease die s
  | .flitReceipt ok => Sys2Proof.Machine.execFlitReceipt ok s
  | .cmddb v => Sys2Proof.Machine.execCmddb v s
  | .scrubRange chan pa len => Sys2Proof.Machine.execScrubRange chan pa len s
  | .repairLane chan pc lane spare => Sys2Proof.Machine.execRepairLane chan pc lane spare s
  | .correctedErrorCount chan ce ue first => Sys2Proof.Machine.execCorrectedErrorCount chan ce ue first s
  | .repairDone chan status => Sys2Proof.Machine.execRepairDone chan status s
  | .stackTemperature deg => Sys2Proof.Machine.execStackTemperature deg s
  | .ptpMessageReceipt ns => Sys2Proof.Machine.execPtpMessageReceipt ns s
  | .forwardedEventRecordReceipt part r => Sys2Proof.Machine.execForwardedEventRecordReceipt part r s
  | .forwardedStatusReceipt => Sys2Proof.Machine.execForwardedStatusReceipt s
  | .mend => Sys2Proof.Machine.execMend s
  | .resetRelease => Sys2Proof.Machine.execResetRelease s
  | .phaseBoundary => Sys2Proof.Machine.execPhaseBoundary s
  | .stragglerBudgetExpiry => Sys2Proof.Machine.execStragglerBudgetExpiry s
  | .timeDrivenBoundary => Sys2Proof.Machine.execTimeDrivenBoundary s
  | .powerAdmission => Sys2Proof.Machine.execPowerAdmission s
  | .arrivalCount => Sys2Proof.Machine.execArrivalCount s
  | .daymark => Sys2Proof.Machine.execDaymark s
  | .routineEnd => Sys2Proof.Machine.execRoutineEnd s
  | .idleChainCommand => Sys2Proof.Machine.execIdleChainCommand s
  | .refreshDebtIncrement => Sys2Proof.Machine.execRefreshDebtIncrement s
  | .maintenanceDebtIncrement => Sys2Proof.Machine.execMaintenanceDebtIncrement s
  | .maintSlotEnd => Sys2Proof.Machine.execMaintSlotEnd s
  | .leaseGrant => Sys2Proof.Machine.execLeaseGrant s
  | .translationInvalidate => Sys2Proof.Machine.execTranslationInvalidate s
  | .invalidateWatchdogExpiry => Sys2Proof.Machine.execInvalidateWatchdogExpiry s
  | .remoteOperationReceipt => Sys2Proof.Machine.execRemoteOperationReceipt s
  | .localReuseEvent => Sys2Proof.Machine.execLocalReuseEvent s
  | .remoteTimeout => Sys2Proof.Machine.execRemoteTimeout s
  | .collectiveSequenceStart => Sys2Proof.Machine.execCollectiveSequenceStart s
  | .collectiveCompletion => Sys2Proof.Machine.execCollectiveCompletion s
  | .collectiveTimeout => Sys2Proof.Machine.execCollectiveTimeout s
  | .trapDrainCompletion => Sys2Proof.Machine.execTrapDrainCompletion s
  | .rerunVerification => Sys2Proof.Machine.execRerunVerification s
  | .contextSave => Sys2Proof.Machine.execContextSave s
  | .contextRestore => Sys2Proof.Machine.execContextRestore s
  | .recordCompletion => Sys2Proof.Machine.execRecordCompletion s
  | .stationDown => Sys2Proof.Machine.execStationDown s
  | .stationRetrained => Sys2Proof.Machine.execStationRetrained s
  | .timeLockLoss => Sys2Proof.Machine.execTimeLockLoss s
  | .powerAlarm => Sys2Proof.Machine.execPowerAlarm s
  | .powerAlarmRelease => Sys2Proof.Machine.execPowerAlarmRelease s
  | .attest => Sys2Proof.Machine.execAttest s
  | .wrreg => Sys2Proof.Machine.execWrreg s
  | .rdreg => Sys2Proof.Machine.execRdreg s
  | .armtd => Sys2Proof.Machine.execArmtd s
  | .cadctlDriveArm => Sys2Proof.Machine.execCadctlDriveArm s
  | .enqueue => Sys2Proof.Machine.execEnqueue s
  | .memwr => Sys2Proof.Machine.execMemwr s
  | .memrd => Sys2Proof.Machine.execMemrd s
  | .groupdef => Sys2Proof.Machine.execGroupdef s
  | .partset => Sys2Proof.Machine.execPartset s
  | .preempt => Sys2Proof.Machine.execPreempt s
  | .mboxsend => Sys2Proof.Machine.execMboxsend s
  | .armingCheck => Sys2Proof.Machine.execArmingCheck s
  | .werrRead => Sys2Proof.Machine.execWerrRead s
  | .cerrstRead => Sys2Proof.Machine.execCerrstRead s
  | .perrstRead => Sys2Proof.Machine.execPerrstRead s
  | .eventQueueRead => Sys2Proof.Machine.execEventQueueRead s
  | .wrrwWrite => Sys2Proof.Machine.execWrrwWrite s
  | .phyctlClr => Sys2Proof.Machine.execPhyctlClr s
  | .forwardedCommandReceipt => Sys2Proof.Machine.execForwardedCommandReceipt s

end Sys2Proof.Machine
end

