-- ==== Sys2Proof/Machine/Issue.lean ====
section
/-! DEFINITION. The issue of a bundle (R57-R65, R140-R142, R369, R376-R378, R392, R393, R397) and what follows it. -/

namespace Sys2Proof.Machine

open Sys2Proof

/-! ### Fetch -/

/-- What the fetch of the next bundle gives, with its address: a bundle, a decode fault (R65, R382), or an uncorrectable word
in a line that it reads (R393). -/
inductive FetchResult where
  | bundle (addr : Nat) (b : Bundle)
  | bad (e : Err)
deriving DecidableEq, Repr

/-- The 8-byte words of a line (R63, R366). -/
def lineWords (a : Nat) : List Nat := (List.range 8).map (8 * (a / 64) + ·)

/-- The fetch of the bundle at an address (R57, R63, R65); fillers lead to the next line. -/
def Core.fetch (k : Core) (flow : Bool) : Nat → Nat → FetchResult
  | 0, _ => .bad (Err.plain 1 11 15 k.lastAddr)
  | n + 1, a =>
    if 0x80000 ≤ a then .bad (Err.plain 1 11 15 k.lastAddr)
    else match k.marked .imem (lineWords a) true with
      | some m => .bad { Err.plain 0x1C 1 15 a with loc := BitVec.ofNat 32 (8 * m.unit) }
      | none => match decodeBundle a flow (k.parcels a) with
        | .filler => k.fetch flow n (a + 64 - a % 64)
        | .fault info slot => .bad (Err.plain 1 info slot a)
        | .bundle b => .bundle a b

/-- The fetch at the program counter; IMEM has 8,192 lines (R190). -/
def Core.fetchNext (k : Core) : FetchResult := k.fetch k.flow 8193 k.pc

/-! ### Waits (R50, R60, R141, R147, R148, R286, R290) -/

/-- Whether a wait of a core is over. -/
def State.waitOver (s : State) (c : Nat) : Wait → Bool
  | .handle h vis => if vis then (s.core c).handles[h].nv == 0 else (s.core c).handles[h].nr == 0
  | .time t => t ≤ s.timeNs s.cyc
  | .window e => let w := (s.core c).win[e]; w.state == 0 && !w.applying && w.doneAt < s.cyc
  | .barrier _ => false

/-- The waits of a core that go on. -/
def State.waitsOn (s : State) (c : Nat) : List Wait :=
  match (s.core c).issued with | some i => i.waits.filter fun w => !s.waitOver c w | none => []

/-- A core waits one cycle more; a rerun does not count it (R397). -/
def State.waitOne (s : State) (c : Nat) : State :=
  (s.modCore c fun k => { k with verify := k.verify.map fun v => { v with waited := v.waited + 1 } }).at c (s.cyc + 1) pIssue .issue


/-- The waits of a core are over: it has read what completes on its handle or its window, with what the origins of those operations had
applied here before (R298, R300). -/
def State.endWaits (s : State) (c : Nat) : State :=
  match (s.core c).issued with
  | none => s
  | some i =>
    (s.seesBy c i.waits).modCore c fun k => { k with issued := some { i with waits := [] } }

/-! ### What the rest of the cycle detects -/

/-- The operations of a core that come after issue in a cycle and can stop it at that cycle (R388, R391, R396, R400). -/
def Ev.ahead : Ev → Bool
  | .chain | .chainLook | .port .. | .copyRow .. | .tte .. => true
  | .run _ i => i == .idleChainCommand || i == .refreshDebtIncrement || i == .maintenanceDebtIncrement ||
      i == .translationInvalidate || i == .invalidateWatchdogExpiry
  | _ => false

/-- Such an operation. The next phase of a core that issues does not begin at the next cycle. -/
def State.aheadStep (s : State) (c : Nat) (ex : Instr → State → Result) (ev : Ev) : State :=
  let s := { s with focus := coreFocus c }
  match ev with
  | .chain => match s.chainStep ex with | .next t => t | _ => s
  | .chainLook => s.chainLook none
  | .port p addr => s.port p addr
  | .copyRow o k => s.copyRow o k
  | .tte e w => s.tteValid c e w
  | .run f i => match ex i { s with focus := f } with | .next t => t | _ => s
  | _ => s

/-- The state after those operations up to a tick. -/
def State.ahead (s : State) (c upto : Nat) (ex : Instr → State → Result) : Nat → State
  | 0 => s
  | n + 1 => match s.agenda.find? fun it => it.core == c && it.tick ≤ upto && it.ev.ahead with
    | none => s
    | some it => ({ s with agenda := s.agenda.erase it, now := max s.now it.tick }.aheadStep c ex it.ev).ahead c upto ex n

/-- Whether an operation of this cycle, after its issue, stops the core at this cycle (R388). -/
def State.stopsHere (s : State) (c : Nat) (ex : Instr → State → Result) : Bool :=
  (s.agenda.any fun it => it.core == c && it.tick ≤ 3 * s.cyc + 2 && it.ev.ahead) &&
    !((s.ahead c (3 * s.cyc + 2) ex (2 ^ 30)).core c).errs.isEmpty

/-! ### Issue -/

/-- The focus of a slot of a bundle. -/
def slotFocus (c addr : Nat) (b : Bundle) (slot : Slot) : Focus :=
  { coreFocus c with slot := slot, addr := addr, lits := b.lits, scope := b.scope, quiesce := b.quiesce }

/-- The bundle is the one in issue (R60). -/
def Core.begin (k : Core) (addr cyc : Nat) (b : Bundle) : Core :=
  { k with pc := addr, issued := some ⟨addr, b.size, cyc, b.stall, b.scope, none, cyc + 1 + b.stall, []⟩ }

/-- The errors that a slot's issue meets, on the state before every slot (R60, R369). -/
def State.slotErrs (s : State) (c addr : Nat) (b : Bundle) (ex : Instr → State → Result) (w : Slot × Instr) : List Err :=
  let s := { s with focus := slotFocus c addr b w.1 }
  let bad := s.readErrs w.2
  if bad = [] then (match ex w.2 s with | .next t => (t.core c).errs | _ => []) else bad

/-- Whether a bundle ends a region (R360, R397): a daymark that takes effect, or an arrival. -/
def State.endsRegion (s : State) (c addr : Nat) (b : Bundle) : Bool :=
  (b.k && !s.inFlight c && !(s.core c).reissues addr s.cyc) || b.words.any fun w =>
    match w.2 with
    | .cadv g _ _ | .cadvEnd g _ _ => { s with focus := slotFocus c addr b .eng }.guard g
    | _ => false

/-- Errors of a bundle that does not issue. -/
def State.raiseAll (s : State) (c : Nat) (es : List Err) : State := es.foldl (fun s e => s.raiseOn c e) s

/-- The drain that an RFD leads to (R376). -/
def State.rfdDrain (s : State) (c : Nat) : State :=
  s.beginDrain c (s.drainFrom c (Err.plain 9 0 15 (s.core c).lastAddr) false true false) false

/-- Whether a taken RFD's delay bundle has issued, so that the drain comes next (R376). -/
def Core.returning (k : Core) : Bool := k.rfd && k.delay.isNone

/-- What follows a bundle (R60, R140, R376): the program counter moves on, past a taken branch's delay bundle to its target, and
the next issue is placed unless the core has arrived. An RFD without a daymark ends the task from its own cycle, unless a TRAP of
its bundle does so (R375); its drain comes after an arrival too (log entry 57). -/
def State.endBundle (s : State) (c : Nat) : State :=
  let k := s.core c
  match k.issued with
  | none => s
  | some i =>
    let next := { k with pc := i.addr + i.size, flow := true }
    if k.rfd ∧ k.delay.isNone ∧ k.shadow.isNone ∧ k.errs = [] then (s.setCore c next).rfdDrain c
    else
      let (k', at_) := match k.delay with
        | some t => if k.rfd then ({ next with delay := none, issued := none }, s.cyc + 1) else ({ k with pc := t, flow := false, delay := none }, i.until_)
        | none => ({ next with delay := i.taken }, i.until_)
      let s := s.setCore c k'
      if k.arrival.isSome && !k'.returning then s else s.at c at_ pIssue .issue

/-- Instructions in execution one after another, each with its focus. -/
def runWords (ex : Instr → State → Result) : List (Focus × Instr) → State → Result
  | [], s => .next s
  | (f, i) :: r, s => match ex i { s with focus := f } with
    | .next t => runWords ex r t
    | stop => stop

/-- What a bundle executes, in order (R60): its daymark, then its words in slot order. -/
def bundleRun (b : Bundle) (c addr : Nat) : List (Focus × Instr) :=
  (if b.k then [(slotFocus c addr b .s0, .daymark)] else []) ++ b.words.map fun w => (slotFocus c addr b w.1, w.2)

/-- The words of the lines that a fetch reads from the program counter to the line of its bundle, those of fillers too (R63). -/
def fetchedWords (pc addr : Nat) : List Nat := (List.range (addr / 64 + 1 - pc / 64)).flatMap fun i => lineWords (64 * (pc / 64 + i))

/-- The reads that a fetch as far as an address corrects in IMEM count (R366, R367). -/
@[inline] def State.fetchFixes (s : State) (c upto : Nat) : State :=
  if (s.core c).marks = [] then s else s.fixes c .imem (fetchedWords (s.core c).pc upto)

/-- The reads that a bundle's fetch corrects in IMEM and its slots in CBANK count (R366, R367). -/
@[inline] def State.bundleFixes (s : State) (c addr : Nat) (b : Bundle) : State :=
  if (s.core c).marks = [] then s
  else (s.fetchFixes c addr).corrected c (b.words.map fun w => ({ s with focus := slotFocus c addr b w.1 } : State).readFixes w.2).sum

/-- What comes before the words of a bundle that issues: the corrected reads are counted (R367), it is the bundle in issue, and its
quiesce bit lets what is pending on the translation table take effect (R262). -/
def State.placeBegin (s : State) (c addr : Nat) (b : Bundle) : State :=
  let s := (s.bundleFixes c addr b).modCore c fun k => { (k.begin addr s.cyc b) with lastAddr := addr }
  if b.quiesce then s.quiesce c (s.cyc + 1) true else s

/-- A bundle issues (R60): its slots run in slot order, and then what follows it is placed. -/
def State.place (s : State) (c addr : Nat) (b : Bundle) (ex : Instr → State → Result) : Result :=
  match runWords ex (bundleRun b c addr) (s.placeBegin c addr b) with
  | .next t => .next (t.endBundle c)
  | stop => stop

/-- The S1 word of the bundle at an address, and its literals, when it decodes. -/
def Core.branchWord (k : Core) (a : Nat) : Option (Instr × List W32) :=
  match k.parcels a with
  | [] => none
  | h0 :: rest =>
    let h := h0.toNat
    let slots := headSlots h
    let n := fld h 10 2
    let ws := pairUp (if fld h 9 1 = 1 then rest.tail else rest)
    match (slots.zip ws).find? (·.1 == .s1) with
    | some (_, w) => match decodeWord .s1 n w with
      | .ok i => some (i, ((ws.drop slots.length).take n).map (BitVec.ofNat 32))
      | .error _ => none
    | none => none

/-- A register branch that goes to a target that R65 refuses. -/
def State.badBranch (s : State) : Instr → Bool
  | .jr g a | .jalr g _ a => s.guard g && badTarget (s.opS a).toNat
  | _ => false

/-- The decode fault of a bundle (R369, R382): a bad register target in it is row 4, which comes before rows 5-10. -/
def State.fetchErr (s : State) (c : Nat) (e : Err) : Err :=
  if e.cls = 1 ∧ 5 ≤ e.info ∧ e.info ≤ 10 then
    match (s.core c).branchWord e.addr with
    | some (i, lits) =>
      if ({ s with focus := { coreFocus c with slot := .s1, addr := e.addr, lits := lits } } : State).badBranch i then
        Err.plain 1 4 1 e.addr
      else e
    | none => e
  else e

/-- What the fetch of a bundle detects: a decode fault, or each uncorrectable word of the line that stopped it (R355, R393). -/
def State.fetchErrs (s : State) (c : Nat) (e : Err) : List Err :=
  if e.cls = 0x1C then ((s.core c).badUnits .imem (lineWords e.addr)).map fun u => { e with loc := BitVec.ofNat 32 (8 * u) }
  else [s.fetchErr c e]

/-- The address up to which a fetch that finds no bundle has read: the line at fault, or all of IMEM (R63, R65). -/
def fetchEnd (e : Err) : Nat := if e.cls = 1 ∧ e.info = 11 then 0x7FFFF else e.addr

/-- The bundle at the program counter (R369, R392): it issues unless it, or one of its slots, meets an error; a TRAP alone does
not keep the other slots from issuing. The bundle that ends a rerun waits for its verification (R397). What a fetch and the slots read
of a bundle that does not issue is corrected and counts as well (R367). -/
def State.issueBundle (s : State) (c : Nat) (ex : Instr → State → Result) : Result :=
  match (s.core c).fetchNext with
  | .bad e => .next ((s.fetchFixes c (fetchEnd e)).raiseAll c (s.fetchErrs c e))
  | .bundle addr b =>
    let t := { s.modCore c fun k => k.begin addr s.cyc b with focus := slotFocus c addr b .s0 }
    let t := if b.k then (match ex .daymark t with | .next t => t | _ => t) else t
    let es := b.words.flatMap (t.slotErrs c addr b ex)
    if es.any (·.cls != 9) then .next ((s.bundleFixes c addr b).raiseAll c es)
    else if (s.core c).verify.any (fun v => v.stage == 1 || v.stage == 2) && s.endsRegion c addr b then
      .next (s.at c s.cyc pIssue (.run (coreFocus c) .rerunVerification))
    else s.place c addr b ex

/-- Issue at a core (R60, R141, R369, R376): nothing while it waits, after its arrival, or at a cycle at which an error is detected. -/
def State.issue (s : State) (c : Nat) (ex : Instr → State → Result) : Result :=
  let k := s.core c
  if k.errs ≠ [] ∨ k.drain.isSome ∨ k.life ≠ .task then .next s
  else if k.returning then .next (if s.stopsHere c ex then s else s.rfdDrain c)
  else if k.arrival.isSome then .next s
  else if s.waitsOn c ≠ [] then .next (s.waitOne c)
  else if s.stopsHere c ex then .next s
  else (s.endWaits c).issueBundle c ex

end Sys2Proof.Machine
end

