-- ==== Sys2Proof/Machine/Events.lean ====
section
/-! DEFINITION. The parts of operations that fall at later cycles: what each pending operation other than an instruction
does. -/

namespace Sys2Proof.Machine

open Sys2Proof

/-- A half of the weight latch switches (R214, R225): its bytes are written anew. -/
def Core.setHalf (k : Core) (h : Bool) (x : Half) : Core :=
  { k with
    mx := if h then { k.mx with half1 := x } else { k.mx with half0 := x }
    marks := if k.marks = [] then [] else k.marks.filter fun m => !(m.store == .latch && m.unit / 12288 == h.toNat) }

/-- Bytes land in ABUF (R212, R223). -/
def Core.landAbuf (k : Core) (bs : List (Nat × Byte)) : Core :=
  { k with
    mx := { k.mx with abuf := k.mx.abuf.storeAll bs }
    marks := if k.marks = [] then [] else k.marks.filter fun m => !(m.store == .abuf && bs.any fun b => b.1 == m.unit) }

/-- A pending operation of core c; the core is in focus. -/
def State.event (s : State) (c : Nat) (ev : Ev) (ex : Instr → State → Result) : Result :=
  match ev with
  | .run f i => ex i { s with focus := f }
  | .issue => s.issue c ex
  | .endCycle => .next (s.resolve c)
  | .lateEnd stopped => .next (s.resolveNow c stopped)
  | .land slot l => .next (s.land c slot l)
  | .load f r => .next ({ s with focus := f }.readPoint r)
  | .seed x => .next (s.modCore c fun k => { k with regs := { k.regs with rngs := x } }.unmark .rngs 0)
  | .flogClear => .next (s.modCore c fun k => { k with regs := { k.regs with flash := 0 } })
  | .setHandle h tag dnr dnv code => .next (s.modHandle c h fun x => x.event tag dnr dnv code)
  | .clearErr h e => .next (s.modHandle c h fun x => if x.err = e then { x with err := 0 } else x)
  | .countHandle h => .next (s.modHandle c h fun x => x.count)
  | .seqStep => s.seqStep ex
  | .port p addr => .next (s.port p addr)
  | .array o m addr => .next (s.array o m addr)
  | .abuf bs => .next (s.modCore c fun k => k.landAbuf bs)
  | .latch h x => .next (s.modCore c fun k => k.setHalf h x)
  | .acc src ups => .next (s.landAcc c src ups)
  | .copyRow o k => .next (s.copyRow o k)
  | .copySpm bs => .next (s.landBytes c true true rCopy [] bs)
  | .copyAcc els => .next (s.landCopyAcc c els)
  | .chain => s.chainStep ex
  | .chainSample => .next (s.chainSample (s.nextTick c))
  | .chainLook => .next (s.chainLook (s.nextTick c))
  | .tte e w => .next (s.tteValid c e w)
  | .source id k => .next (s.source c id k)
  | .wpost e => .next (s.wpost c e)
  | .apply e => .next (s.applied c e)
  | .wwaited e => .next (s.wwaited c e)
  | .badEntry entry => .next (s.badEntry c entry)
  | .switchPages => .next { s with pages := s.pages.map fun (r : Repl) => r.switch }
  | .mcArrival id group => .next (s.deliverCopy id group)
  | .barWrite a bs => .next (s.barWrite a bs)
  | .train => .next (s.trainStep c)
  | .getLand id bs => .next (s.getLand c id bs)
  | .launchRead f a d => .next ({ s with focus := f }.launchRead c a d)
  | .collRead id => .next (s.collRead id)
  | .decide => .next s.tryDecide
  | .firmware => .next s.takeCommand

/-- The oldest pending operation comes about (log entry 2): time moves to its tick, and its core is in focus. -/
def State.take1 (s : State) (it : Item) (rest : List Item) : State :=
  { s with now := it.tick, agenda := rest, focus := coreFocus it.core }

/-! ### The fetch of one word for the host's test -/

/-- A chain word at the front of the agenda (log entry 3): core 0 runs a chain whose next command is w, at the current tick. -/
def State.withChainWord (s : State) (w : Nat) : State :=
  let s := s.modCore 0 fun k => { k with ch := { k.ch with
    mem := Sp.set 0 k.ch.mem 0 (BitVec.ofNat 32 w)
    run := some ⟨0, s.now, s.now / 3, 0, 0, none, false, none, 0, []⟩ } }
  { s with agenda := ⟨s.now, pChain, 0, .chain⟩ :: s.agenda }

/-- A micro-step at the front of the agenda: core 0 runs a routine whose next step is w. -/
def State.withMicroWord (s : State) (w : Nat) : State :=
  let s := s.modCore 0 fun k => { k with mx := { k.mx with
    rstore := Sp.set 0 k.mx.rstore 0 (BitVec.ofNat 64 w)
    seq := some ⟨0, s.cyc, s.cyc, 0, 0, 0, 0, 0, 0, 0, 0, false⟩ } }
  { s with agenda := ⟨s.now, pEngine, 0, .seqStep⟩ :: s.agenda }

/-- A bundle at the front of the agenda: core 0 holds a task that issues next, at IMEM offset 0, the bundle whose bytes are
w, the first at the lowest address. -/
def State.withBundle (s : State) (nbits w : Nat) : State :=
  let s := s.modCore 0 fun k => { k with
    imem := k.imem.storeAll (leCells 0 (max 52 (nbits / 8)) w)
    life := .task, pc := 0, flow := false, delay := none, issued := none, errs := [], drain := none, arrival := none, rfd := false }
  { s with agenda := ⟨s.now, pIssue, 0, .issue⟩ :: s.agenda }

end Sys2Proof.Machine
end

