-- ==== Sys2Proof/Machine/Step.lean ====
section
/-! DEFINITION. One step: the oldest pending operation comes about (log entry 2). -/

namespace Sys2Proof.Machine

open Sys2Proof

/-- The first pending operation of the agenda comes about. -/
def step (s : State) : Host.Outcome State Fault Refusal :=
  match s.agenda with
  | [] => .fault .agendaEmpty
  | it :: rest => (s.take1 it rest).event it.core it.ev exec

/-- The state in which the next step fetches the instruction w (log entry 3): 32 bits are a chain command, 64 bits a micro-step,
and any other length a bundle. -/
def State.withFetchWord (s : State) (nbits w : Nat) : State :=
  if nbits = 32 then s.withChainWord w else if nbits = 64 then s.withMicroWord w else s.withBundle nbits w

end Sys2Proof.Machine
end

