-- ==== Sys2Proof/Safety.lean ====
section
/-! DEFINITION. The terms in which the claims are stated: well-kept memories, what a slot instruction answers under its guard
and its s30 check, the parts of the state that an instruction leaves alone, and the rational value of a float. -/

namespace Sys2Proof

/-- The rational number that a finite floating-point value stands for. -/
def FVal.val : FVal → Option Rat
  | .fin neg m e => some ((if neg then -1 else 1) * (m : Rat) * (2 : Rat) ^ e)
  | _ => none

/-- Whether an instruction draws random words at issue (R109): VRAND, and conversions and sums whose control word may ask. -/
def Instr.mayDraw : Instr → Bool
  | .vrand .. | .vcvtf .. | .vcvti .. | .vcvtif .. | .vwiden .. | .vnarrow .. | .vredf .. | .fcvtI64F32 .. | .fcvtF32I64 ..
  | .fcvtF16F32 .. | .fcvtBf16F32 .. | .fcvtF32F16 .. | .fcvtF32Bf16 .. => true
  | _ => false

end Sys2Proof

namespace Sys2Proof.Machine

open Sys2Proof

/-! ### Memories -/

/-- The memories of a core in canonical form. -/
def Core.memWf (k : Core) : Prop :=
  Memory.wf k.spm ∧ Memory.wf k.dmem ∧ Memory.wf k.imem ∧ Memory.wf k.mx.abuf ∧ Memory.wf k.ch.hbm

/-- The chunk store and the command memory in canonical form, and those of every core. -/
def State.memWf (s : State) : Prop := Memory.wf s.chunk ∧ Memory.wf s.cmd ∧ ∀ c, (s.core c).memWf

/-! ### What a slot answers -/

/-- An instruction that does f under a true guard and nothing under a false one (R61). -/
def Slotted (i : Instr) (g : Guard) (f : State → State) : Prop :=
  ∀ s : State, (s.guard g = true → exec i s = .next (f s)) ∧ (s.guard g = false → exec i s = .next s)

/-- An instruction whose effect under a true guard satisfies P, and that does nothing under a false one (R61). -/
def Does (i : Instr) (g : Guard) (P : State → State → Prop) : Prop :=
  ∃ f : State → State, Slotted i g f ∧ ∀ s, s.guard g = true → P s (f s)

/-- The sub-code with which R384 turns a write of v to register d away, when the form has latency lat. -/
def State.refusal (s : State) (d : Fin 32) (lat : Nat) (v : W64) : Option Nat :=
  if d ≠ 30 then none
  else if lat ≠ 1 ∨ (s.focus.slot ≠ .s0 ∧ s.focus.slot ≠ .s1) then some 2
  else if s.cur.slim.toNat ≤ v.toNat ∧ v.toNat ≤ 0x40000 then none
  else some 1

/-- A scalar form that writes d with latency lat (R90): a value v with P under a true guard; a write to s30 that R384 turns
away is class 0x03. -/
def Yields (i : Instr) (g : Guard) (d : Fin 32) (lat : Nat) (P : State → W64 → Prop) : Prop :=
  ∃ v : State → W64, (∀ s, P s (v s)) ∧ ∀ s : State, (s.guard g = false → exec i s = .next s) ∧
    (s.guard g = true → exec i s = .next (match s.refusal d lat (v s) with
      | none => s.result lat (.s d (v s))
      | some n => s.trap 3 n))

/-- An FP32 scalar form (R123, R135): its 32 bits are zero-extended, and its classes reach FLASHLOG with the result. -/
def YieldsF (i : Instr) (g : Guard) (d : Fin 32) (lat : Nat) (v : State → Nat × Classes) : Prop :=
  ∀ s : State, (s.guard g = false → exec i s = .next s) ∧
    (s.guard g = true → exec i s = .next (match s.refusal d lat (BitVec.ofNat 64 (v s).1) with
      | none => (s.result lat (.s d (BitVec.ofNat 64 (v s).1))).flags lat (v s).2
      | some n => s.trap 3 n))

/-- A form that writes the predicate d with latency 1. -/
def YieldsQ (i : Instr) (g : Guard) (d : Fin 8) (v : State → Bool) : Prop := Slotted i g fun s => s.result 1 (.q d (v s))

/-- A vector form whose element j of width w is v s j, written where the mask k is active (R154), with classes cl. -/
def YieldsV (i : Instr) (g : Guard) (d : Fin 32) (lat w : Nat) (k : State → KReg) (v : State → Nat → Nat)
    (cl : State → Classes) : Prop :=
  ∃ x : State → VReg, (∀ s j, j < 4096 / w → elem w (x s) j = v s j % 2 ^ w) ∧
    Slotted i g fun s => (s.putV d lat (activeBits (k s) w) (x s)).flags lat (cl s)

/-- A form that writes the lanes of the mask d for elements of width w where m is active (R82, R162). -/
def YieldsK (i : Instr) (g : Guard) (d : Fin 8) (w : Nat) (m : State → Nat → Bool) (v : State → Nat → Bool) : Prop :=
  ∃ y x : State → KReg, Slotted i g (fun s => s.putK d (y s) (x s)) ∧ ∀ s b, b < 1024 →
    (y s).getLsbD b = m s (b / (w / 4)) ∧ (m s (b / (w / 4)) = true → (x s).getLsbD b = v s (b / (w / 4)))

/-- A command at its issue (R231, R320, R385): class 0x07, info 1, for a start that is not after this cycle, info 2 for one before a
queued start; class 0x08, info 1, for a full queue; else it is admitted. -/
def State.queued (s : State) (q : QueueId) (i : Instr) (o : BitVec 12) (a b : W64) (tag : BitVec 16) : State :=
  let start := if o = 0xFFF then s.cyc + 1 else s.startOf s.focus.core.val + o.toNat + s.cur.shift
  if start ≤ s.cyc then s.trap 7 1
  else if ∃ x ∈ s.cur.queues[q.idx], start < x.start then s.trap 7 2
  else if q.depth ≤ (s.cur.queues[q.idx]).length then s.trap 8 1
  else s.joinQueue q i o a b tag

/-- The cores that a remote command names (R264, R281, R284): the members of a group but for the origin, or one core. -/
def State.targetsOf (s : State) (cmd : Cmd) : List Nat :=
  let dev := cmd.a.toNat / 2 ^ 35 % 2 ^ 10
  match cmd.instr with
  | .putMc .. => s.mcTargets s.focus.core.val (cmd.a.toNat / 2 ^ 27 % 2 ^ 16)
  | _ => [256 * (if s.isSelf dev then s.device.toNat else dev) + cmd.a.toNat / 2 ^ 27 % 2 ^ 8]

/-- The operation that a remote command starts at this cycle (R264, R279-R284); the cores of `down` cannot be reached. -/
def State.opOf (s : State) (kd : OpKind) (cmd : Cmd) (down : List Nat) : RemoteOp :=
  let c := s.focus.core.val
  let a := cmd.a.toNat
  let b := cmd.b.toNat
  { id := s.nextId, kind := kd, dev := s.device.toNat, core := c, part := s.cur.part.val, rank := 256 * s.device.toNat + c,
    tag := cmd.tag, handle := some ⟨b / 2 ^ 42 % 2 ^ 4, Nat.mod_lt _ (by decide)⟩, target := s.targetsOf cmd,
    entry := a / 2 ^ 22 % 2 ^ 5, off := a % 2 ^ 22, loc := b % 2 ^ 22, n := if kd.command then 0 else b / 2 ^ 22 % 2 ^ 20,
    op := b / 2 ^ 46 % 2 ^ 2, type := if kd = .racc then b / 2 ^ 48 % 2 ^ 2 else 0, excl := decide (b / 2 ^ 46 % 2 = 1),
    scope := cmd.scope, start := s.cyc, phase := (s.countOf c).toNat, data := [], left := (s.targetsOf cmd).length,
    nrDone := false, nvDone := false, late := false, got := [], heard := down, task := s.cur.task, saw := [] }

/-- An access of n bytes in the memory of the slot, at a multiple of al: t, or class 0x04 (R66, R190, R196). -/
def State.checked (s : State) (ea n al : Nat) (t : State) : State :=
  if ea % al = 0 ∧ ea + n ≤ (if s.focus.slot = .m1 then 0x40000 else 0x400000) then t else s.trap 4 0

/-- A whole-register access in the memory of the slot, at a multiple of 64, that touches the bytes at the offsets on: t, or class 0x04
(R196, R200). -/
def State.touches (s : State) (ea : Nat) (on : Nat → Bool) (t : State) : State :=
  let size := if s.focus.slot = .m1 then 0x40000 else 0x400000
  if ea % 64 = 0 ∧ ea < size ∧ (List.range 512).all (fun j => !on j || decide (ea + j < size)) = true then t else s.trap 4 0

/-- A landing that comes about: P relates the core before and after; nothing else of the state changes but time and agenda. -/
def Lands (l : Land) (P : Core → Core → Prop) : Prop :=
  ∀ (s : State) (it : Item) (rest : List Item) (slot : Nat), s.agenda = it :: rest → it.ev = .land slot l →
    ∃ t, step s = .next t ∧ { t with cores := s.cores } = { s with now := it.tick, agenda := rest, focus := coreFocus it.core } ∧
      (∀ c, c ≠ it.core → t.core c = s.core c) ∧ P (s.core it.core) (t.core it.core)

/-- A rollback from the end of a drain (R361, R376, R379): the registers are those of the daymark's shadow, and the daymark bundle
issues is to issue again 24 cycles later, when the shift grows by the cycles since its previous issue. -/
def State.rolledBack (s t : State) (addr : Nat) (regs : Regs) : Prop :=
  t.cur.regs = regs ∧ t.cur.pc = addr ∧ t.cur.flow = true ∧ t.cur.drain = none ∧ t.cur.rfd = false ∧
    t.cur.dayNext = some (s.cyc + 24) ∧ t.cur.dayLast = s.cur.dayLast ∧ t.cur.shift = s.cur.shift ∧
    t.cur.replayed = s.cur.replay.length ∧ t.cur.opsLeft = 0 ∧ t.cur.spm = s.cur.spm ∧ t.cur.dmem = s.cur.dmem ∧
    (⟨3 * (s.cyc + 24), pIssue, s.focus.core.val, .issue⟩ : Item) ∈ t.agenda

/-! ### What an instruction leaves alone -/

/-- A core but for what the issue of a slot may change: the errors of the cycle, the bundle in issue, a pending return from
the handler, what a fence orders, in SPM and in what an open window serves, and the random generator. -/
def Core.kept (k : Core) : Core :=
  { k with errs := [], issued := none, rfd := false, loose := [], win := k.win.map fun w => { w with opened := [] }
           regs := { k.regs with rngs := 0 } }

/-- Two states agree but for the agenda and what Core.kept leaves out. -/
def State.sameBut (s t : State) : Prop :=
  { t with cores := s.cores, agenda := s.agenda } = s ∧ ∀ c, (t.core c).kept = (s.core c).kept

end Sys2Proof.Machine
end

