-- ==== Sys2Proof/Certificates/Slice0/Obligations.lean ====
section
/-! DEFINITION. The statements for the provers. -/

open Sys2Proof Sys2Proof.Machine

/-! ### Encodings -/

/-- Every slot instruction that the operand restrictions and the slot allow is read back from its word (R57, R65-R76): with L
literals, in every slot that may hold it, at every value of its operands. -/
def Claims.SlotWordsReadBack : Prop :=
  ∀ (i : Instr) (sl : Slot) (L : Nat), i.wellFormed L = true → L ≤ 3 → i.permitted sl = true → decodeWord sl L (encode i) = .ok i

/-- Every chain command and every micro-step is read back from its word (R216, R221-R228, R244, R245). -/
def Claims.EngineWordsReadBack : Prop :=
  ∀ i : Instr, (i.space = .chain → encode i < 2 ^ 32 ∧ decodeChain (encode i) = some i) ∧
    (i.space = .micro → encode i < 2 ^ 64 ∧ decodeMicro (encode i) = some i)

/-- No two words of a slot stand for one instruction (R65: a field that an encoding does not name must be zero): a word that
decodes is the encoding of what it decodes to, which the operand restrictions and the slot allow. -/
def Obligations.SlotWordsAreUnique : Prop :=
  ∀ (i : Instr) (sl : Slot) (L w : Nat), w < 2 ^ 32 → L ≤ 3 → decodeWord sl L w = .ok i →
    encode i = w ∧ i.wellFormed L = true ∧ i.permitted sl = true

/-- Words that the chapters write out decode to the instructions that they name: one for each family. -/
def Obligations.WrittenWordsDecode : Prop :=
  decodeWord .s0 0 0x180428C2 = .ok (.cmplt ⟨0, false⟩ 2 (.reg 5) (.reg 6)) ∧
  decodeWord .s1 0 0xAC3FFFF4 = .ok (.loop ⟨0, false⟩ 0x3FFFF4) ∧
  decodeWord .v0 1 0x50020400 = .ok (.vfmad ⟨0, false⟩ 1 (.reg 0) (.lit 0) 0 .f32) ∧
  decodeWord .v2 1 0xF0161C04 = .ok (.vscan ⟨0, false⟩ 11 (.reg 3) (.lit 0) 1 0) ∧
  decodeWord .m0 0 0x10002C60 = .ok (.vst ⟨0, false⟩ 0 (.reg 5) .zero 0 .w32) ∧
  decodeWord .eng 0 0xE03FFCA6 = .ok (.cadv ⟨0, false⟩ 5 6) ∧
  decodeMicro 0x320006040900000F = some (.mma 4 0 3 16 2 false true 15) ∧
  decodeChain 0x10008000 = some (.act 0 16 0) ∧
  decodeTableWord 32 0x10008000 = some (.act 0 16 0)

/-! ### A step runs what is pending -/

/-- A posted instruction runs: time is its tick, the other operations stay, and it acts where it was posted. -/
def Claims.StepRunsPostedInstruction : Prop :=
  ∀ (s : State) (it : Item) (rest : List Item) (f : Focus) (i : Instr), s.agenda = it :: rest → it.ev = .run f i →
    step s = exec i { s with now := it.tick, agenda := rest, focus := f }

/-- The chain sequencer of a core runs the command that stands at its index (R241, R244), in the chain memory or in the training
chain (R442). -/
def Claims.StepRunsChainCommand : Prop :=
  ∀ (s : State) (it : Item) (rest : List Item) (r : ChainRun) (i : Instr), s.agenda = it :: rest → it.core < 256 → it.ev = .chain →
    let h := (s.core it.core).ch
    h.run = some r → r.idx < 16384 → (s.core it.core).marks = [] →
    (r.firmware = false → h.word r.idx = Sp.get 0 h.mem r.idx) ∧
    (decodeChain (h.word r.idx).toNat = some i →
      step s = exec i { s with now := it.tick, agenda := rest, focus := coreFocus it.core })

/-- The sequencer of the matrix engine runs the micro-step at its address once the unit that it uses is free, and waits for the
unit otherwise (R217). -/
def Claims.StepRunsMicroStep : Prop :=
  ∀ (s : State) (it : Item) (rest : List Item) (q : Seq) (i : Instr), s.agenda = it :: rest → it.core < 256 → it.ev = .seqStep →
    (s.core it.core).mx.seq = some q → q.step < 8192 → (s.core it.core).marks = [] →
    let w := (Sp.get 0 (s.core it.core).mx.rstore q.step).toNat
    let t := { s with now := it.tick, agenda := rest, focus := { coreFocus it.core with addr := q.addr, slot := .eng } }
    (unitFree q w ≤ it.tick / 3 → decodeMicro w = some i → step s = exec i t) ∧
    (it.tick / 3 < unitFree q w → step s = .next (t.at it.core (unitFree q w) pEngine .seqStep))

/-- What the fetch at an address gives (R57, R63, R65, R393): the bundle or the decoding fault of its parcels, the next line after a
filler, class 0x01, info 11, beyond IMEM, and class 0x1C for a line with an uncorrectable word, wherever it stands in the line (log entry
56). -/
def Claims.FetchReadsLines : Prop :=
  ∀ (k : Core) (flow : Bool) (n a : Nat),
    (0x80000 ≤ a → k.fetch flow (n + 1) a = .bad (Err.plain 1 11 15 k.lastAddr)) ∧
    (∀ m, a < 0x80000 → k.marked .imem (lineWords a) true = some m →
      k.fetch flow (n + 1) a = .bad { Err.plain 0x1C 1 15 a with loc := BitVec.ofNat 32 (8 * m.unit) }) ∧
    (a < 0x80000 → k.marked .imem (lineWords a) true = none →
      (∀ b, decodeBundle a flow (k.parcels a) = .bundle b → k.fetch flow (n + 1) a = .bundle a b) ∧
      (∀ info slot, decodeBundle a flow (k.parcels a) = .fault info slot → k.fetch flow (n + 1) a = .bad (Err.plain 1 info slot a)) ∧
      (decodeBundle a flow (k.parcels a) = .filler → k.fetch flow (n + 1) a = k.fetch flow n (a + 64 - a % 64))) ∧
    k.fetchNext = k.fetch k.flow 8193 k.pc

/-- A core that holds a task and waits for nothing issues the bundle that the fetch at its program counter gives (R57, R60): its
daymark and then its slot words run in slot order at this cycle, each with the bundle's literals and scope. No error but that of a
TRAP is met by a slot on the state before the slots, none is met by another unit of the core at this cycle, and the bundle does not
end a rerun under verification. -/
def Claims.StepIssuesBundle : Prop :=
  ∀ (s : State) (it : Item) (rest : List Item) (addr : Nat) (b : Bundle), s.agenda = it :: rest → it.core < 256 → it.ev = .issue →
    let c := it.core
    let s0 := { s with now := it.tick, agenda := rest, focus := coreFocus c }
    let k := s0.core c
    let s1 := s0.endWaits c
    let begun := { s1.modCore c fun k => k.begin addr s1.cyc b with focus := slotFocus c addr b .s0 }
    k.life = .task → k.errs = [] → k.drain = none → k.arrival = none → (k.rfd = false ∨ k.delay.isSome = true) →
    s0.waitsOn c = [] → s0.stopsHere c exec = false → (s1.core c).fetchNext = .bundle addr b →
    ((s1.core c).verify.any (fun v => v.stage == 1 || v.stage == 2) = false ∨ s1.endsRegion c addr b = false) →
    (∀ t, (if b.k then exec .daymark begun = .next t else t = begun) →
      (∀ w ∈ b.words, ∀ e ∈ t.slotErrs c addr b exec w, e.cls = 9) →
      step s = match runWords exec (bundleRun b c addr) (s1.placeBegin c addr b) with
        | .next u => .next (u.endBundle c)
        | stop => stop) ∧
    bundleRun b c addr = (if b.k then [(slotFocus c addr b .s0, .daymark)] else []) ++ b.words.map (fun w => (slotFocus c addr b w.1, w.2)) ∧
    (k.marks = [] → b.quiesce = false → s1.placeBegin c addr b = s1.modCore c fun k => { k with
      pc := addr, lastAddr := addr, issued := some ⟨addr, b.size, s1.cyc, b.stall, b.scope, none, s1.cyc + 1 + b.stall, []⟩ })

/-- What follows a bundle (R60, R140, R376): the next one is that behind it, or the target of the branch in whose delay it stands, and
it issues when the waits and stalls allow, unless the core has arrived. A taken RFD without a daymark drains from its own cycle, and the
drain of one with a daymark follows its delay bundle; that it does so after an arrival too is the model's reading (log entry 57). -/
def Claims.BundlesFollow : Prop :=
  ∀ (s : State) (c : Nat) (i : Issued), c < 256 → (s.core c).issued = some i →
    let k := s.core c
    let goes := fun (k' : Core) (at_ : Nat) => s.endBundle c =
      if k.arrival.isSome then s.setCore c k' else (s.setCore c k').at c at_ pIssue .issue
    let next := { k with pc := i.addr + i.size, flow := true }
    (k.delay = none → k.rfd = false → goes { next with delay := i.taken } i.until_) ∧
    (∀ t, k.delay = none → k.rfd = true → (k.shadow.isSome = true ∨ k.errs ≠ []) → i.taken = some t → goes { next with delay := some t } i.until_) ∧
    (k.delay = none → k.rfd = true → k.shadow = none → k.errs = [] → ∃ d, ((s.endBundle c).core c).drain = some d ∧ d.rfd = true ∧ d.f = s.cyc) ∧
    (∀ t, k.delay = some t → k.rfd = false → goes { k with pc := t, flow := false, delay := none } i.until_) ∧
    (∀ t, k.delay = some t → k.rfd = true →
      s.endBundle c = (s.setCore c { next with delay := none, issued := none }).at c (s.cyc + 1) pIssue .issue)

/-- A bundle that meets a fault of its fetch issues nothing: the fault is detected at this cycle, with the sub-code of R382; one of
uncorrectable words is detected of each of them (R356, R393). That a bundle whose register branch goes to a target that R65 refuses has
sub-code 4 in place of 5 to 10 is the model's reading (log entry 60), and so is that an uncorrectable word anywhere in a line is met (log
entry 56). -/
def Claims.DecodeFaultStopsIssue : Prop :=
  ∀ (s : State) (it : Item) (rest : List Item) (e : Err), s.agenda = it :: rest → it.core < 256 → it.ev = .issue →
    let c := it.core
    let s0 := { s with now := it.tick, agenda := rest, focus := coreFocus c }
    let k := s0.core c
    let s1 := s0.endWaits c
    k.life = .task → k.errs = [] → k.drain = none → k.arrival = none → (k.rfd = false ∨ k.delay.isSome = true) →
    s0.waitsOn c = [] → s0.stopsHere c exec = false → (s1.core c).fetchNext = .bad e →
    ∃ t, step s = .next t ∧ (e.cls ≠ 0x1C → (t.core c).errs = [s1.fetchErr c e]) ∧
      (e.cls = 0x1C → (t.core c).errs ≠ [] ∧ ∀ f ∈ (t.core c).errs, f = { e with loc := f.loc } ∧
        ∃ m ∈ k.marks, m.store = .imem ∧ m.hard = true ∧ f.loc = BitVec.ofNat 32 (8 * m.unit)) ∧
      (t.core c).regs = k.regs ∧
      (t.core c).spm = k.spm ∧ (t.core c).dmem = k.dmem ∧ (t.core c).queues = k.queues ∧ (t.core c).pc = k.pc ∧
      ((e.cls ≠ 1 ∨ e.info < 5 ∨ 10 < e.info) → s1.fetchErr c e = e) ∧
      (∀ i lits, e.cls = 1 → 5 ≤ e.info → e.info ≤ 10 → (s1.core c).branchWord e.addr = some (i, lits) →
        s1.fetchErr c e = if ({ s1 with focus := { coreFocus c with slot := .s1, addr := e.addr, lits := lits } } : State).badBranch i
          then Err.plain 1 4 1 e.addr else e)

/-! ### Guards and operands -/

/-- A slot whose guard reads false at issue has no effect of any kind (R61). -/
def Obligations.FalseGuardDoesNothing : Prop :=
  ∀ (i : Instr) (s : State), (i.space = .scalar ∨ i.space = .vector ∨ i.space = .special ∨ i.space = .memory ∨ i.space = .engine) →
    s.guard (guardOf i) = false → exec i s = .next s

/-- The values that the scalar operand forms supply (R74, R75, R80, R86, R123, R133, R173): the hard-wired registers, sign-extended
literals and CBANK entries, and the constants of the selectors 35 and 36. -/
def Obligations.OperandValues : Prop :=
  ∀ s : State, s.opS (.reg 0) = 0 ∧ (∀ r : Fin 32, r ≠ 0 → s.opS (.reg r) = s.cur.regs.s[r]) ∧ s.opS .zero = 0 ∧ s.opS .one = 1 ∧
    (∀ n x, s.focus.lits[n.val]? = some x → (s.opS (.lit n)).toInt = x.toInt ∧ s.opF (.lit n) = x.toNat) ∧
    (∀ n : Fin 24, (s.opS (.cb n)).toInt = (s.cur.cbank[(s.cur.regs.cbase.toNat + n.val) % 256]'(Nat.mod_lt _ (by decide))).toInt) ∧
    (∀ r, s.opF (.reg r) = (s.opS (.reg r)).toNat % 2 ^ 32) ∧ s.opF .zero = 0 ∧ s.opF .one = 0x3F800000 ∧
    s.opQ (.q 0) = true ∧ (∀ n : Fin 8, n ≠ 0 → s.opQ (.q n) = s.cur.regs.q[n]) ∧ s.opQ .zero = false ∧ s.opQ .one = true ∧
    s.opK (.k 0) = BitVec.allOnes 1024 ∧ (∀ n : Fin 8, n ≠ 0 → s.opK (.k n) = s.cur.regs.k[n]) ∧ s.opK .zero = 0 ∧
    s.opK .one = BitVec.allOnes 1024

/-! ### Scalar integers -/

/-- The arithmetic and logic forms (R125): each result wraps modulo 2^64, with latency 1. -/
def Claims.ScalarArithmetic : Prop :=
  ∀ (g : Guard) (d : Fin 32) (a b : Sel),
    let is := fun (i : Instr) (f : W64 → W64 → W64) => Yields i g d 1 fun s v => v = f (s.opS a) (s.opS b)
    is (.add g d a b) (fun x y => BitVec.ofNat 64 (x.toNat + y.toNat)) ∧
    is (.sub g d a b) (fun x y => BitVec.ofInt 64 (x.toInt - y.toInt)) ∧
    is (.and g d a b) (· &&& ·) ∧ is (.or g d a b) (· ||| ·) ∧ is (.xor g d a b) (· ^^^ ·) ∧
    is (.andn g d a b) (fun x y => x &&& ~~~y) ∧
    is (.min g d a b) (fun x y => BitVec.ofInt 64 (min x.toInt y.toInt)) ∧
    is (.max g d a b) (fun x y => BitVec.ofInt 64 (max x.toInt y.toInt)) ∧
    is (.minl g d a b) (fun x y => BitVec.ofNat 64 (min x.toNat y.toNat)) ∧
    is (.maxl g d a b) (fun x y => BitVec.ofNat 64 (max x.toNat y.toNat)) ∧
    (∀ x ∈ ([(.add g d a b, 0), (.sub g d a b, 1), (.and g d a b, 2), (.or g d a b, 3), (.xor g d a b, 4), (.andn g d a b, 5), 
      (.min g d a b, 6), (.max g d a b, 7), (.minl g d a b, 8), (.maxl g d a b, 9)] : List (Instr × Nat)), encode x.1 / 2 ^ 26 = 1 ∧ encode x.1 % 2 ^ 5 = x.2)

/-- The shifts (R126): by bits 5..0 of B, bits 63..6 ignored. -/
def Claims.ScalarShifts : Prop :=
  ∀ (g : Guard) (d : Fin 32) (a b : Sel),
    let is := fun (i : Instr) (f : W64 → Nat → W64) => Yields i g d 1 fun s v => v = f (s.opS a) ((s.opS b).toNat % 64)
    is (.shl g d a b) (fun x n => BitVec.ofNat 64 (x.toNat * 2 ^ n)) ∧
    is (.shr g d a b) (fun x n => BitVec.ofNat 64 (x.toNat / 2 ^ n)) ∧
    is (.sra g d a b) (fun x n => BitVec.ofInt 64 (x.toInt / 2 ^ n)) ∧
    is (.rol g d a b) (fun x n => BitVec.ofNat 64 (x.toNat * 2 ^ n + x.toNat / 2 ^ (64 - n))) ∧
    (∀ x ∈ ([(.shl g d a b, 0), (.shr g d a b, 1), (.sra g d a b, 2), (.rol g d a b, 3)] : List (Instr × Nat)), encode x.1 / 2 ^ 26 = 2 ∧ encode x.1 % 2 ^ 5 = x.2)

/-- The products (R127): the low 64 bits, and the high 64 bits of the exact signed and unsigned products. -/
def Obligations.ScalarProducts : Prop :=
  ∀ (g : Guard) (d : Fin 32) (a b : Sel),
    (Yields (.mul g d a b) g d 1 fun s v => v = BitVec.ofInt 64 ((s.opS a).toInt * (s.opS b).toInt)) ∧
    (Yields (.mulh g d a b) g d 1 fun s v =>
      v.toInt * 2 ^ 64 + (((s.opS a * s.opS b).toNat : Nat) : Int) = (s.opS a).toInt * (s.opS b).toInt) ∧
    (Yields (.mulhl g d a b) g d 1 fun s v =>
      v.toNat * 2 ^ 64 + (s.opS a * s.opS b).toNat = (s.opS a).toNat * (s.opS b).toNat) ∧
    (∀ x ∈ ([(.mul g d a b, 0), (.mulh g d a b, 1), (.mulhl g d a b, 2)] : List (Instr × Nat)), encode x.1 / 2 ^ 26 = 3 ∧ encode x.1 % 2 ^ 5 = x.2)

/-- The bit-field and count forms (R128), and ADDSH (R129). That an INS of a field of no bits still writes its destination, with the old value
and the checks of s30, is the model's choice (log entry 103). -/
def Claims.ScalarBitFields : Prop :=
  ∀ (g : Guard) (d : Fin 32) (a b : Sel),
    (Yields (.extr g d a b) g d 1 fun s v =>
      let p := (s.opS b).toNat % 64
      let n := min ((s.opS b).toNat / 64 % 128) (64 - p)
      ∀ j, j < 64 → v.getLsbD j = (decide (j < n) && (s.opS a).getLsbD (p + j))) ∧
    (Yields (.ins g d a b) g d 1 fun s v =>
      let p := (s.opS b).toNat % 64
      let n := min ((s.opS b).toNat / 64 % 128) (64 - p)
      ∀ j, j < 64 → v.getLsbD j = if p ≤ j ∧ j < p + n then (s.opS a).getLsbD (j - p) else (s.cur.readS d).getLsbD j) ∧
    (Yields (.clz g d a) g d 1 fun s v => v.toNat ≤ 64 ∧ (∀ j, 64 - v.toNat ≤ j → (s.opS a).getLsbD j = false) ∧
      (v.toNat < 64 → (s.opS a).getLsbD (63 - v.toNat) = true)) ∧
    (Yields (.ctz g d a) g d 1 fun s v => v.toNat ≤ 64 ∧ (∀ j, j < v.toNat → (s.opS a).getLsbD j = false) ∧
      (v.toNat < 64 → (s.opS a).getLsbD v.toNat = true)) ∧
    (Yields (.popc g d a) g d 1 fun s v => v.toNat = (List.range 64).countP fun j => (s.opS a).getLsbD j) ∧
    (Yields (.brev g d a) g d 1 fun s v => ∀ j, j < 64 → v.getLsbD j = (s.opS a).getLsbD (63 - j)) ∧
    (∀ n : Fin 8, Yields (.addsh g d a b n) g d 1 fun s v =>
      v = BitVec.ofNat 64 ((s.opS a).toNat + (s.opS b).toNat * 2 ^ n.val))

/-- The immediate forms (R130, R131) and the moves (R134, R96). The FI forms carry no guard. -/
def Claims.ScalarImmediatesAndMoves : Prop :=
  ∀ (g : Guard) (d : Fin 32) (a : Sel) (imm : BitVec 11) (n : Fin 64) (x : BitVec 20),
    let always : Guard := ⟨0, false⟩
    (Yields (.addi g d a imm) g d 1 fun s v => v = BitVec.ofInt 64 ((s.opS a).toInt + imm.toInt)) ∧
    (Yields (.andi g d a imm) g d 1 fun s v => v = s.opS a &&& BitVec.ofInt 64 imm.toInt) ∧
    (Yields (.ori g d a imm) g d 1 fun s v => v = s.opS a ||| BitVec.ofInt 64 imm.toInt) ∧
    (Yields (.xori g d a imm) g d 1 fun s v => v = s.opS a ^^^ BitVec.ofInt 64 imm.toInt) ∧
    (Yields (.shli g d a n) g d 1 fun s v => v = BitVec.ofNat 64 ((s.opS a).toNat * 2 ^ n.val)) ∧
    (Yields (.shri g d a n) g d 1 fun s v => v = BitVec.ofNat 64 ((s.opS a).toNat / 2 ^ n.val)) ∧
    (Yields (.srai g d a n) g d 1 fun s v => v = BitVec.ofInt 64 ((s.opS a).toInt / 2 ^ n.val)) ∧
    (Yields (.movi d x) always d 1 fun _ v => v = BitVec.ofInt 64 x.toInt) ∧
    (Yields (.movhi d x) always d 1 fun _ v => v = BitVec.ofInt 64 (x.toInt * 2 ^ 12)) ∧
    (Yields (.addl d x) always d 1 fun s v => v = BitVec.ofInt 64 ((s.cur.readS d).toInt + x.toInt)) ∧
    (Yields (.mov g d a) g d 1 fun s v => v = s.opS a) ∧
    (Yields (.pkq g d) g d 1 fun s v => ∀ j : Fin 64, v.getLsbD j.val = if h : j.val < 8 then s.cur.readQ ⟨j.val, h⟩ else false) ∧
    Slotted (.upkq g a) g fun s => s.result 1 (.qs (BitVec.ofNat 8 (s.opS a).toNat))

/-- The integer compares (R132) and the predicate logic (R133). -/
def Obligations.ScalarCompares : Prop :=
  ∀ (g : Guard) (d : Fin 8) (a b : Sel) (imm : BitVec 11) (p q : PSel),
    let cmp := fun (i : Instr) (f : W64 → W64 → Bool) => YieldsQ i g d fun s => f (s.opS a) (s.opS b)
    let cmpi := fun (i : Instr) (f : W64 → W64 → Bool) => YieldsQ i g d fun s => f (s.opS a) (BitVec.ofInt 64 imm.toInt)
    let logic := fun (i : Instr) (f : Bool → Bool → Bool) => YieldsQ i g d fun s => f (s.opQ p) (s.opQ q)
    cmp (.cmpeq g d a b) (fun x y => decide (x = y)) ∧ cmp (.cmpne g d a b) (fun x y => decide (x ≠ y)) ∧
    cmp (.cmplt g d a b) (fun x y => decide (x.toInt < y.toInt)) ∧ cmp (.cmple g d a b) (fun x y => decide (x.toInt ≤ y.toInt)) ∧
    cmp (.cmplo g d a b) (fun x y => decide (x.toNat < y.toNat)) ∧ cmp (.cmpls g d a b) (fun x y => decide (x.toNat ≤ y.toNat)) ∧
    cmpi (.cmpeqi g d a imm) (fun x y => decide (x = y)) ∧ cmpi (.cmplti g d a imm) (fun x y => decide (x.toInt < y.toInt)) ∧
    cmpi (.cmploi g d a imm) (fun x y => decide (x.toNat < y.toNat)) ∧
    logic (.pand g d p q) (· && ·) ∧ logic (.por g d p q) (· || ·) ∧ logic (.pxor g d p q) (fun x y => x ^^ y) ∧
    logic (.pandn g d p q) (fun x y => x && !y) ∧
    (∀ x ∈ ([(.cmpeq g d a b, 0), (.cmpne g d a b, 1), (.cmplt g d a b, 2), (.cmple g d a b, 3), (.cmplo g d a b, 4), (.cmpls g d a b, 5)] : List (Instr × Nat)), encode x.1 / 2 ^ 26 = 6 ∧ encode x.1 % 2 ^ 5 = x.2) ∧
    (∀ x ∈ ([(.pand g d p q, 0), (.por g d p q, 1), (.pxor g d p q, 2), (.pandn g d p q, 3)] : List (Instr × Nat)), encode x.1 / 2 ^ 26 = 7 ∧ encode x.1 % 2 ^ 5 = x.2) ∧
    encode (.cmpeqi g d a imm) / 2 ^ 26 = 0x0F ∧ encode (.cmplti g d a imm) / 2 ^ 26 = 0x10 ∧ encode (.cmploi g d a imm) / 2 ^ 26 = 0x11 ∧
    encode (.cmplt ⟨0, false⟩ 2 (.reg 5) (.reg 6)) = 0x180428C2

/-! ### Scalar floating point -/

/-- The FP32 forms (R135, R136, R139): the exact result of the operands rounded once to nearest, ties to even, with its classes,
after four cycles; FABS and FNEG change the sign bit alone; FMIN and FMAX deliver an operand. -/
def Claims.ScalarFloats : Prop :=
  ∀ (g : Guard) (d : Fin 32) (a b : Sel) (x : BitVec 20),
    let always : Guard := ⟨0, false⟩
    let val := fmtF32.decode
    let old := fun (s : State) => (s.cur.readS d).toNat % 2 ^ 32
    let out := fun (ops : List FVal) (e : FVal) => fmtF32.deliver 0 0 ops e
    YieldsF (.fadd g d a b) g d 4 (fun s => out [val (s.opF a), val (s.opF b)] (faddEx false (val (s.opF a)) (val (s.opF b)))) ∧
    YieldsF (.fsub g d a b) g d 4 (fun s => out [val (s.opF a), val (s.opF b)] (faddEx false (val (s.opF a)) (fneg (val (s.opF b))))) ∧
    YieldsF (.fmul g d a b) g d 4 (fun s => out [val (s.opF a), val (s.opF b)] (fmulEx (val (s.opF a)) (val (s.opF b)))) ∧
    YieldsF (.fmin g d a b) g d 4 (fun s => (fmtF32.minmax false (s.opF a) (s.opF b), 0)) ∧
    YieldsF (.fmax g d a b) g d 4 (fun s => (fmtF32.minmax true (s.opF a) (s.opF b), 0)) ∧
    YieldsF (.fabs g d a) g d 4 (fun s => (s.opF a % 2 ^ 31, 0)) ∧
    YieldsF (.fneg g d a) g d 4 (fun s => ((s.opF a + 2 ^ 31) % 2 ^ 32, 0)) ∧
    YieldsF (.fma g d a b) g d 4 (fun s => out [val (s.opF a), val (s.opF b), val (old s)]
      (faddEx false (fmulEx (val (s.opF a)) (val (s.opF b))) (val (old s)))) ∧
    YieldsF (.fmaD g d a b) g d 4 (fun s => out [val (s.opF a), val (old s), val (s.opF b)]
      (faddEx false (fmulEx (val (s.opF a)) (val (old s))) (val (s.opF b)))) ∧
    (Yields (.fmovi d x) always d 1 fun _ v => v.toNat = x.toNat * 2 ^ 12) ∧
    YieldsF (.faddi d x) always d 4 (fun s => out [val (old s), val (x.toNat * 2 ^ 12)] (faddEx false (val (old s)) (val (x.toNat * 2 ^ 12)))) ∧
    YieldsF (.fmuli d x) always d 4 (fun s => out [val (old s), val (x.toNat * 2 ^ 12)] (fmulEx (val (old s)) (val (x.toNat * 2 ^ 12))))

/-- The FP compares (R137): NaN compares false but for FCMPUN, and the zeros are equal. -/
def Claims.FloatCompares : Prop :=
  (∀ (g : Guard) (d : Fin 8) (a b : Sel),
    let cmp := fun (i : Instr) (f : FVal → FVal → Bool) => YieldsQ i g d fun s => f (fmtF32.decode (s.opF a)) (fmtF32.decode (s.opF b))
    cmp (.fcmpeq g d a b) feq ∧ cmp (.fcmplt g d a b) flt ∧ cmp (.fcmple g d a b) (fun x y => flt x y || feq x y) ∧
    cmp (.fcmpun g d a b) (fun x y => isNan x || isNan y)) ∧
  (∀ x y p q, x.val = some p → y.val = some q → (flt x y = true ↔ p < q) ∧ (feq x y = true ↔ p = q)) ∧
  (∀ x, flt x .nan = false ∧ flt .nan x = false ∧ feq x .nan = false ∧ feq .nan x = false)

/-- Sums and products of finite values are exact before their one rounding (R99). -/
def Claims.ExactSumsAndProducts : Prop :=
  ∀ (rdn : Bool) (x y : FVal) (p q : Rat), x.val = some p → y.val = some q →
    (faddEx rdn x y).val = some (p + q) ∧ (fmulEx x y).val = some (p * q) ∧ (fneg x).val = some (-p) ∧
    ∀ (xs : List FVal) (ps : List Rat), xs.map FVal.val = ps.map some → (fsumEx rdn xs).val = some ps.sum

/-- Rounding to FP32 or FP16 to nearest (R106): no pattern of the format lies closer to the value than the finite result. -/
def Obligations.RoundingIsNearest : Prop :=
  ∀ (f : Fmt) (w : Nat) (x : FVal) (p a : Rat), (f = fmtF32 ∨ f = fmtF16) → x.val = some p →
    (f.decode (f.round 0 w x).1).val = some a →
    ∀ (z : Nat) (b : Rat), z < 2 ^ f.width → (f.decode z).val = some b → |a - p| ≤ |b - p|


/-- The scalar conversions (R138): bits 2..0 of the control word are the rounding mode; in SR mode each draws one random word,
whatever its minor and its source; s30 is refused. -/
def Claims.ScalarConversions : Prop :=
  ∀ (g : Guard) (d : Fin 32) (a c : Sel),
    let is := fun (i : Instr) (f : State → Nat → Nat → Nat × Classes) => Slotted i g fun s =>
      let mode := s.opC c % 8
      let x := drawRng s.cur.regs.rngs
      if d = 30 then s.trap 3 2
      else if mode = 4 then
        let t := s.modCur fun k => { k with regs := { k.regs with rngs := x } }
        (t.result 3 (.s d (BitVec.ofNat 64 (f s 4 (x.toNat / 2 ^ 48)).1))).flags 3 (f s 4 (x.toNat / 2 ^ 48)).2
      else (s.result 3 (.s d (BitVec.ofNat 64 (f s mode 0).1))).flags 3 (f s mode 0).2
    is (.fcvtI64F32 g d a c) (fun s m w => let r := toIntFmt 64 m w (fmtF32.decode (s.opF a)); ((BitVec.ofInt 64 r.1).toNat, r.2)) ∧
    is (.fcvtF32I64 g d a c) (fun s m w => fmtF32.round m w (fofInt (s.opS a).toInt)) ∧
    is (.fcvtF16F32 g d a c) (fun s m w => fmtF16.round m w (fmtF32.decode (s.opF a))) ∧
    is (.fcvtBf16F32 g d a c) (fun s m w => fmtBF16.round m w (fmtF32.decode (s.opF a))) ∧
    is (.fcvtF32F16 g d a c) (fun s _ _ => fmtF32.round 0 0 (fmtF16.decode (s.opH 0x3C00 a))) ∧
    is (.fcvtF32Bf16 g d a c) (fun s _ _ => fmtF32.round 0 0 (fmtBF16.decode (s.opH 0x3F80 a)))

/-! ### Control flow, waits and system registers -/

/-- The branches (R140, R142-R144): the delay bundle's successor is the target; a register target that is no bundle's place is class
0x01, a link write to s30 that R384 turns away class 0x03, and a branch taken in a delay bundle class 0x06, the lowest first (R369). A
call writes the address of the bundle after its delay bundle, to s31 or to d. -/
def Claims.Branches : Prop :=
  ∀ (g : Guard) (off : BitVec 22) (a : Sel) (d : Fin 32),
    let goes := fun (s : State) (t : Nat) => s.modCur fun k => { k with issued := k.issued.map fun i => { i with taken := some t } }
    let there := fun (s : State) => ((s.focus.addr : Int) + 2 * off.toInt).toNat
    let bad := fun (s : State) => 2 ^ 19 ≤ (s.opS a).toNat ∨ (s.opS a).toNat % 8 ≠ 0
    let link := fun (s : State) => BitVec.ofNat 64 (s.cur.returnAddr s.focus.addr (s.cur.issued.elim 0 (·.size)))
    Slotted (.br g off) g (fun s => if s.cur.delay.isSome then s.trap 6 0 else goes s (there s)) ∧
    Slotted (.call g off) g (fun s => if s.cur.delay.isSome then s.trap 6 0
      else (goes s (there s)).result 1 (.s 31 (link s))) ∧
    Slotted (.jr g a) g (fun s => if bad s then s.trap 1 4 else if s.cur.delay.isSome then s.trap 6 0 else goes s (s.opS a).toNat) ∧
    Slotted (.jalr g d a) g (fun s => if bad s then s.trap 1 4
      else match s.refusal d 1 (link s) with
        | some n => s.trap 3 n
        | none => if s.cur.delay.isSome then s.trap 6 0 else (goes s (s.opS a).toNat).result 1 (.s d (link s)))

/-- The loop forms (R85, R145, R146): LCSET sets the trip count, saturated, with its epilogue, clears RB and q5 to q7, and sets q4 to
whether the count is not 0; LOOP counts down, rotates by one, shifts the stage predicates, and is taken while a count is left. That one in a
delay bundle which is not taken counts down and falls through is the model's reading (log entry 70). -/
def Claims.Loops : Prop :=
  ∀ (g : Guard) (a : Sel) (e : Fin 4) (off : BitVec 22),
    Slotted (.lcset g a e) g (fun s =>
      let n : W32 := BitVec.ofNat 32 (min (2 ^ 32 - 1) (s.opS a).toInt.toNat)
      s.result 1 (.loop n e 0 (n != 0) false false false)) ∧
    Slotted (.loop g off) g (fun s =>
      let r := s.cur.regs
      let n : W32 := if r.lcN = 0 then 0 else r.lcN - 1
      let e' : Fin 4 := if r.lcN = 0 ∧ 0 < r.lcE.val then r.lcE - 1 else r.lcE
      let t := s.result 2 (.loop n e' (r.rb + 1) (n != 0) r.q[4] r.q[5] r.q[6])
      if n = 0 ∧ e' = 0 then t
      else if s.cur.delay.isSome then s.trap 6 0
      else t.modCur fun k => { k with issued := k.issued.map fun i => { i with taken := some ((s.focus.addr : Int) + 2 * off.toInt).toNat } })

/-- The waits (R141, R147, R148, R290, R298): NOPW and XFENCE move the earliest next issue, WAITT and HWAIT add what the next bundle
waits for; XFENCE orders the writes of class P that the core has read as complete before the reads of class Q from nine cycles
later on. -/
def Claims.Waits : Prop :=
  ∀ (g : Guard) (a b : Sel) (imm : BitVec 11) (p q : PathClass) (h : Fin 16) (vis : Bool),
    let until_ := fun (s : State) (n : Nat) => s.modCur fun k => { k with issued := k.issued.map fun i =>
      { i with until_ := max i.until_ (s.cyc + 1 + i.stall + n) } }
    let awaits := fun (s : State) (w : Wait) => s.modCur fun k => { k with issued := k.issued.map fun i => { i with waits := i.waits ++ [w] } }
    Slotted (.nopw g a imm) g (fun s => until_ s (s.opS a + BitVec.ofInt 64 imm.toInt).toInt.toNat) ∧
    Slotted (.xfence g p q) g (fun s => until_ (s.fence s.focus.core.val p q) 8) ∧
    (∀ (s : State) (c key : Nat), s.cyc + 9 ≤ key → ∀ x ∈ ((s.fence c p q).core c).loose, x.writer = p → x.early = false →
      x.seen.any (· ≤ s.cyc) = true → x.unordered q key = false) ∧
    Slotted (.waitt g a b) g (fun s => awaits s (.time (s.opS a + s.opS b))) ∧
    Slotted (.hwait g h vis) g (fun s => awaits s (.handle h vis))

/-- The reads of system registers (R23, R88, R149, R150, R374), and FLOG, which clears FLASHLOG at the end of its cycle (R89). -/
def Claims.SystemReads : Prop :=
  ∀ (g : Guard) (d : Fin 32) (n : Fin 3),
    (Yields (.rdtimeFrac g d) g d 1 fun s v => v.toNat = s.cur.regs.latch.toNat) ∧
    (Yields (.rdcad g d) g d 1 fun s v => v.toNat = (s.countOf s.focus.core.val).toNat) ∧
    (Yields (.rdpcyc g d) g d 1 fun s v => v.toNat = min (2 ^ 32 - 1) (s.cyc - s.startOf s.focus.core.val) - s.cur.shift) ∧
    (Yields (.rdcore g d) g d 1 fun s v =>
      v = BitVec.ofNat 64 (s.focus.core.val + 2 ^ 8 * s.device.toNat + 2 ^ 18 * s.cur.part.val)) ∧
    (Yields (.rdtrap g d n) g d 1 fun s v => v = [s.cur.trap0, s.cur.trap1, s.cur.trap2].getD n.val 0) ∧
    Slotted (.rdtime g d) g (fun s => match s.refusal d 1 (s.timeNs s.cyc) with
      | none => (s.result 1 (.s d (s.timeNs s.cyc))).result 1 (.latch (BitVec.ofNat 16 (s.timeFix s.cyc)))
      | some i => s.trap 3 i) ∧
    Slotted (.flog g d) g (fun s => match s.refusal d 1 s.cur.regs.flash with
      | none => (s.result 1 (.s d s.cur.regs.flash)).later s.cyc pEnd .flogClear
      | some i => s.trap 3 i)

/-- The writes of system registers (R151, R374): CBASE takes bits 7..0, a CBANK entry 32 bits, TVEC its address and enable; TRAP is
class 0x09 with its immediate as the sub-code (R375); RFD branches, and the drain and return follow its delay bundle (R376). -/
def Claims.SystemWrites : Prop :=
  ∀ (g : Guard) (a b : Sel) (imm : BitVec 11),
    Slotted (.setcb g a) g (fun s => s.result 1 (.cbase (BitVec.ofNat 8 (s.opS a).toNat))) ∧
    Slotted (.cbwr g a b) g (fun s => s.result 1 (.cbank (BitVec.ofNat 8 (s.opS a).toNat) (BitVec.ofNat 32 (s.opS b).toNat))) ∧
    Slotted (.settv g a) g (fun s => s.result 1 (.tvec (s.opS a &&& 0xFFFF8))) ∧
    Slotted (.trap g imm) g (fun s => s.trap 9 imm.toNat) ∧
    Slotted (.rfd g) g (fun s => if s.cur.delay.isSome then s.trap 6 0 else s.modCur fun k =>
      { k with rfd := true, issued := k.issued.map fun i => { i with taken := some 0 } })

/-- A daymark (R377-R379): with nothing in flight the shadow takes the registers as they stand, whether a shadow stands already or not,
without an error of the old one (R366), and the region bits, the replay list and the rollback count are cleared; with something in flight
it is passed over. The daymark that
a rollback issues again keeps its shadow, its replay list and its count, and the shift grows by the cycles since its previous issue. -/
def Claims.DaymarkTakesShadow : Prop :=
  ∀ s : State,
    let again := s.cur.dayNext = some s.cyc ∧ ∃ regs, s.cur.shadow = some (s.focus.addr, regs)
    let reissued := fun (k : Core) => { k with shift := k.shift + (s.cyc - k.dayLast), dayLast := s.cyc, dayNext := none }
    let cleared := fun (k : Core) => { k with spmRegion := [], dmemRegion := [], accRegion := [] }
    (¬ again → s.inFlight s.focus.core.val = true → exec .daymark s = .next s) ∧
    (¬ again → s.inFlight s.focus.core.val = false → exec .daymark s = .next (s.modCur fun k => { cleared k with
      shadow := some (s.focus.addr, k.regs), replay := [], replayed := 0, opsLeft := 0, rolls := 0, dayFirst := s.cyc, dayLast := s.cyc
      marks := k.marks.filter (·.store != .shadow) })) ∧
    (again → s.inFlight s.focus.core.val = true → exec .daymark s = .next (s.modCur reissued)) ∧
    (again → s.inFlight s.focus.core.val = false → exec .daymark s = .next (s.modCur fun k => cleared (reissued k)))

/-! ### What lands -/

/-- A register write that comes about writes that register and no other (R9, R80, R90, R154): s0, k0 and q0 discard it, a vector
or mask takes the bits of its mask. Nothing else of the core changes but the parity of what is written and the signature of a
rerun, nothing of another core, and nothing of the package. -/
def Claims.RegisterWritesLand : Prop :=
  (∀ d x, Lands (.s d x) fun k k' =>
    (∀ r : Fin 32, k'.readS r = if r = 0 then 0 else if r = d then x else k.readS r) ∧
    { k' with regs := { k'.regs with s := k.regs.s }, marks := k.marks, verify := k.verify } = k) ∧
  (∀ p m x, Lands (.v p m x) fun k k' =>
    (∀ r : Fin 32, k'.regs.v[r] = if r = p then (k.regs.v[r] &&& ~~~m) ||| (x &&& m) else k.regs.v[r]) ∧
    { k' with regs := { k'.regs with v := k.regs.v }, marks := k.marks, verify := k.verify } = k) ∧
  (∀ d m x, Lands (.k d m x) fun k k' =>
    (∀ r : Fin 8, k'.readK r = if r = 0 then BitVec.allOnes 1024 else if r = d then (k.readK r &&& ~~~m) ||| (x &&& m) else k.readK r) ∧
    { k' with regs := { k'.regs with k := k.regs.k }, marks := k.marks, verify := k.verify } = k) ∧
  (∀ d x, Lands (.q d x) fun k k' =>
    (∀ r : Fin 8, k'.readQ r = if r = 0 then true else if r = d then x else k.readQ r) ∧
    { k' with regs := { k'.regs with q := k.regs.q }, marks := k.marks, verify := k.verify } = k)

/-- The other registers that a slot writes (R85, R86, R96, R145, R146, R149, R151, R374): the predicates of UPKQ, the loop registers
with the stage predicates, CBASE, a CBANK entry, TVEC and the time latch; each write leaves the rest of the core as it was, but for the
parity of what is written and the signature of a rerun. -/
def Claims.SystemWritesLand : Prop :=
  (∀ x : BitVec 8, Lands (.qs x) fun k k' => (∀ r : Fin 8, k'.readQ r = if r = 0 then true else x.getLsbD r.val) ∧
    { k' with regs := { k'.regs with q := k.regs.q }, marks := k.marks, verify := k.verify } = k) ∧
  (∀ n e rb q4 q5 q6 q7, Lands (.loop n e rb q4 q5 q6 q7) fun k k' =>
    k'.regs.lcN = n ∧ k'.regs.lcE = e ∧ k'.regs.rb = rb ∧
    (∀ r : Fin 8, k'.readQ r = if r = 4 then q4 else if r = 5 then q5 else if r = 6 then q6 else if r = 7 then q7 else k.readQ r) ∧
    { k' with regs := { k'.regs with lcN := k.regs.lcN, lcE := k.regs.lcE, rb := k.regs.rb, q := k.regs.q }, marks := k.marks,
              verify := k.verify } = k) ∧
  (∀ x, Lands (.cbase x) fun k k' => k'.regs.cbase = x ∧ { k' with regs := { k'.regs with cbase := k.regs.cbase }, marks := k.marks } = k) ∧
  (∀ i x, Lands (.cbank i x) fun k k' => (∀ j : Fin 256, k'.cbank[j] = if j.val = i.toNat then x else k.cbank[j]) ∧
    { k' with cbank := k.cbank, marks := k.marks } = k) ∧
  (∀ x, Lands (.tvec x) fun k k' => k' = { k with regs := { k.regs with tvec := x } }) ∧
  (∀ x, Lands (.latch x) fun k k' => k' = { k with regs := { k.regs with latch := x } })

/-- FLASHLOG (R89): a result's classes are added to the sticky flags; the first record since the last FLOG keeps its address, slot and
lowest class, and is valid; a result of no class leaves it alone. -/
def Claims.FlashLogKeepsFirst : Prop :=
  ∀ (slot addr : Nat) (cl : BitVec 4), slot < 8 → addr < 2 ^ 19 → Lands (.flash slot addr cl) fun k k' =>
    { k' with regs := { k'.regs with flash := k.regs.flash } } = k ∧ (cl = 0 → k' = k) ∧
    (∀ i : Fin 4, k'.regs.flash.getLsbD (32 + i.val) = (k.regs.flash.getLsbD (32 + i.val) || cl.getLsbD i.val)) ∧
    (k.regs.flash.getLsbD 24 = true → k'.regs.flash.toNat % 2 ^ 25 = k.regs.flash.toNat % 2 ^ 25) ∧
    (k.regs.flash = 0 → cl ≠ 0 → ∃ j : Fin 4, cl.getLsbD j.val = true ∧ (∀ i : Fin 4, i.val < j.val → cl.getLsbD i.val = false) ∧
      k'.regs.flash.toNat % 2 ^ 32 = addr + 2 ^ 19 * slot + 2 ^ 22 * j.val + 2 ^ 24)

/-- The bytes of a store land (R194, R360, R391), those of a 4-bit VST by halves (R200): where no word that they cover in part is
uncorrectable, every byte named takes the last value given for it, of which a half that is not written keeps its old value, every other
byte of SPM and of DMEM is as before, and the region bits of the words are set; else nothing is stored, and class 0x0D, reader 6, is
detected of each such word with the recovery of its region bit. Beside this a store means something to the readers of SPM alone: what SPM
held one and two cycles back reads as before (R249), the readers of other paths and of open windows may find older values (R296, R297), and
a byte of an open window is code 13 of WERR (R414). A rerun signs the bytes (R398), and CERRST counts what a partial write corrects (R356,
R367). Registers, the other memories and every other core are as before. -/
def Obligations.StoresLand : Prop :=
  ∀ (s : State) (it : Item) (rest : List Item) (slot : Nat) (l : Land) (bs : List (Nat × Byte)) (half : List Nat) (spm : Bool),
    s.agenda = it :: rest → it.ev = .land slot l →
    let k := s.core it.core
    let cyc := it.tick / 3
    let mem := fun (q : Core) => if spm then q.spm else q.dmem
    let region := fun (q : Core) => if spm then q.spmRegion else q.dmemRegion
    let store : Store := if spm then .spm else .dmem
    ((l = if spm then .spm bs else .dmem bs) ∧ half = [] ∨ ∃ cs : List (Nat × Byte × Byte), l = .nibbles spm cs ∧
      bs = cs.map (fun x => (x.1, ((mem k).byte x.1 &&& ~~~x.2.1) ||| (x.2.2 &&& x.2.1))) ∧
      half = (cs.filter fun x => x.2.1 != 0xFF).map (·.1)) →
    let torn := fun (u : Nat) => (∃ m ∈ k.marks, m.store = store ∧ m.hard = true ∧ m.unit = u) ∧ (∃ e ∈ bs, e.1 / 8 = u) ∧
      ∃ i, i < 8 ∧ ((∀ e ∈ bs, e.1 ≠ 8 * u + i) ∨ 8 * u + i ∈ half)
    let open_ := ∃ e : Fin 32, (k.win[e]).state ≠ 0 ∧ ∃ b ∈ bs, (k.win[e]).holds b.1 = true
    ∃ t, step s = .next t ∧ (∀ c, c ≠ it.core → t.core c = s.core c) ∧
      let k' := t.core it.core
      { k' with spm := k.spm, dmem := k.dmem, spmOld := k.spmOld, spmRegion := k.spmRegion, dmemRegion := k.dmemRegion,
                loose := k.loose, marks := k.marks, verify := k.verify, win := k.win, werr := k.werr, werrBy := k.werrBy,
                errs := k.errs, cerrst := k.cerrst } = k ∧
      ((∀ m ∈ k.marks, m.store = store → m.hard = true) → k'.cerrst = k.cerrst) ∧
      (∀ e : Fin 32, { k'.win[e] with opened := (k.win[e]).opened } = k.win[e]) ∧
      (if spm then k'.dmem = k.dmem ∧ k'.dmemRegion = k.dmemRegion
        else { k' with dmem := k.dmem, dmemRegion := k.dmemRegion, marks := k.marks, verify := k.verify, errs := k.errs, cerrst := k.cerrst } = k) ∧
      ((∀ u, ¬ torn u) → k'.errs = k.errs ∧ (∀ a, (∀ e ∈ bs, e.1 ≠ a) → (mem k').byte a = (mem k).byte a) ∧
        (∀ xs ys a b, bs = xs ++ (a, b) :: ys → (∀ e ∈ ys, e.1 ≠ a) → (mem k').byte a = b) ∧
        (∀ u, Sp.get false (region k') u = if ∃ e ∈ bs, e.1 / 8 = u then true else Sp.get false (region k) u) ∧
        (∀ n a, n < cyc → cyc ≤ n + 2 → k'.spmAt n a = k.spmAt n a) ∧
        (k.loose = [] → { s with now := it.tick }.exchange it.core = false → k'.loose = []) ∧
        (spm = true → open_ → k.werr = 0 → k'.werr.toNat % 2 ^ 5 = 1 + 2 * 13) ∧
        (¬ open_ → k'.win = k.win ∧ k'.werr = k.werr ∧ k'.werrBy = k.werrBy) ∧
        (k.verify = none ∨ bs = [] → k'.verify = k.verify) ∧
        (∀ v, k.verify = some v → v.began ≤ cyc → bs ≠ [] → (bs.map (·.1)).Pairwise (· < ·) → ∃ v', k'.verify = some v' ∧
          (slot, leBytes 4 ((if spm then 4 else 5) + 16 * ((bs.map (·.1)).headD 0 % 2 ^ 28)) ++ bs.map (·.2)) ∈ v'.writes)) ∧
      ((∃ u, torn u) → { k' with errs := k.errs, cerrst := k.cerrst } = k ∧ ∃ es, es ≠ [] ∧ k'.errs = k.errs ++ es ∧
        ∀ e ∈ es, e.cls = 0x0D ∧ e.info = (if spm then 1 else 2) + 16 * 6 ∧ ∃ u, torn u ∧ e.loc = BitVec.ofNat 32 (8 * u) ∧
          e.act = if Sp.get false (region k) u = true ∧ k.inRegion = true then .b else .e)

/-- No scalar, vector, special or memory form changes a register or a memory when it issues (R9, R60): until its results land, every
core is as it was but for the errors of the cycle, the record of the bundle in issue, the generator where the form draws, the mark of a
pending return for RFD, and what a fence orders for XFENCE, in SPM and in the values that an open window serves; the package is as it was
but for the agenda. -/
def Obligations.IssueChangesNothingElse : Prop :=
  ∀ (i : Instr) (s t : State), (i.space = .scalar ∨ i.space = .vector ∨ i.space = .special ∨ i.space = .memory) → exec i s = .next t →
    s.sameBut t ∧ (i.mayDraw = false → ∀ c, (t.core c).regs.rngs = (s.core c).regs.rngs) ∧
    ((∀ g, i ≠ .rfd g) → ∀ c, (t.core c).rfd = (s.core c).rfd) ∧
    ((∀ g p q, i ≠ .xfence g p q) → ∀ c, (t.core c).loose = (s.core c).loose ∧ (t.core c).win = (s.core c).win)

/-! ### Memory slots -/

/-- The scalar and mask accesses (R194, R196-R199, R202): an address outside the memory of the slot or misaligned is class 0x04 and
touches nothing; else a load is read one cycle later and a store lands two cycles later, lowest byte first; a load into s30 is
class 0x03, info 2 (R384). -/
def Claims.ScalarAccesses : Prop :=
  ∀ (g : Guard) (d : Fin 32) (a b : Sel) (imm : BitVec 11) (t : LdType) (u : StType) (kd : Fin 8) (w : Width),
    let at_ := fun (s : State) => ((s.opS a).toNat + (s.opS b).toNat) % 2 ^ 64
    let ati := fun (s : State) => (BitVec.ofInt 64 ((s.opS a).toInt + 8 * imm.toInt)).toNat
    let kn := 4096 / w.bits / 8
    let load := fun (r : Nat → LoadReq) (ea : Nat) (s : State) => s.later (s.cyc + 1) pRead (.load s.focus (r ea))
    let store := fun (n : Nat) (v : State → Nat) (ea : Nat) (s : State) =>
      let bs := (List.range n).map fun i => (ea + i, BitVec.ofNat 8 (v s / 256 ^ i))
      s.result 2 (if s.focus.slot = .m1 then .dmem bs else .spm bs)
    Slotted (.ld g d a b t) g (fun s => if d = 30 then s.trap 3 2 else s.checked (at_ s) (ldBytes t) (ldBytes t) (load (.s d · t) (at_ s) s)) ∧
    Slotted (.ldi g d a imm) g (fun s => if d = 30 then s.trap 3 2 else s.checked (ati s) 8 8 (load (.s d · .d64) (ati s) s)) ∧
    Slotted (.st g d a b u) g (fun s => s.checked (at_ s) (stBytes u) (stBytes u) (store (stBytes u) (fun s => (s.cur.readS d).toNat) (at_ s) s)) ∧
    Slotted (.sti g d a imm) g (fun s => s.checked (ati s) 8 8 (store 8 (fun s => (s.cur.readS d).toNat) (ati s) s)) ∧
    Slotted (.kld g kd a b w) g (fun s => s.checked (at_ s) kn (min kn 64) (load (.k kd · w) (at_ s) s)) ∧
    Slotted (.kst g kd a b w) g (fun s => s.checked (at_ s) kn (min kn 64) (store kn (fun s => packMask (s.cur.readK kd) w.bits) (at_ s) s))

/-- The vector accesses (R200, R201, R206): up to 512 bytes from a multiple of 64, or a block of 64; an access touches the bytes of the
active elements only, and a store of 4-bit elements the halves of bytes. That an access is checked on the bytes of its active
elements alone is the model's reading (log entry 31). -/
def Claims.VectorAccesses : Prop :=
  ∀ (g : Guard) (d : Fin 32) (a b : Sel) (k : Fin 8) (w : Width) (imm : BitVec 11) (int : Bool),
    let at_ := fun (s : State) => ((s.opS a).toNat + (s.opS b).toNat) % 2 ^ 64
    let ati := fun (s : State) => (BitVec.ofInt 64 ((s.opS a).toInt + 64 * imm.toInt)).toNat
    let p := fun (s : State) => physV s.cur.regs.rb d
    let on := fun (s : State) (j : Nat) =>
      if w = .w4 then active (s.cur.readK k) 4 (2 * j) || active (s.cur.readK k) 4 (2 * j + 1)
      else active (s.cur.readK k) w.bits (j * 8 / w.bits)
    let store := fun (s : State) (ea : Nat) (on : Nat → Bool) =>
      let bs := ((List.range 512).filter on).map fun j => (ea + j, BitVec.ofNat 8 (elem 8 (s.cur.readV d) j))
      s.result 2 (if s.focus.slot = .m1 then .dmem bs else .spm bs)
    Slotted (.vld g d a b k w) g (fun s => s.touches (at_ s) (on s)
      (s.later (s.cyc + 1) pRead (.load s.focus (.v (p s) (at_ s) (activeBits (s.cur.readK k) w.bits))))) ∧
    Slotted (.vldi g d a imm) g (fun s => s.touches (ati s) (fun _ => true)
      (s.later (s.cyc + 1) pRead (.load s.focus (.v (p s) (ati s) (BitVec.allOnes 4096))))) ∧
    (w ≠ .w4 → Slotted (.vst g d a b k w) g (fun s => s.touches (at_ s) (on s) (store s (at_ s) (on s)))) ∧
    (w = .w4 → Slotted (.vst g d a b k w) g (fun s => s.touches (at_ s) (on s) (s.result 2 (.nibbles (s.focus.slot != .m1)
      (((List.range 512).filter fun j => active (s.cur.readK k) 4 (2 * j) || active (s.cur.readK k) 4 (2 * j + 1)).map fun j =>
        (at_ s + j, BitVec.ofNat 8 ((if active (s.cur.readK k) 4 (2 * j) then 15 else 0) + if active (s.cur.readK k) 4 (2 * j + 1) then 240 else 0),
          BitVec.ofNat 8 (elem 8 (s.cur.readV d) j))))))) ∧
    Slotted (.vsti g d a imm) g (fun s => s.touches (ati s) (fun _ => true) (store s (ati s) fun _ => true)) ∧
    Slotted (.vldb g d a b k int) g (fun s => s.checked (at_ s) 64 64
      (s.later (s.cyc + 1) pRead (.load s.focus (.block (p s) (at_ s) (s.cur.readK k) int))))

/-- The strided and indexed accesses of part p (R203-R205): the active elements of positions 32p to 32p + 31; an address outside SPM
or misaligned is class 0x04, two elements in one bank and different rows class 0x05; where two elements store to one address the
higher index prevails. -/
def Obligations.ScatteredAccesses : Prop :=
  ∀ (g : Guard) (d : Fin 32) (a b : Sel) (x : Fin 32) (k : Fin 8) (p : Fin 4),
    let strided := fun (s : State) (j : Nat) => (BitVec.ofInt 64 ((s.opS a).toInt + (s.opS b).toInt * j)).toNat
    let indexed := fun (s : State) (j : Nat) => (BitVec.ofInt 64 ((s.opS a).toInt + sgn 32 (elem 32 (s.cur.readV x) (32 * p.val + j)))).toNat
    let es := fun (s : State) (ea : State → Nat → Nat) =>
      ((List.range 32).filter fun j => active (s.cur.readK k) 32 (32 * p.val + j)).map fun j => (32 * p.val + j, ea s j)
    let ok := fun (s : State) (l : List (Nat × Nat)) (t : State) =>
      if ∃ e ∈ l, e.2 % 4 ≠ 0 ∨ (if s.focus.slot = .m1 then 0x40000 else 0x400000) < e.2 + 4 then s.trap 4 0
      else if ∃ e ∈ l, ∃ f ∈ l, e.2 / 64 % 32 = f.2 / 64 % 32 ∧ e.2 / 2048 % 2048 ≠ f.2 / 2048 % 2048 then s.trap 5 0 else t
    let load := fun (ea : State → Nat → Nat) (s : State) => ok s (es s ea)
      (s.later (s.cyc + 1) pRead (.load s.focus (.gather (physV s.cur.regs.rb d) (es s ea))))
    let store := fun (ea : State → Nat → Nat) (s : State) => ok s (es s ea)
      (let bs := ((es s ea).map fun e => (List.range 4).map fun i => (e.2 + i, BitVec.ofNat 8 (elem 32 (s.cur.readV d) e.1 / 256 ^ i))).flatten
       s.result 2 (if s.focus.slot = .m1 then .dmem bs else .spm bs))
    Slotted (.vlds g d a b k p) g (load strided) ∧ Slotted (.vldx g d a x k p) g (load indexed) ∧
    Slotted (.vsts g d a b k p) g (store strided) ∧ Slotted (.vstx g d a x k p) g (store indexed)

/-- The read point of a load (R194, R197, R200, R202, R206, R295, R296): where the core's storage holds no soft error, the bytes as memory
holds them now, lowest first, sign-extended or zero-extended, written seven cycles later from SPM and three from DMEM. A byte of SPM
that an unordered write touches reads as either value; but for what is ordered by the read (R300), nothing else changes. A block that passes the checks of R115 is expanded eleven cycles later, a
position of a lane each; one that fails a check writes nothing and is class 0x0A. -/
def Obligations.LoadsRead : Prop :=
  ∀ (s : State) (ea : Nat), s.cur.marks = [] →
    let m := if s.focus.slot = .m1 then s.cur.dmem else s.cur.spm
    let finds := fun (f : Nat → Byte) (u : State) =>
      (∀ a, f a = m.byte a ∨ (s.focus.slot ≠ .m1 ∧ ∃ x ∈ s.cur.loose, x.addr = a ∧ x.unordered .t s.cyc = true ∧ f a = x.other)) ∧
      { u with freeCtr := s.freeCtr, cores := s.cores } = s ∧
      (∀ c, { u.core c with loose := (s.core c).loose, known := (s.core c).known } = s.core c) ∧
      (s.cur.loose = [] → u = s)
    let le := fun (f : Nat → Byte) (a n : Nat) => (List.range n).foldr (fun i x => (f (a + i)).toNat + 256 * x) 0
    let lat := if s.focus.slot = .m1 then 3 else 7
    let lands := fun (u : State) (l : Land) => u.result lat l
    (∀ d t, ∃ (f : Nat → Byte) (n : State) (v : W64), finds f n ∧ s.readPoint (.s d ea t) = lands n (.s d v) ∧
      (t = .z8 → v.toNat = le f ea 1) ∧ (t = .z16 → v.toNat = le f ea 2) ∧ (t = .z32 → v.toNat = le f ea 4) ∧ (t = .d64 → v.toNat = le f ea 8) ∧
      (t = .x8 → v.toInt = (BitVec.ofNat 8 (le f ea 1)).toInt) ∧ (t = .x16 → v.toInt = (BitVec.ofNat 16 (le f ea 2)).toInt) ∧
      (t = .x32 → v.toInt = (BitVec.ofNat 32 (le f ea 4)).toInt)) ∧
    (∀ p mk, ∃ (f : Nat → Byte) (n : State) (x : VReg), finds f n ∧ s.readPoint (.v p ea mk) = lands n (.v p mk x) ∧
      ∀ j, j < 512 → elem 8 mk j ≠ 0 → elem 8 x j = (f (ea + j)).toNat) ∧
    (∀ d w, ∃ (f : Nat → Byte) (n : State) (x : KReg), finds f n ∧ s.readPoint (.k d ea w) = lands n (.k d (BitVec.allOnes 1024) x) ∧
      ∀ b, b < 1024 → let i := b / (w.bits / 4); x.getLsbD b = (f (ea + i / 8)).getLsbD (i % 8)) ∧
    (∀ p es, (es.map (·.1)).Nodup → (∀ e ∈ es, e.1 < 128) → ∃ (f : Nat → Byte) (n : State) (mk x : VReg), finds f n ∧
      s.readPoint (.gather p es) = lands n (.v p mk x) ∧ ∀ e ∈ es, elem 32 mk e.1 = 2 ^ 32 - 1 ∧ elem 32 x e.1 = le f e.2 4) ∧
    (∀ p k int, ∃ (f : Nat → Byte) (n : State), finds f n ∧
      let bs := (List.range 64).map fun i => f (ea + i)
      (blockFail bs false = none → ∃ mk x : VReg,
        s.readPoint (.block p ea k int) = n.result 11 (.v p mk x) ∧
        (∀ i, i < 128 → elem 32 mk i = if i < (expand bs int).length ∧ active k 32 i = true then 2 ^ 32 - 1 else 0) ∧
        ∀ i v, (expand bs int)[i]? = some v → elem 32 x i = blockLane v) ∧
      (∀ fail, blockFail bs false = some fail → ∃ e : Err, e.cls = 0x0A ∧ e.info = fail.1 ∧ e.loc = BitVec.ofNat 32 ea ∧
        s.readPoint (.block p ea k int) = n.raiseOn s.focus.core.val e))

/-! ### Vectors -/

/-- The integer forms (R157): element by element at the width of the type, wrapping or saturating, written where the mask is active. -/
def Claims.VectorIntegers : Prop :=
  ∀ (g : Guard) (d : Fin 32) (a b : Sel) (k : Fin 8) (t : IType),
    let w := t.bits
    let pat := fun (x : Int) => (x % 2 ^ w).toNat
    let sat := fun (x : Int) => pat (max (-(2 ^ (w - 1))) (min (2 ^ (w - 1) - 1) x))
    let is := fun (i : Instr) (f : Nat → Nat → Nat) => YieldsV i g d 2 w (fun s => s.cur.readK k)
      (fun s j => f (elem w (s.opV w 1 a) j) (elem w (s.opV w 1 b) j)) fun _ => 0
    is (.vadd g d a b k t) (fun x y => x + y) ∧ is (.vsub g d a b k t) (fun x y => pat ((x : Int) - y)) ∧
    is (.vmul g d a b k t) (fun x y => x * y) ∧
    is (.vmin g d a b k t) (fun x y => pat (min (sgn w x) (sgn w y))) ∧ is (.vmax g d a b k t) (fun x y => pat (max (sgn w x) (sgn w y))) ∧
    is (.vminl g d a b k t) min ∧ is (.vmaxl g d a b k t) max ∧
    is (.vand g d a b k t) (· &&& ·) ∧ is (.vor g d a b k t) (· ||| ·) ∧ is (.vxor g d a b k t) (· ^^^ ·) ∧
    is (.vshl g d a b k t) (fun x y => x * 2 ^ (y % w)) ∧ is (.vshr g d a b k t) (fun x y => x / 2 ^ (y % w)) ∧
    is (.vsra g d a b k t) (fun x y => pat (sgn w x / 2 ^ (y % w))) ∧
    is (.vadds g d a b k t) (fun x y => sat (sgn w x + sgn w y)) ∧ is (.vsubs g d a b k t) (fun x y => sat (sgn w x - sgn w y))

/-- The immediates (R160, R161) and the selects and moves (R163). The first two groups write every element; the FI forms carry no
guard. That selector 36 supplies the integer 1 to VSEL and VMOV is the model's choice (log entry 72). -/
def Claims.VectorImmediatesAndMoves : Prop :=
  ∀ (g : Guard) (d : Fin 32) (a b : Sel) (k : Fin 8) (w : Width) (imm : BitVec 11) (n : Fin 32) (x : BitVec 20),
    let all := fun (i : Instr) (g : Guard) (wd : Nat) (v : State → Nat → Nat) =>
      ∃ y : State → VReg, (∀ s j, j < 4096 / wd → elem wd (y s) j = v s j) ∧ Slotted i g fun s => s.putV d 2 (BitVec.allOnes 4096) (y s)
    let el := fun (s : State) (j : Nat) => elem 32 (s.opV 32 1 a) j
    let always : Guard := ⟨0, false⟩
    all (.vaddi g d a imm) g 32 (fun s j => (((el s j : Nat) + imm.toInt) % 2 ^ 32).toNat) ∧
    all (.vandi g d a imm) g 32 (fun s j => el s j &&& (imm.toInt % 2 ^ 32).toNat) ∧
    all (.vshli g d a n) g 32 (fun s j => el s j * 2 ^ n.val % 2 ^ 32) ∧
    all (.vshri g d a n) g 32 (fun s j => el s j / 2 ^ n.val) ∧
    all (.vsrai g d a n) g 32 (fun s j => (sgn 32 (el s j) / 2 ^ n.val % 2 ^ 32).toNat) ∧
    all (.vmovi d x) always 32 (fun _ _ => (x.toInt % 2 ^ 32).toNat) ∧
    all (.vfmovi d x) always 32 (fun _ _ => x.toNat * 2 ^ 12) ∧
    all (.vsel g d a b k w) g w.bits (fun s j =>
      if active (s.cur.readK k) w.bits j then elem w.bits (s.opV w.bits 1 a) j else elem w.bits (s.opV w.bits 1 b) j) ∧
    YieldsV (.vmov g d a k w) g d 2 w.bits (fun s => s.cur.readK k) (fun s j => elem w.bits (s.opV w.bits 1 a) j) fun _ => 0

/-- The compares (R162): the mask bits of the active elements take the result, and the others stay. -/
def Claims.VectorCompares : Prop :=
  ∀ (g : Guard) (d : Fin 8) (a b : Sel) (k : Fin 8) (t : IType) (u : FType),
    let is := fun (i : Instr) (w one : Nat) (f : Nat → Nat → Bool) => YieldsK i g d w (fun s j => active (s.cur.readK k) w j)
      fun s j => f (elem w (s.opV w one a) j) (elem w (s.opV w one b) j)
    let isF := fun (i : Instr) (f : FVal → FVal → Bool) => is i u.bits u.one fun x y => f (u.fmt.decode x) (u.fmt.decode y)
    is (.vcmpeq g d a b k t) t.bits 1 (fun x y => decide (x = y)) ∧
    is (.vcmplt g d a b k t) t.bits 1 (fun x y => decide (sgn t.bits x < sgn t.bits y)) ∧
    is (.vcmple g d a b k t) t.bits 1 (fun x y => decide (sgn t.bits x ≤ sgn t.bits y)) ∧
    isF (.vfcmpeq g d a b k u) feq ∧ isF (.vfcmplt g d a b k u) flt ∧ isF (.vfcmple g d a b k u) (fun x y => flt x y || feq x y) ∧
    isF (.vfcmpun g d a b k u) (fun x y => isNan x || isNan y)

/-- Mask logic (R174) and the mask forms (R175): every bit of the mask is written; KSET.FIRST sets the first n elements. -/
def Claims.LaneMasks : Prop :=
  ∀ (g : Guard) (d : Fin 8) (a b : KSel) (x : Sel) (w : Width),
    let logic := fun (i : Instr) (f : KReg → KReg → KReg) => Slotted i g fun s => s.result 2 (.k d (BitVec.allOnes 1024) (f (s.opK a) (s.opK b)))
    let set := fun (i : Instr) (f : State → Nat → Bool) => YieldsK i g d w.bits (fun _ _ => true) f
    logic (.kand g d a b) (· &&& ·) ∧ logic (.kor g d a b) (· ||| ·) ∧ logic (.kxor g d a b) (· ^^^ ·) ∧
    logic (.kandn g d a b) (fun p q => p &&& ~~~q) ∧
    set (.ksetFirst g d x w) (fun s j => decide (j < match x with | .one => 1 | x => (s.word x).toNat)) ∧
    set (.ksetNz g d x w) (fun s j => decide (elem w.bits (s.opV w.bits 1 x) j ≠ 0)) ∧
    set (.ksetNeg g d x w) (fun s j => decide (sgn w.bits (elem w.bits (s.opV w.bits 1 x) j) < 0))

/-- The floating-point forms (R158, R159, R161): each element is the exact result rounded once to nearest, ties to even, with latency 4,
or 5 for a multiply-add; the active elements' classes reach FLASHLOG; VFABS and VFNEG change the sign bit alone, with latency 2. -/
def Obligations.VectorFloats : Prop :=
  ∀ (g : Guard) (d : Fin 32) (a b : Sel) (k : Fin 8) (t : FType) (imm : BitVec 20),
    let w := t.bits
    let val := t.fmt.decode
    let out := fun (ops : List FVal) (e : FVal) => t.fmt.deliver 0 0 ops e
    let or := fun (k : KReg) (w : Nat) (f : Nat → Nat × Classes) =>
      (List.range (4096 / w)).foldl (fun (c : Classes) j => if active k w j then c ||| (f j).2 else c) 0
    let is := fun (i : Instr) (lat : Nat) (f : Nat → Nat → Nat → Nat × Classes) =>
      let e := fun (s : State) (j : Nat) => f (elem w (s.opV w t.one a) j) (elem w (s.opV w t.one b) j) (elem w (s.cur.readV d) j)
      YieldsV i g d lat w (fun s => s.cur.readK k) (fun s j => (e s j).1) fun s => or (s.cur.readK k) w (e s)
    let fi := fun (i : Instr) (f : Nat → Nat × Classes) =>
      let e := fun (s : State) (j : Nat) => f (elem 32 (s.cur.readV d) j)
      YieldsV i ⟨0, false⟩ d 4 32 (fun _ => BitVec.allOnes 1024) (fun s j => (e s j).1) fun s => or (BitVec.allOnes 1024) 32 (e s)
    is (.vfadd g d a b k t) 4 (fun x y _ => out [val x, val y] (faddEx false (val x) (val y))) ∧
    is (.vfsub g d a b k t) 4 (fun x y _ => out [val x, val y] (faddEx false (val x) (fneg (val y)))) ∧
    is (.vfmul g d a b k t) 4 (fun x y _ => out [val x, val y] (fmulEx (val x) (val y))) ∧
    is (.vfmin g d a b k t) 4 (fun x y _ => (t.fmt.minmax false x y, 0)) ∧ is (.vfmax g d a b k t) 4 (fun x y _ => (t.fmt.minmax true x y, 0)) ∧
    is (.vfma g d a b k t) 5 (fun x y z => out [val x, val y, val z] (faddEx false (fmulEx (val x) (val y)) (val z))) ∧
    is (.vfmad g d a b k t) 5 (fun x y z => out [val x, val z, val y] (faddEx false (fmulEx (val x) (val z)) (val y))) ∧
    is (.vfabs g d a k t) 2 (fun x _ _ => (x % 2 ^ (w - 1), 0)) ∧ is (.vfneg g d a k t) 2 (fun x _ _ => ((x + 2 ^ (w - 1)) % 2 ^ w, 0)) ∧
    fi (.vfaddi d imm) (fun z => let c := imm.toNat * 2 ^ 12
      fmtF32.deliver 0 0 [fmtF32.decode z, fmtF32.decode c] (faddEx false (fmtF32.decode z) (fmtF32.decode c))) ∧
    fi (.vfmuli d imm) (fun z => let c := imm.toNat * 2 ^ 12
      fmtF32.deliver 0 0 [fmtF32.decode z, fmtF32.decode c] (fmulEx (fmtF32.decode z) (fmtF32.decode c)))

/-- The conversions (R164-R171): an unsupported pair of formats writes zeros and raises invalid; else every element position is
converted by cvt and written where its mask bit is set, after three cycles. In SR mode one word is drawn for each position. -/
def Obligations.VectorConversions : Prop :=
  ∀ (g : Guard) (d : Fin 32) (a c : Sel) (km : Fin 8) (v : Conv) (i : Instr) (s : State),
    ((v = .f ∧ i = .vcvtf g d a c km) ∨ (v = .i ∧ i = .vcvti g d a c km) ∨ (v = .iff ∧ i = .vcvtif g d a c km) ∨
      (v = .widen ∧ i = .vwiden g d a c km) ∨ (v = .narrow ∧ i = .vnarrow g d a c km)) →
    let ct := Ctl.of (s.opC c)
    let k := s.cur.readK km
    let b := codeWidth ct.dst
    let ps := v.map ct
    let ws := if ct.mode = 4 then (drawMany ps.length s.cur.regs.rngs).1 else ps.map fun _ => 0
    let r := fun (n : Nat) => cvt ct.src ct.dst ct.mode ct.scale (rngWord (ws.getD n 0))
      (elem (codeWidth ct.src) (s.opV (codeWidth ct.src) (codeOne ct.src) a) (ps.getD n (0, 0, 0)).2.1)
    (s.guard g = false → exec i s = .next s) ∧
    (s.guard g = true → v.supports ct = false →
      exec i s = .next ((s.putV d 3 (activeBits k (if b = 0 then 32 else b)) 0).flags 3 clsInvalid)) ∧
    (s.guard g = true → v.supports ct = true → ∃ (t : State) (m x : VReg) (cl : Classes),
      exec i s = .next ((t.putV d 3 m x).flags 3 cl) ∧
      t = (if ct.mode = 4 then s.modCur fun q => { q with regs := { q.regs with rngs := (drawMany ps.length s.cur.regs.rngs).2 } } else s) ∧
      (∀ n p, ps[n]? = some p → elem b m p.1 = (if k.getLsbD p.2.2 then 2 ^ b - 1 else 0) ∧
        (k.getLsbD p.2.2 = true → elem b x p.1 = (r n).1 % 2 ^ b ∧ (r n).2 ||| cl = cl)) ∧
      (∀ j, j < 4096 / b → (∀ p ∈ ps, p.1 ≠ j) → elem b m j = 0))

/-- The cross-lane forms (R178-R181): element i takes an element of the sources and is written when it and the position it takes are
active, after six cycles. That selector 36 supplies the integer 1 to these width-only forms is the model's choice (log entry 72). -/
def Obligations.CrossLaneForms : Prop :=
  ∀ (g : Guard) (d : Fin 32) (a b c : Sel) (k : Fin 8) (wd : Width),
    let w := wd.bits
    let n := 4096 / w
    let is := fun (i : Instr) (pos src : State → Nat → Nat) => ∃ m x : State → VReg, Slotted i g (fun s => s.putV d 6 (m s) (x s)) ∧
      ∀ s j, j < n → elem w (x s) j = src s j ∧
        elem w (m s) j = if active (s.cur.readK k) w j && active (s.cur.readK k) w (pos s j) then 2 ^ w - 1 else 0
    let x := fun (s : State) (j : Nat) => elem w (s.opV w 1 a) j
    let pat := fun (s : State) => s.opC c % 4
    let seq := fun (s : State) (j : Nat) => if j < n then elem w (s.cur.readV d) j else x s (j - n)
    let shuf := fun (s : State) (j : Nat) => if pat s = 0 then j / 2 + n * (j % 2) else if pat s = 1 then n / 2 + j / 2 + n * (j % 2)
      else if pat s = 2 then 2 * j else 2 * j + 1
    (wd ≠ .w4 → let q := fun (s : State) (j : Nat) => (elem w (s.opV w 1 b) j) % (min n 256) + (if w = 8 then 256 * (j / 256) else 0)
      is (.vperm g d a b k wd) q fun s j => x s (q s j)) ∧
    is (.vshuf g d a c k wd) (fun s j => shuf s j % n) (fun s j => seq s (shuf s j)) ∧
    is (.vrot g d a c k wd) (fun s j => (j + s.opC c % 1024) % n) (fun s j => x s ((j + s.opC c % 1024) % n)) ∧
    is (.vbcst g d a c k wd) (fun s _ => s.opC c % 1024 % n) (fun s _ => x s (s.opC c % 1024 % n))

/-- The scans and reductions (R182-R184), after six cycles. A scan gives each active element the combination of the active elements up
to it; a reduction gives one value to every active element, and nothing happens where none is active; a reserved operation writes
zeros and raises invalid. That a maximum or minimum of VREDF draws nothing whatever its mode field, and how many words a sum in SR mode
draws, are the model's reading (log entry 21). -/
def Obligations.ScansAndReductions : Prop :=
  ∀ (g : Guard) (d : Fin 32) (a c : Sel) (k : Fin 8) (v : Fin 3) (t : IType) (u : FType) (s : State),
    let m := s.cur.readK k
    let cw := s.opC c
    let zero := fun (w : Nat) => (s.putV d 6 (activeBits m w) 0).flags 6 clsInvalid
    let act := fun (w one : Nat) => ((List.range (4096 / w)).filter fun j => active m w j).map fun j => elem w (s.opV w one a) j
    let spread := fun (w : Nat) (r : Nat × Classes) (t : State) => (t.putV d 6 (activeBits m w) (splat w r.1)).flags 6 r.2
    (s.guard g = true →
      (let fp := cw / 4 % 2 = 1
       let w := if fp then (scanF v).bits else (scanI v).bits
       let x := fun (j : Nat) => elem w (s.opV w (if fp then (scanF v).one else 1) a) j
       let f := fun (p q : Nat) => if fp then scanFp (scanF v).fmt (cw % 4) p q else scanInt w (cw % 4) p q
       (cw % 4 = 3 → exec (.vscan g d a c k v) s = .next (zero w)) ∧
       (cw % 4 ≠ 3 → ∃ r : Nat → Nat × Classes,
         exec (.vscan g d a c k v) s = .next (s.putVF d 6 w m ((List.range (4096 / w)).map r)) ∧
         ∀ i, i < 4096 / w → active m w i = true →
           ((∀ j, j < i → active m w j = false) → r i = (if fp then (scanF v).fmt.flushed (x i) else x i, 0)) ∧
           (∀ j, j < i → active m w j = true → (∀ l, j < l → l < i → active m w l = false) → r i = f (r j).1 (x i)))) ∧
      (let w := t.bits
       let es := act w 1
       let op := cw % 8
       let total := (es.map (sgn w)).sum
       (6 ≤ op → exec (.vredi g d a c k t) s = .next (zero w)) ∧ (op < 6 → es = [] → exec (.vredi g d a c k t) s = .next s) ∧
       (op < 6 → es ≠ [] → ∃ e : Nat, exec (.vredi g d a c k t) s = .next (spread w (e, 0) s) ∧
         (op = 0 → (e : Int) = total % 2 ^ w) ∧ (op = 1 → (e : Int) = max (-(2 ^ (w - 1))) (min (2 ^ (w - 1) - 1) total) % 2 ^ w) ∧
         (op = 2 → e ∈ es ∧ ∀ y ∈ es, sgn w y ≤ sgn w e) ∧ (op = 3 → e ∈ es ∧ ∀ y ∈ es, sgn w e ≤ sgn w y) ∧
         (op = 4 → e ∈ es ∧ ∀ y ∈ es, y ≤ e) ∧ (op = 5 → e ∈ es ∧ ∀ y ∈ es, e ≤ y))) ∧
      (let w := u.bits
       let es := act w u.one
       let op := cw % 4
       let mode := cw / 4 % 8
       let vs := es.map u.fmt.decode
       (op = 3 → exec (.vredf g d a c k u) s = .next (zero w)) ∧ (op < 3 → es = [] → exec (.vredf g d a c k u) s = .next s) ∧
       (op = 0 → es ≠ [] → mode ≠ 4 →
         exec (.vredf g d a c k u) s = .next (spread w (u.fmt.deliver mode 0 vs (fsumEx (mode == 3) vs)) s)) ∧
       (op = 0 → es ≠ [] → mode = 4 → let ws := drawMany (4096 / w) s.cur.regs.rngs
         exec (.vredf g d a c k u) s = .next (spread w (u.fmt.deliver 4 (rngWord (ws.1.headD 0)) vs (fsumEx false vs))
           (s.modCur fun q => { q with regs := { q.regs with rngs := ws.2 } }))) ∧
       (op = 1 ∨ op = 2 → ∀ e r, es = e :: r → exec (.vredf g d a c k u) s =
         .next (spread w (r.foldl (fun x y => u.fmt.minmax (op == 1) x y) (u.fmt.minmax (op == 1) e e), 0) s))))

/-- The special functions (R185-R189): each active FP32 element, after twelve cycles; the refinement steps after five, with the
reciprocal's arithmetic; VRAND delivers the upper halves of 128 draws and a seed takes effect at the end of its cycle. -/
def Obligations.SpecialFunctions : Prop :=
  ∀ (g : Guard) (d : Fin 32) (a b : Sel) (k : Fin 8) (r : Fin 32),
    let x := fun (s : State) (j : Nat) => elem 32 (s.opV 32 0x3F800000 a) j
    let y := fun (s : State) (j : Nat) => elem 32 (s.opV 32 0x3F800000 b) j
    let or := fun (m : KReg) (f : Nat → Nat × Classes) => (List.range 128).foldl (fun (c : Classes) j => if active m 32 j then c ||| (f j).2 else c) 0
    let is := fun (i : Instr) (lat : Nat) (f : State → Nat → Nat × Classes) => ∃ v : State → VReg,
      (∀ s j, j < 128 → active (s.cur.readK k) 32 j = true → elem 32 (v s) j = (f s j).1 % 2 ^ 32) ∧
      Slotted i g fun s => (s.putV d lat (activeBits (s.cur.readK k) 32) (v s)).flags lat (or (s.cur.readK k) (f s))
    let fn := fun (i : Instr) (f : FVal → Nat × Classes) => is i 12 fun s j => f (fmtF32.decode (x s j))
    fn (.exp2 g d a k) exp2F ∧ fn (.log2 g d a k) log2F ∧ fn (.sqrt g d a k) sqrtF ∧ fn (.sin g d a k) sinF ∧ fn (.cos g d a k) cosF ∧
    fn (.tanh g d a k) tanhF ∧ fn (.sigm g d a k) sigmF ∧ is (.rcp g d a k) 12 (fun s j => rcpF (x s j)) ∧
    is (.rsq g d a k) 12 (fun s j => rsqF (x s j)) ∧ is (.rcpnr g d a b k) 5 (fun s j => nrF false (x s j) (y s j)) ∧
    is (.rsqnr g d a b k) 5 (fun s j => nrF true (x s j) (y s j)) ∧
    (∃ v : State → VReg, (∀ s j, j < 128 → elem 32 (v s) j = ((drawMany 128 s.cur.regs.rngs).1.getD j 0).toNat / 2 ^ 32) ∧
      Slotted (.vrand g d k) g fun s => (s.modCur fun q => { q with regs := { q.regs with rngs := (drawMany 128 s.cur.regs.rngs).2 } }).putV d 12
        (activeBits (s.cur.readK k) 32) (v s)) ∧
    Slotted (.vrandSeed g r) g (fun s => s.later s.cyc pEnd (.seed
      (if (s.cur.readV r).toNat % 2 ^ 64 = 0 then 0x9E3779B97F4A7C15 else BitVec.ofNat 64 (s.cur.readV r).toNat)))

/-- Exact cases of the special functions (R186): 2^n for a whole n is exact, and so is the logarithm of a power of two and the root of
a square. -/
def Claims.SpecialFunctionsAreExact : Prop :=
  (∀ n : Int, -126 ≤ n → n ≤ 127 → exp2F (fofInt n) = (((n + 127) * 2 ^ 23).toNat, 0) ∧
    log2F (.fin false 1 n) = fmtF32.round 0 0 (fofInt n)) ∧
  (∀ (m : Nat) (e : Int), m < 2 ^ 24 → -60 ≤ e → e ≤ 60 → sqrtF (.fin false (m * m) (2 * e)) = fmtF32.round 0 0 (.fin false m e))

/-! ### Engines -/

/-- The matrix, copy and chain commands at their issue (R231-R235, R242, R320, R385): late or out of order is class 0x07, a full queue
class 0x08; else the command joins its queue with the values of its registers. MCALL and MLOAD are class 0x02 in an exchange
phase (R47, R383). That a start which is both late and out of order has info 1 is the model's choice (log entry 129). -/
def Claims.EngineCommandsQueue : Prop :=
  ∀ (g : Guard) (o : BitVec 12) (a b : Fin 32) (k : Fin 8),
    let compute := fun (s : State) (t : State) => if (s.countOf s.focus.core.val).getLsbD 0 then s.trap 2 0 else t
    let is := fun (i : Instr) (q : QueueId) (y : State → W64) (f : State → State → State) =>
      Slotted i g fun s => f s (s.queued q i o (s.cur.readS a) (y s) 0)
    is (.mset g o a k) .matrix (fun _ => 0) (fun _ t => t) ∧ is (.mcall g o a b) .matrix (·.cur.readS b) compute ∧
    is (.mload g o a b) .matrix (·.cur.readS b) compute ∧ is (.cpyaSpm g o a b) .copy (·.cur.readS b) (fun _ t => t) ∧
    is (.cpyaAcc g o a b) .copy (·.cur.readS b) (fun _ t => t) ∧ is (.tlgo g o a b) .chain (·.cur.readS b) (fun _ t => t)

/-- An admitted command stands last in its queue, with its start cycle, and its start is posted for that cycle (R231, R320); the other
queues, the registers and the memories stay. -/
def Claims.AdmittedCommandsWait : Prop :=
  ∀ (s : State) (q : QueueId) (i : Instr) (o : BitVec 12) (a b : W64) (tag : BitVec 16),
    let start := if o = 0xFFF then s.cyc + 1 else s.startOf s.focus.core.val + o.toNat + s.cur.shift
    let t := s.joinQueue q i o a b tag
    t.cur.queues[q.idx] = s.cur.queues[q.idx] ++ [⟨i, a, b, start, s.cyc, s.focus.addr, s.focus.scope, tag, false⟩] ∧
    (∀ p : QueueId, p ≠ q → t.cur.queues[p.idx] = s.cur.queues[p.idx]) ∧ { t.cur with queues := s.cur.queues } = s.cur ∧
    (∀ c, c ≠ s.focus.core.val → t.core c = s.core c) ∧ { t with cores := s.cores, agenda := s.agenda } = s ∧
    t.agenda = insertItem ⟨max (3 * start) s.now, pStart, s.focus.core.val, .run { s.focus with slot := .eng } (.engineCommandStart q)⟩ s.agenda

/-- The start of the oldest command of the matrix, copy or chain queue (R231-R235, R242, R253, R437): it leaves the queue, and MSET writes
its mp register, CPYA occupies the copy engine for its rows from this cycle, MCALL begins the routine at the next cycle, MLOAD reads the
directory entry or the first plain weights in this cycle, and TLGO begins the chain two cycles later with the timing registers and the
pattern mode that wait for it. -/
def Claims.EngineCommandsStart : Prop :=
  ∀ (s : State) (q : QueueId) (cmd : Cmd) (rest : List Cmd),
    (s.cur.queues[q.idx] = [] → exec (.engineCommandStart q) s = .next s) ∧
    (s.cur.queues[q.idx] = cmd :: rest →
      let c := s.focus.core.val
      let s' := { s.modCur fun k => { k with queues := k.queues.set q.idx rest } with
        focus := { s.focus with slot := .eng, addr := cmd.addr, scope := cmd.scope } }
      let occupied := fun (busyTo : Nat) => s'.modCur fun k => { k with mx := { k.mx with began := s.cyc, busyTo := busyTo } }
      let free := s.exchange c = false ∧ s.mx.seq = none ∧ s.mx.busyTo ≤ s.cyc
      (∀ g o a k, cmd.instr = .mset g o a k → ∃ t, exec (.engineCommandStart q) s = .next t ∧
        t.cur.regs.mp = s.cur.regs.mp.set k cmd.a ∧
        { t.cur with regs := { t.cur.regs with mp := s.cur.regs.mp }, marks := s.cur.marks } = s'.cur) ∧
      (∀ g o a b (toSpm : Bool), cmd.instr = (if toSpm then .cpyaSpm g o a b else .cpyaAcc g o a b) → s.mx.copyFree ≤ s.cyc →
        let p := copyOp toSpm cmd.a cmd.b cmd.addr
        p.fmt < 12 → p.addr % 64 = 0 → p.addr + (p.n - 1) * p.pitch + 16 * codeWidth p.fmt ≤ 0x400000 →
        exec (.engineCommandStart q) s = .next ((s'.modCur fun k => { k with mx := { k.mx with copyBegan := s.cyc, copyFree := s.cyc + p.n } }).at
          c s.cyc pCopyRead (.copyRow p 0))) ∧
      (∀ g o a b, cmd.instr = .mcall g o a b → free → s.cur.marks = [] →
        let e := (Sp.get 0 s.mx.rtab (cmd.a.toNat % 256)).toNat
        e / 2 ^ 13 % 2 = 1 → ∃ t, exec (.engineCommandStart q) s = .next t ∧ t.cur.queues = s.cur.queues.set q.idx rest ∧
          t.mx.seq = some ⟨e % 2 ^ 13, s.cyc, s.cyc + 1, cmd.a.toNat % 256, cmd.addr, 0, 0, 0, 0, 0, 0, false⟩ ∧
          (∀ i : Fin 8, t.mx.ma[i].toNat = s.cur.regs.mp[i].toNat % 2 ^ 32) ∧
          (∀ i : Fin 4, t.mx.mc[i].toNat = if i = 0 then cmd.b.toNat % 2 ^ 32 else 0) ∧
          t.agenda = insertItem ⟨max (3 * (s.cyc + 1)) s.now, pEngine, c, .seqStep⟩ s.agenda) ∧
      (∀ g o a b, cmd.instr = .mload g o a b → free → cmd.b.getLsbD 2 = false →
        exec (.engineCommandStart q) s = .next ((occupied (s.cyc + 5)).at c s.cyc pPort
          (.port (.entry ⟨cmd.b.getLsbD 0, cmd.b.getLsbD 1, true, 0, 0, 0, [], 0, false, true⟩ cmd.a.toNat) cmd.addr))) ∧
      (∀ g o a b, cmd.instr = .mload g o a b → free → cmd.b.getLsbD 2 = true →
        let fmt := cmd.b.toNat / 2 ^ 3 % 2 ^ 4
        let n := plainBytes fmt
        n ≠ 0 → cmd.a.toNat % 64 = 0 → cmd.a.toNat + 12288 * n ≤ 0x400000 →
        exec (.engineCommandStart q) s = .next ((occupied (s.cyc + 6 * n + 4)).at c s.cyc pPort
          (.port (.plain ⟨cmd.b.getLsbD 0, !codeFloat fmt, true, cmd.a.toNat, 0, fmt, [], 0, false, false⟩ 0) cmd.addr))) ∧
      (∀ g o a b, (cmd.instr = .mcall g o a b ∨ cmd.instr = .mload g o a b) → ¬ free → ∃ e : Err,
        exec (.engineCommandStart q) s = .next (s'.raiseOn c e) ∧ (e.cls, e.info) = (if s.exchange c then (2, 1) else (8, 2))) ∧
      (∀ g o a b, cmd.instr = .tlgo g o a b → s.ch.run = none → s.cur.marks = [] → ∃ t, exec (.engineCommandStart q) s = .next t ∧
        t.cur.queues = s.cur.queues.set q.idx rest ∧ (∀ i : Fin 4, t.ch.rowb[i] = 0) ∧ (∀ i : Fin 2, t.ch.lc[i] = 0) ∧
        t.ch.run = some ⟨cmd.a.toNat % 2 ^ 14, 3 * (s.cyc + 2), s.cyc, cmd.issued, cmd.addr, none, false, none, cmd.scope, []⟩ ∧
        t.ch.ptr[(0 : Fin 2)] = 64 * (cmd.b.toNat % 2 ^ 16) ∧ t.ch.ptr[(1 : Fin 2)] = 64 * (cmd.b.toNat / 2 ^ 16 % 2 ^ 16) ∧
        t.ch.tim = s.ch.timNew ∧ t.cur.phy.pat = s.cur.phy.ctl.getLsbD 0 ∧
        (∀ (p : Fin 2) (l : Fin 38), (t.cur.phy.lanes[p][l]).rdly = (s.cur.phy.lanes[p][l]).rnew ∧
          (t.cur.phy.lanes[p][l]).wdly = (s.cur.phy.lanes[p][l]).wnew) ∧
        t.agenda = insertItem
          ⟨3 * (s.cyc + 2) + (Sp.get 0 s.ch.mem (cmd.a.toNat % 2 ^ 14)).toNat % 2 ^ 11, pChain, c, .chain⟩ s.agenda) ∧
      (∀ g o a b r, cmd.instr = .tlgo g o a b → s.ch.run = some r →
        exec (.engineCommandStart q) s = .next (s'.raiseOn c (Err.plain 8 4 8 cmd.addr))))

/-- The start of a remote command (R282-R284, R288, R289, R334, R410, R411, R413, R425): it is an operation of the package from this cycle;
a PUT or RACC reads its source from this cycle on, and anything else leaves for its targets; a command's local reuse is an event of the
next cycle; a WCOMPL or WUNLOCK gives its handle's tag up; all but WSTART and WLOCK time out 4,800 cycles later; a target that cannot be
reached is rejected at once with code 10. A group member outside the scope is class 0x14, info 6, and a busy source reader info 7; that info 6
comes before info 7 is the model's choice (log entry 107), and so is that a PUT.MC without any target delivers its events without an error
(log entry 108). -/
def Claims.RemoteCommandsStart : Prop :=
  ∀ (s : State) (cmd : Cmd) (rest : List Cmd) (kd : OpKind) (g : Guard) (o : BitVec 12) (a b : Fin 32),
    s.cur.queues[QueueId.remote.idx] = cmd :: rest →
    (kd, cmd.instr) ∈ ([(.get, .get g o a b), (.put, .put g o a b), (.putMc, .putMc g o a b), (.racc, .racc g o a b),
      (.wstart, .wstart g o a b), (.wcompl, .wcompl g o a b), (.wlock, .wlock g o a b), (.wunlock, .wunlock g o a b)] :
        List (OpKind × Instr)) →
    let c := s.focus.core.val
    let s' := { s.modCur fun k => { k with queues := k.queues.set QueueId.remote.idx rest } with
      focus := { s.focus with slot := .eng, addr := cmd.addr, scope := cmd.scope } }
    let starts := exec (.engineCommandStart .remote) s
    let targets := s.targetsOf cmd
    let reads := kd = .put ∨ kd = .putMc ∨ kd = .racc
    let near := ∀ t ∈ targets, s.inScope c (t / 256) (t % 256) cmd.scope = true
    let down := targets.filter fun t => s.unreachable (t / 256)
    let op := s.opOf kd cmd down
    let cycles := (op.n * (if kd = .racc ∧ op.type = 2 then 2 else 4) + 255) / 256
    let h : Fin 16 := ⟨cmd.b.toNat / 2 ^ 42 % 2 ^ 4, Nat.mod_lt _ (by decide)⟩
    let due := fun (t : State) (cyc prio : Nat) (ev : Ev) => (⟨max (3 * cyc) s.now, prio, c, ev⟩ : Item) ∈ t.agenda
    (kd = .putMc → ¬ near → starts = .next (s'.raiseOn c (Err.plain 0x14 6 8 cmd.addr))) ∧
    ((kd = .putMc → near) → reads → s.cyc < s.cur.srcFree → starts = .next (s'.raiseOn c (Err.plain 0x14 7 8 cmd.addr))) ∧
    ((kd = .putMc → near) → (reads → s.cur.srcFree ≤ s.cyc) → ∃ t, starts = .next t ∧ t.nextId = s.nextId + 1 ∧
      t.cur.queues = s.cur.queues.set QueueId.remote.idx rest ∧ t.cur.regs = s.cur.regs ∧ t.cur.spm = s.cur.spm ∧ t.cur.dmem = s.cur.dmem ∧
      (∃ x ∈ t.ops, { x with tag := op.tag } = op) ∧ (kd ≠ .wstart → kd ≠ .wlock → t.ops = s.ops ++ [op]) ∧
      (t.cur.handles[h]).tagv = (if kd = .wcompl ∨ kd = .wunlock then false else (s.cur.handles[h]).tagv) ∧
      (∀ x ∈ down, due t s.cyc pNet (.run { argFocus c s.nextId with lits := [BitVec.ofNat 32 x] } (.visibilityEvent 10))) ∧
      (targets = [] → due t s.cyc pNet (.run (argFocus c s.nextId) (.visibilityEvent 0))) ∧
      (kd ≠ .wstart → kd ≠ .wlock → (down = [] ∨ down.length < targets.length) →
        due t (s.cyc + 4800) pEnd (.run (argFocus c s.nextId) .remoteTimeout)) ∧
      (kd.command = true → due t (s.cyc + 1) pNet (.run (argFocus c s.nextId) .localReuseEvent)) ∧
      (reads → (down = [] ∨ down.length < targets.length) → t.cur.srcFree = s.cyc + cycles ∧
        (if cycles = 0 then due t s.cyc pNet (.run (argFocus c s.nextId) .localReuseEvent) else due t s.cyc pRead (.source s.nextId 0))) ∧
      ((kd.command = true ∨ kd = .get ∨ cycles = 0) → ∀ x ∈ targets, x ∉ down → s.isSelf (x / 256) = true → ∃ n, s.cyc < n ∧
        (⟨max (3 * n) s.now, pNet, x % 256, .run (argFocus (x % 256) s.nextId) .remoteOperationReceipt⟩ : Item) ∈ t.agenda))

/-- The start of a COLL (R326, R327, R412, R426): it leaves its queue, and the member's part, with a number in the order of the core's
operations, joins the call of its group and number that has not begun and lacks the core, or is the first of a new call; the call times
out 2^20 cycles later. A malformed parameter block is class 0x14, info 11. That parts are matched by group and number among the cores of this
device is the model's choice (log entry 15). -/
def Claims.CollectivesStart : Prop :=
  ∀ (s : State) (cmd : Cmd) (rest : List Cmd) (g : Guard) (o : BitVec 12) (a : Fin 32) (h : Fin 16),
    s.cur.queues[QueueId.coll.idx] = cmd :: rest → cmd.instr = .coll g o a h → s.cur.marks = [] →
    let c := s.focus.core.val
    let s' := { s.modCur fun k => { k with queues := k.queues.set QueueId.coll.idx rest } with
      focus := { s.focus with slot := .eng, addr := cmd.addr, scope := cmd.scope } }
    let starts := exec (.engineCommandStart .coll) s
    let block := BitVec.ofNat 1024 (s.cur.dmem.le cmd.a.toNat 128)
    let group := block.toNat / 2 ^ 16 % 2 ^ 16
    let seq := BitVec.ofNat 16 (block.toNat / 2 ^ 32)
    let m : CollMember := ⟨c, some h, block, s.cyc, (s.countOf c).toNat, s.cur.task, s.nextId⟩
    let open_ := s.calls.find? fun x => x.group == group && x.seq == seq && x.stage == 0 && !(x.members.any (·.core == c))
    let due := fun (t : State) (id : Nat) =>
      (⟨max (3 * (s.cyc + 2 ^ 20)) s.now, pEnd, 0, .run (argFocus 0 id) .collectiveTimeout⟩ : Item) ∈ t.agenda
    (s'.malformedCall c block = true → starts = .next (s'.raiseOn c (Err.plain 0x14 11 8 cmd.addr))) ∧
    (s'.malformedCall c block = false → open_ = none → ∃ t, starts = .next t ∧ t.nextId = s.nextId + 2 ∧
      t.cur.queues = s.cur.queues.set QueueId.coll.idx rest ∧
      t.calls = s.calls ++ [⟨s.nextId + 1, group, seq, [m], 0, [], []⟩] ∧ due t (s.nextId + 1)) ∧
    (∀ y, s'.malformedCall c block = false → open_ = some y → ∃ t, starts = .next t ∧ t.nextId = s.nextId + 1 ∧
      t.cur.queues = s.cur.queues.set QueueId.coll.idx rest ∧
      t.calls = s.calls.map (fun x => if x.id = y.id then { x with members := x.members ++ [m] } else x) ∧ due t y.id)

/-- The remote commands and COLL at their issue (R279, R282, R325, R410, R411): class 0x02 in a compute phase, the queue's faults, then
class 0x14 with the first illegal use; else the command is admitted, and counts on its handle from the next cycle (R277). That of several
illegal uses the lowest sub-code is recorded is the model's choice (log entry 107), and so is the order of infos 1 and 2 of class 0x07 (log
entry 129). -/
def Claims.RemoteCommandsQueue : Prop :=
  ∀ (g : Guard) (o : BitVec 12) (a b : Fin 32) (h : Fin 16) (s : State), s.guard g = true →
    ((s.countOf s.focus.core.val).getLsbD 0 = false → ∀ i : Instr, (i = .get g o a b ∨ i = .put g o a b ∨ i = .putMc g o a b ∨
      i = .racc g o a b ∨ i = .wstart g o a b ∨ i = .wcompl g o a b ∨ i = .wlock g o a b ∨ i = .wunlock g o a b ∨ i = .coll g o a h) →
      exec i s = .next (s.trap 2 0)) ∧
    ((s.countOf s.focus.core.val).getLsbD 0 = true → s.cur.replayed ≤ s.cur.opsLeft →
      let x := s.cur.readS a
      let y := s.cur.readS b
      let hd := s.cur.handles[handleOf y]
      let tag := if hd.tagv then hd.tag else BitVec.ofNat 16 ((s.countOf s.focus.core.val).toNat / 2)
      let go := fun (i : Instr) (k : OpKind) => exec i s = .next (match s.queueFault .remote o with
        | some f => s.trap f.1 f.2
        | none => match s.illegal k x y with
          | some n => s.trap 0x14 n
          | none => (s.joinQueue .remote i o x y tag).later (s.cyc + 1) pNet (.countHandle (handleOf y)))
      go (.get g o a b) .get ∧ go (.put g o a b) .put ∧ go (.putMc g o a b) .putMc ∧ go (.racc g o a b) .racc ∧
      go (.wstart g o a b) .wstart ∧ go (.wcompl g o a b) .wcompl ∧ go (.wlock g o a b) .wlock ∧ go (.wunlock g o a b) .wunlock ∧
      exec (.coll g o a h) s = .next (match s.queueFault .coll o with
        | some f => s.trap f.1 f.2
        | none => if s.cur.handles[h].nr = 255 ∨ s.cur.handles[h].nv = 255 then s.trap 0x14 4
          else if x.toNat % 64 ≠ 0 ∨ 0x40000 < x.toNat + 128 then s.trap 0x14 10
          else (s.joinQueue .coll (.coll g o a h) o x 0 0).later (s.cyc + 1) pNet (.countHandle h)))

/-- The window commands of the target, HTEST and LAUNCH at their issue (R276, R285, R286, R291, R318, R393): WPOST opens its entry at the
next cycle; WWAIT waits for its entry, which closes at once with nothing left to count; an entry that is uncorrectable is class 0x1A,
info 1, to either; HTEST reads the handle's image and with it the completions behind it (R298, R300), and its clear takes effect at the
end of the cycle; LAUNCH's record is read one cycle later. -/
def Claims.WindowCommandsAtIssue : Prop :=
  ∀ (g : Guard) (a d : Fin 32) (h : Fin 16) (clr : Bool) (s : State), s.guard g = true →
    let e : Fin 32 := ⟨(s.cur.readS a).toNat % 32, Nat.mod_lt _ (by decide)⟩
    let w := s.cur.win[e]
    let x := s.cur.handles[h]
    let img := BitVec.ofNat 64 ((if x.nr = 0 then 1 else 0) + (if x.nv = 0 then 2 else 0) + (if x.tagv then 4 else 0) +
      2 ^ 4 * x.err.toNat + 2 ^ 8 * x.nr.toNat + 2 ^ 16 * x.nv.toNat + 2 ^ 24 * x.tag.toNat)
    ((s.countOf s.focus.core.val).getLsbD 0 = false → exec (.wpost g a) s = .next (s.trap 2 0) ∧ exec (.wwait g a) s = .next (s.trap 2 0)) ∧
    ((s.countOf s.focus.core.val).getLsbD 0 = true → s.cur.replayed ≤ s.cur.opsLeft →
      (∃ m ∈ s.cur.marks, m.store = .window ∧ m.hard = true ∧ m.unit = e.val) → ∃ f : Err, f.cls = 0x1A ∧ f.info = 1 ∧
        f.loc = BitVec.ofNat 32 e.val ∧ exec (.wpost g a) s = .next (s.raiseOn s.focus.core.val f) ∧
        exec (.wwait g a) s = .next (s.raiseOn s.focus.core.val f)) ∧
    ((s.countOf s.focus.core.val).getLsbD 0 = true → s.cur.replayed ≤ s.cur.opsLeft →
      (∀ m ∈ s.cur.marks, m.store = .window → m.unit ≠ e.val) →
      exec (.wpost g a) s = .next (if w.valid = true ∧ w.mode = 1 ∧ w.state = 0 ∧ w.applying = false then s.later (s.cyc + 1) pStart (.wpost e)
        else s.trap 0x14 8) ∧
      (¬(w.valid = true ∧ w.mode = 1 ∧ w.state = 1) → exec (.wwait g a) s = .next (s.trap 0x14 9)) ∧
      (w.valid = true → w.mode = 1 → w.state = 1 →
        let t := s.modCur fun k => { k with issued := k.issued.map fun i => { i with waits := i.waits ++ [.window e] } }
        (w.count ≠ 0 → exec (.wwait g a) s = .next (t.modCur fun k => { k with win := k.win.set e { k.win[e] with wwait := true } })) ∧
        (w.count = 0 → ∃ u, exec (.wwait g a) s = .next u ∧ (u.cur.win[e]).state = 0 ∧ u.cur.issued = t.cur.issued ∧ u.cur.regs = s.cur.regs))) ∧
    exec (.htest g d h clr) s = .next (match s.refusal d 1 img with
      | some n => s.trap 3 n
      | none =>
        let t := (s.result 1 (.s d img)).sees s.focus.core.val (fun l => l.handle == some h)
          ((s.cur.loose.filter fun l => l.handle == some h && l.done.any (· ≤ s.cyc)).flatMap (·.origins))
        if clr then t.later s.cyc pEnd (.clearErr h x.err) else t) ∧
    (s.cur.replayed ≤ s.cur.opsLeft → exec (.launch g a d) s = .next (if d = 30 then s.trap 3 2
      else s.later (s.cyc + 1) pRead (.launchRead s.focus (s.cur.readS a).toNat d)))

/-- The record read of a LAUNCH, one cycle after its issue (R309, R318, R319): status 3 for a record outside DMEM or not at a multiple of
64; else the 128 bytes that DMEM holds now, with the core's partition, are a record: status 2 where it is malformed, 1 where its queue holds
64 records, and 0 where it joins its queue. The status lands at the next cycle and raises no trap. A quarantined partition answers 1
whatever the record (R364); that a lease which names a channel out of service answers 6 (R409) to LAUNCH too is the model's choice (log
entry 38). -/
def Claims.LaunchesEnqueue : Prop :=
  ∀ (s : State) (it : Item) (rest : List Item) (f : Focus) (a : Nat) (d : Fin 32), s.agenda = it :: rest → it.ev = .launchRead f a d →
    it.core < 256 → (s.core it.core).marks = [] → s.marks = [] →
    let s0 := { s with now := it.tick, agenda := rest, focus := f }
    let part := (s.core it.core).part.val
    let x := (s.core it.core).dmem.le a 128
    let w := BitVec.ofNat 1024 (x - x % 8 + part)
    let q := 4 * part + w.toNat / 2 ^ 3 % 4
    let out := (s0.leases w).any (fun l => (l.cores (lnrGang w)).any s0.channelOut) = true
    let answers := fun (st : Nat) => ∃ t, step s = .next t ∧ (t.core it.core).errs = (s.core it.core).errs ∧
      (t.core it.core).regs = (s.core it.core).regs ∧ (t.core it.core).dmem = (s.core it.core).dmem ∧
      (⟨3 * (it.tick / 3 + 1), pLand, it.core, .land rEngine (.s d (BitVec.ofNat 64 st))⟩ : Item) ∈ t.agenda ∧
      (∀ p, p ≠ q → Sp.get [] t.lqs p = Sp.get [] s.lqs p) ∧
      Sp.get [] t.lqs q = Sp.get [] s.lqs q ++ (if st = 0 then [s.nextId] else []) ∧ (st ≠ 0 → t.records = s.records)
    ((a % 64 ≠ 0 ∨ 0x3FFFF < a + 127) → answers 3) ∧
    (a % 64 = 0 → a + 127 ≤ 0x3FFFF →
      (s.shut.contains part = true → answers 1) ∧
      (s.shut.contains part = false → s0.malformed w part = true → answers 2) ∧
      (s.shut.contains part = false → s0.malformed w part = false → out → answers 6) ∧
      (s.shut.contains part = false → s0.malformed w part = false → ¬ out → 64 ≤ (Sp.get [] s.lqs q).length → answers 1) ∧
      (s.shut.contains part = false → s0.malformed w part = false → ¬ out → (Sp.get [] s.lqs q).length < 64 → answers 0))

/-- A replayed command of a rerun does not act again (R380): a remote command, COLL, WPOST and WWAIT only advance through the replay list,
and LAUNCH delivers its recorded status. -/
def Claims.RerunsActOnce : Prop :=
  ∀ (g : Guard) (o : BitVec 12) (a b d : Fin 32) (h : Fin 16) (s : State), s.guard g = true → s.cur.opsLeft < s.cur.replayed →
    let t := s.modCur fun k => { k with opsLeft := k.opsLeft + 1 }
    ((s.countOf s.focus.core.val).getLsbD 0 = true →
      ∀ i : Instr, (i = .get g o a b ∨ i = .put g o a b ∨ i = .putMc g o a b ∨ i = .racc g o a b ∨ i = .wstart g o a b ∨
        i = .wcompl g o a b ∨ i = .wlock g o a b ∨ i = .wunlock g o a b ∨ i = .coll g o a h ∨ i = .wpost g a ∨ i = .wwait g a) →
        exec i s = .next t) ∧
    (d ≠ 30 → exec (.launch g a d) s = .next (t.result 2 (.s d (BitVec.ofNat 64 (s.cur.replay.getD s.cur.opsLeft (0, 0)).2))))

/-- The arrivals and the scope barriers (R34-R36, R49-R51): CADV and CADV.END record the fence mask, the class and the budget of their
registers, and the count of the arrival is posted; a barrier is recorded, and the core waits for its release. -/
def Obligations.ArrivalsAndBarriers : Prop :=
  ∀ (g : Guard) (a b : Fin 32) (s : State), s.guard g = true →
    let c := s.focus.core.val
    let y := (s.cur.readS b).toNat
    let arr := fun (ends : Bool) => (⟨s.cyc, (s.cur.readS a).setWidth 32, y % 16, y / 256 % 2 ^ 20, ends, none, false⟩ : Arrival)
    let counts : Item := ⟨max (3 * s.cyc) s.now, pEnd, c, .run (coreFocus c) .arrivalCount⟩
    (∃ t, exec (.cadv g a b) s = .next t ∧ t.cur = { s.cur with arrival := some (arr false) } ∧ counts ∈ t.agenda) ∧
    (∃ t, exec (.cadvEnd g a b) s = .next t ∧ t.cur = { s.cur with arrival := some (arr true) } ∧ counts ∈ t.agenda) ∧
    (∃ t, exec (.barQuad g) s = .next t ∧
      t.cur = { s.cur with barQ := true, issued := s.cur.issued.map fun i => { i with waits := i.waits ++ [.barrier false] } }) ∧
    (∃ t, exec (.barDie g) s = .next t ∧
      t.cur = { s.cur with barD := true, issued := s.cur.issued.map fun i => { i with waits := i.waits ++ [.barrier true] } }) ∧
    (∀ die, exec (.barrierRelease die) s = .next (s.modCur fun k =>
      { k with issued := k.issued.map fun i => { i with waits := i.waits.filter (· != .barrier die) } }))

/-! ### Micro-steps -/

/-- The register and sequencing steps (R217-R220, R222): they touch ma or mc alone, and the next step issues at the next cycle, MNOP n
cycles later and MSYNC at the latest of the events of its mask; MEND ends the routine with the steps issued, and the engine is free. -/
def Obligations.MicroStepsSequence : Prop :=
  ∀ (k : Fin 8) (c : Fin 4) (imm : BitVec 32) (n : BitVec 16) (target : BitVec 13) (mask : BitVec 4) (s : State) (q : Seq),
    s.mx.seq = some q →
    let goes := fun (i : Instr) (m : Matrix) (step cyc : Nat) => exec i s = .next
      ((s.modCur fun k => { k with mx := { m with seq := some { q with step := step, last := s.cyc, next := cyc } } }).at
        s.focus.core.val cyc pEngine .seqStep)
    let ends := [(0, q.sw0), (1, q.sw1), (2, q.gLand), (3, q.aLand)].filterMap fun e => if mask.getLsbD e.1 then some (e.2 : Nat) else none
    goes (.mnop n) s.mx (q.step + 1) (s.cyc + 1 + n.toNat) ∧
    goes (.mseta k imm) { s.mx with ma := s.mx.ma.set k imm } (q.step + 1) (s.cyc + 1) ∧
    goes (.madda k imm) { s.mx with ma := s.mx.ma.set k (s.mx.ma[k] + imm) } (q.step + 1) (s.cyc + 1) ∧
    goes (.msetc c imm) { s.mx with mc := s.mx.mc.set c imm } (q.step + 1) (s.cyc + 1) ∧
    goes (.mloop c target) { s.mx with mc := s.mx.mc.set c (if 1 < s.mx.mc[c].toNat then s.mx.mc[c] - 1 else 0) }
      (if 1 < s.mx.mc[c].toNat then target.toNat else q.step + 1) (s.cyc + 1) ∧
    goes (.msync mask) s.mx (q.step + 1) (ends.foldl max (s.cyc + 1)) ∧
    (∃ t e, exec .mend s = .next t ∧ t.mx = { s.mx with seq := some { q with stopped := true }, busyTo := e } ∧ s.cyc < e ∧
      q.portFree ≤ e ∧ q.arrayFree ≤ e ∧ q.sw0 ≤ e ∧ q.sw1 ≤ e ∧ q.gLand ≤ e ∧ q.aLand ≤ e) ∧
    exec .routineEnd s = .next (s.modCur fun k => { k with mx := { k.mx with seq := none, busyTo := s.cyc } })

/-- The steps of the port unit and of the array (R218, R223-R229): a legal use occupies its unit for its cycles, and its first cycle is
posted for this one; an ACLR's groups land from six cycles on; an illegal MMA or width is class 0x0B. -/
def Claims.MicroStepsStart : Prop :=
  ∀ (s : State) (q : Seq), s.mx.seq = some q →
    let at_ := fun (k : Fin 8) => s.mx.ma[k].toNat
    let c := s.focus.core.val
    let next := fun (t : State) (q' : Seq) => t.mx.seq = some { q' with step := q.step + 1, last := s.cyc, next := s.cyc + 1 } ∧
      { t.mx with seq := s.mx.seq } = s.mx ∧ (⟨max (3 * (s.cyc + 1)) s.now, pEngine, c, .seqStep⟩ : Item) ∈ t.agenda
    let now := fun (t : State) (prio : Nat) (ev : Ev) => (⟨max (3 * s.cyc) s.now, prio, c, ev⟩ : Item) ∈ t.agenda
    let stops := fun (i : Instr) (info : Nat) => ∃ t e q', exec i s = .next t ∧ t.cur.errs = s.cur.errs ++ [e] ∧ e.cls = 0x0B ∧ e.info = info ∧
      t.mx.seq = some q' ∧ q'.stopped = true
    (∀ (bs is a : Fin 8) (wd : Fin 4) (stride : Bool) (aoff nm : BitVec 11),
      let w := gatherWidth wd
      let g : Gather := ⟨at_ bs, w, if stride then some (sgn 32 (at_ is)) else none, at_ a + aoff.toNat, nm.toNat + 1, at_ is, []⟩
      let bad := wd = 3 ∨ at_ bs % 16 ≠ 0 ∨ (stride = true ∧ sgn 32 (at_ is) % 16 ≠ 0) ∨
        (stride = false ∧ (at_ is % 64 ≠ 0 ∨ 0x400000 < at_ is + 2 * (nm.toNat + 1))) ∨
        (stride = true ∧ ∃ k, k ≤ nm.toNat ∧ 0x400000 < g.rowAddr k + 12 * w)
      let cycles := (if stride then 0 else (nm.toNat + 1024) / 1024) + (nm.toNat + 128 / w) / (128 / w)
      (bad → stops (.agath bs is wd stride a aoff nm) 4) ∧
      (¬ bad → ∃ t, exec (.agath bs is wd stride a aoff nm) s = .next t ∧
        next t { q with portFree := s.cyc + cycles, gLand := s.cyc + cycles + 2 } ∧
        now t pPort (.port (if stride then .gatherRows g 0 else .gatherList g 0) s.focus.addr))) ∧
    (∀ (d : Fin 8) (j : BitVec 16) (int h : Bool), ∃ t, exec (.wld d j int h) s = .next t ∧ next t { q with portFree := s.cyc + 1 } ∧
      now t pPort (.port (.entry ⟨h, int, false, 0, 0, 0, [], 0, false, true⟩ (((at_ d : Int) + 8 * j.toInt) % 2 ^ 32).toNat) s.focus.addr)) ∧
    (∀ (d : Fin 8) (fmt : Fin 16) (h : Bool),
      let n := 6 * plainBytes fmt.val
      let bad := plainBytes fmt.val = 0 ∨ at_ d % 64 ≠ 0 ∨ 0x400000 < at_ d + 12288 * plainBytes fmt.val
      (bad → stops (.wldp d fmt h) 6) ∧
      (¬ bad → ∃ t, exec (.wldp d fmt h) s = .next t ∧
        next t (if h then { q with sw1 := s.cyc + n + 4, portFree := s.cyc + n } else { q with sw0 := s.cyc + n + 4, portFree := s.cyc + n }) ∧
        now t pPort (.port (.plain ⟨h, !codeFloat fmt.val, false, at_ d, 0, fmt.val, [], 0, false, false⟩ 0) s.focus.addr))) ∧
    (∀ (k : Fin 8) (coff nm : BitVec 11), let groups := (nm.toNat + 32) / 32
      ∃ t, exec (.aclr k coff nm) s = .next t ∧ next t { q with arrayFree := s.cyc + groups, aLand := s.cyc + groups + 5 } ∧
        ∀ r, r ≤ nm.toNat → ∀ j, j < 128 → ∃ ups, ((at_ k + coff.toNat + r) % 2048 * 128 + j, AccUpd.clear) ∈ ups ∧
          (⟨max (3 * (s.cyc + r / 32 + 6)) s.now, pLand, c, .acc none ups⟩ : Item) ∈ t.agenda) ∧
    (∀ (k a : Fin 8) (coff aoff nm : BitVec 11) (afmt : Fin 16) (x2 h : Bool),
      let half := if h then s.mx.half1 else s.mx.half0
      let rho := 64 / codeWidth afmt.val * (if x2 then 2 else 1)
      let n := nm.toNat + 1
      let o : MmaOp := ⟨q.step, s.cyc, at_ k + coff.toNat, at_ a + aoff.toNat, afmt.val, x2, h, n⟩
      (mmaBad half afmt.val x2 = false → ∃ t, exec (.mma k coff a aoff afmt x2 h nm) s = .next t ∧
        next t { q with arrayFree := s.cyc + (n + rho - 1) / rho, aLand := s.cyc + (n + rho - 1) / rho + 5 } ∧ now t pRead (.array o 0 s.focus.addr)) ∧
      (mmaBad half afmt.val x2 = true → stops (.mma k coff a aoff afmt x2 h nm) 7))

/-- The array and the copy engine at their later cycles (R120, R122, R212, R213, R227, R228, R236, R237), at a core without soft errors and
unordered writes. An array cycle forms, of each of its rows and each column with a present weight, the sums of the half, and they enter
the accumulators six cycles later; a clear writes 0. A row of a CPYA converts 128 accumulators into SPM, or 128 elements of SPM into
accumulators, four cycles later; its clear lands one cycle later; a copy-engine write gives way to one of the array in its cycle. Every
other accumulator, and the rest of the core, stays. That a row in SR mode draws its words at the cycle in which it is read is the model's
reading (log entry 74). -/
def Claims.AccumulatorsChange : Prop :=
  ∀ (s : State) (it : Item) (rest : List Item), s.agenda = it :: rest → it.core < 256 →
    let c := it.core
    let k := s.core c
    let m := k.mx
    let cyc := it.tick / 3
    let works := fun (P : State → Core → Prop) => ∃ t, step s = .next t ∧ (∀ d, d ≠ c → t.core d = s.core d) ∧ P t (t.core c)
    let due := fun (t : State) (n prio : Nat) (ev : Ev) => (⟨3 * (cyc + n), prio, c, ev⟩ : Item) ∈ t.agenda
    k.marks = [] → k.loose = [] →
    (∀ o n addr, it.ev = .array o n addr →
      let h := if o.half then m.half1 else m.half0
      let w := codeWidth o.afmt
      let r := 64 / w * (if o.x2 then 2 else 1)
      let a := fun (i p : Nat) => m.aElem w ((o.a0 + i) % (98304 / (12 * w))) p
      let mine := fun (i j : Nat) => r * n ≤ i ∧ i < r * (n + 1) ∧ i < o.n ∧ j < 128 ∧ h.column j ≠ []
      mmaBad h o.afmt o.x2 = false → works fun t k' => k' = k ∧ (r * (n + 1) < o.n → due t 1 pRead (.array o (n + 1) addr)) ∧
        ∃ ups : List (Nat × AccUpd), due t 6 pLand (.acc (some (o, n, addr)) ups) ∧
          (∀ i j, mine i j → ((o.c0 + i) % 2048 * 128 + j, if h.int then AccUpd.i (intSum (fun p => sgn w (a i p)) (h.column j))
            else AccUpd.f (floatGroups (fun p => decodeCode o.afmt (a i p)) (h.column j))) ∈ ups) ∧
          ∀ u ∈ ups, ∃ i j, mine i j ∧ u.1 = (o.c0 + i) % 2048 * 128 + j) ∧
    (∀ src ups, it.ev = .acc src ups → works fun _ k' =>
      { k' with mx := { k'.mx with acc := m.acc, accWrote := m.accWrote }, accRegion := k.accRegion, verify := k.verify } = k ∧
      (∀ xs i u ys, ups = xs ++ (i, u) :: ys → (∀ e ∈ ys, e.1 ≠ i) → Sp.get false k'.accRegion i = true ∧
        Sp.get 0 k'.mx.acc i = match u with
          | .f groups => groups.foldl (fun x g => BitVec.ofNat 32 (fmtF32.add x.toNat g.toNat).1) (Sp.get 0 m.acc i)
          | .i x => Sp.get 0 m.acc i + x
          | .clear => 0) ∧
      ∀ i, (∀ e ∈ ups, e.1 ≠ i) → Sp.get 0 k'.mx.acc i = Sp.get 0 m.acc i ∧ Sp.get false k'.accRegion i = Sp.get false k.accRegion i) ∧
    (∀ els, it.ev = .copyAcc els → works fun _ k' =>
      { k' with mx := { k'.mx with acc := m.acc, accWrote := m.accWrote }, accRegion := k.accRegion, verify := k.verify } = k ∧
      (∀ xs i x ys, els = xs ++ (i, x) :: ys → (∀ e ∈ ys, e.1 ≠ i) → (∀ old, (cyc, i, old) ∉ m.accWrote) →
        Sp.get 0 k'.mx.acc i = x ∧ Sp.get false k'.accRegion i = true) ∧
      ∀ i, ((∀ e ∈ els, e.1 ≠ i) ∨ ∃ old, (cyc, i, old) ∈ m.accWrote) → Sp.get 0 k'.mx.acc i = Sp.get 0 m.acc i) ∧
    (∀ o n, it.ev = .copyRow o n →
      let row := (o.row0 + n) % 2048
      let a := o.addr + n * o.pitch
      let w := codeWidth o.fmt
      let acc := if o.int then 5 else 0
      let drawn := drawMany 128 k.regs.rngs
      let word := fun (j : Nat) => if o.mode = 4 then rngWord (drawn.1.getD j 0) else 0
      works fun t k' => k' = (if o.mode = 4 then { k with regs := { k.regs with rngs := drawn.2 } } else k) ∧
        (n + 1 < o.n → due t 1 pCopyRead (.copyRow o (n + 1))) ∧
        (o.toSpm = true → (o.clr = true → due t 1 pCopyLand (.copyAcc ((List.range 128).map fun j => (row * 128 + j, 0)))) ∧
          ∃ bs : List Byte, bs.length = 16 * w ∧ due t 4 pCopySpm (.copySpm (addressed a bs)) ∧ ∀ j, j < 128 →
            ofLe bs / 2 ^ (j * w) % 2 ^ w = (cvt acc o.fmt o.mode o.scale (word j) (Sp.get 0 m.acc (row * 128 + j)).toNat).1 % 2 ^ w) ∧
        (o.toSpm = false → due t 4 pCopyLand (.copyAcc ((List.range 128).map fun j => (row * 128 + j,
          BitVec.ofNat 32 (cvt o.fmt acc o.mode o.scale (word j) (k.spm.le a (16 * w) / 2 ^ (j * w) % 2 ^ w)).1))))) ∧
    (∀ bs, it.ev = .copySpm bs → works fun _ k' => k'.mx = m ∧ k'.regs = k.regs ∧ k'.dmem = k.dmem ∧
      (∀ xs a b ys, bs = xs ++ (a, b) :: ys → (∀ e ∈ ys, e.1 ≠ a) → k'.spm.byte a = b) ∧
      ∀ a, (∀ e ∈ bs, e.1 ≠ a) → k'.spm.byte a = k.spm.byte a)

/-- The port unit at its later cycles (R117-R119, R192, R212, R214, R223-R226, R396), at a core without soft errors and unordered writes. A
list cycle reads row numbers; a group of rows of which none lies outside SPM and no two clash lands in ABUF three cycles later; a
directory entry names a run of blocks, and a block gives the entries of its column; plain weights fill the half by columns; the half
switches five cycles after the last of them. A cycle at or after the arrival, or in an exchange phase, reads nothing and is class 0x0B, info
11. -/
def Claims.PortCyclesLoad : Prop :=
  (∀ (l l' : Load) (bs : List Byte), l.take bs = some l' → blockFail bs l.second = none ∧ (l.col < 128 → ∀ p x, p < 96 →
    (expand bs l.int)[p]? = some (some x) → Sp.get (.i 0) l'.entries (((if l.second then 48 else 0) + p) * 128 + l.col) = x)) ∧
  ∀ (s : State) (it : Item) (rest : List Item), s.agenda = it :: rest → it.core < 256 →
    let c := it.core
    let k := s.core c
    let m := k.mx
    let cyc := it.tick / 3
    let works := fun (P : State → Core → Prop) => ∃ t, step s = .next t ∧ (∀ d, d ≠ c → t.core d = s.core d) ∧ P t (t.core c)
    let due := fun (t : State) (n prio : Nat) (ev : Ev) => (⟨3 * (cyc + n), prio, c, ev⟩ : Item) ∈ t.agenda
    let serves := ({ s with now := it.tick } : State).exchange c = false ∧ ∀ a, k.arrival = some a → cyc < a.cyc
    k.marks = [] → k.loose = [] →
    (∀ p addr, it.ev = .port p addr → ¬ serves → works fun _ k' => ∃ e, k'.errs = k.errs ++ [e] ∧ e.cls = 0x0B ∧ e.info = 11 ∧
      k'.spm = k.spm ∧ k'.mx.abuf = m.abuf ∧ k'.mx.half0 = m.half0 ∧ k'.mx.half1 = m.half1) ∧
    (∀ g n addr, it.ev = .port (.gatherList g n) addr → serves →
      let idx := g.idx ++ (List.range (min 1024 (g.n - 1024 * n))).map fun i => k.spm.le (g.list + 2048 * n + 2 * i) 2
      works fun t k' => k' = k ∧ due t 1 pPort
        (.port (if g.n ≤ 1024 * (n + 1) then .gatherRows { g with idx := idx } 0 else .gatherList { g with idx := idx } (n + 1)) addr)) ∧
    (∀ g n addr, it.ev = .port (.gatherRows g n) addr → serves →
      let size := 12 * g.width
      let mine := fun (i b : Nat) => 128 / g.width * n ≤ i ∧ i < 128 / g.width * (n + 1) ∧ i < g.n ∧ b < size
      (∀ i b, mine i b → g.rowAddr i + size ≤ 0x400000) →
      (∀ i b j d, mine i b → mine j d → (g.rowAddr i + b) / 64 % 32 = (g.rowAddr j + d) / 64 % 32 →
        (g.rowAddr i + b) / 64 = (g.rowAddr j + d) / 64) →
      works fun t k' => k' = k ∧ (128 / g.width * (n + 1) < g.n → due t 1 pPort (.port (.gatherRows g (n + 1)) addr)) ∧
        ∃ bs : List (Nat × Byte), due t 3 pLand (.abuf bs) ∧
          (∀ i b, mine i b → ((g.row0 + i) % (98304 / size) * size + b, k.spm.byte (g.rowAddr i + b)) ∈ bs) ∧
          ∀ e ∈ bs, ∃ i b, mine i b ∧ e.1 = (g.row0 + i) % (98304 / size) * size + b) ∧
    (∀ l a addr, it.ev = .port (.entry l a) addr → serves → a % 8 = 0 → a + 8 ≤ 0x400000 →
      let base := 64 * k.spm.le a 4
      let n := k.spm.le (a + 4) 4
      n ≤ 256 → (n ≠ 0 → base + 64 * n ≤ 0x400000) → works fun t k' =>
        { k' with mx := { k'.mx with seq := m.seq, busyTo := m.busyTo } } = k ∧ (n = 0 → due t 5 pLand (.latch l.half ⟨[], l.int, false⟩)) ∧
        (n ≠ 0 → due t 1 pPort (.port (.blocks { l with base := base, count := n } 0) addr))) ∧
    (∀ l n addr l', it.ev = .port (.blocks l n) addr → serves →
      l.takeAll (32 * n) ((List.range (min 32 (l.count - 32 * n))).map fun i => k.spm.bytes (l.base + 2048 * n + 64 * i) 64) = .inl l' →
      works fun t k' => k' = k ∧ (l'.count ≤ 32 * (n + 1) → due t 5 pLand (.latch l'.half ⟨l'.entries, l'.int, l'.allSparse⟩)) ∧
        (32 * (n + 1) < l'.count → due t 1 pPort (.port (.blocks l' (n + 1)) addr))) ∧
    (∀ l n addr, it.ev = .port (.plain l n) addr → serves →
      let b := plainBytes l.fmt
      b ≠ 0 → works fun t k' => k' = k ∧ ∃ es : List (Nat × Weight),
        (∀ i, i < 2048 / b → let e := 2048 / b * n + i
          Sp.get (.i 0) es (e % 96 * 128 + e / 96) = plainWeight l.fmt (k.spm.le (l.base + 2048 * n + b * i) b)) ∧
        (n + 1 < 6 * b → due t 1 pPort (.port (.plain { l with entries := es } (n + 1)) addr)) ∧
        (6 * b ≤ n + 1 → due t 5 pLand (.latch l.half ⟨es, l.int, false⟩))) ∧
    (∀ bs, it.ev = .abuf bs → works fun _ k' => { k' with mx := { k'.mx with abuf := m.abuf } } = k ∧
      (∀ xs a b ys, bs = xs ++ (a, b) :: ys → (∀ e ∈ ys, e.1 ≠ a) → k'.mx.abuf.byte a = b) ∧
      ∀ a, (∀ e ∈ bs, e.1 ≠ a) → k'.mx.abuf.byte a = m.abuf.byte a) ∧
    (∀ h x, it.ev = .latch h x → works fun _ k' => k' = { k with mx := if h then { m with half1 := x } else { m with half0 := x } })

/-! ### Chains and channels -/

/-- The chain commands that set registers (R245, R246): the pointers in units of 64 bytes, the row base, the loop counters; a LOOP with a
count above 1 counts down and goes to its target; a WAITT issues no earlier than its tick, and its following-phase form waits; END
stops the chain, and the idle chain looks from the next tick; after a firmware chain its routine goes on (R443). The next command issues
at the delta that its word gives (R244); that a command beyond index 16383 is met at the tick of the one before is the model's reading
(log entry 36). -/
def Claims.ChainRegistersAndLoops : Prop :=
  ∀ (p j : Fin 2) (k : Fin 4) (v : BitVec 16) (u : BitVec 15) (x : BitVec 14) (dt : BitVec 11) (s : State) (r : ChainRun),
    s.ch.run = some r → r.left = none →
    let goes := fun (i : Instr) (h : Channel) (idx last : Nat) => exec i s = .next
      ((s.modCur fun k => { k with ch := { h with run := some { r with idx := idx, last := last } } }).post
        ⟨last + (if idx < 16384 then (s.ch.word idx).toNat % 2 ^ 11 else 0), pChain, s.focus.core.val, .chain⟩)
    goes (.ptr p v dt) { s.ch with ptr := s.ch.ptr.set p (64 * v.toNat) } (r.idx + 1) s.now ∧
    goes (.rowb k u dt) { s.ch with rowb := s.ch.rowb.set k (128 * u.toNat) } (r.idx + 1) s.now ∧
    goes (.lcnt j x dt) { s.ch with lc := s.ch.lc.set j x.toNat } (r.idx + 1) s.now ∧
    goes (.chainLoop j x dt) { s.ch with lc := s.ch.lc.set j (s.ch.lc[j] - 1) } (if 1 < s.ch.lc[j] then x.toNat else r.idx + 1) s.now ∧
    goes (.chainWaitt false v dt) s.ch (r.idx + 1)
      (max s.now (3 * s.startOf s.focus.core.val + 3 * (v.toNat + s.cur.shift))) ∧
    exec (.chainWaitt true v dt) s = .next (s.modCur fun k => { k with ch := { k.ch with run := some { r with waitNext := some v.toNat } } }) ∧
    (∃ t, exec (.chainEnd dt) s = .next t ∧ t.cur = { s.cur with ch := { s.ch with run := none, lastRun := some r.start } } ∧
      (r.firmware = true → (⟨max (3 * s.cyc) s.now, pEnd, s.focus.core.val, .train⟩ : Item) ∈ t.agenda) ∧
      let idle := Ev.run (coreFocus s.focus.core.val) .idleChainCommand
      (⟨s.now + 1, pChain, s.focus.core.val, idle⟩ : Item) ∈ t.agenda ∧
      ∀ it ∈ t.agenda, it.core = s.focus.core.val → it.ev = idle → it.tick = s.now + 1)

/-- The row commands (R245, R252, R255, R257, R391, R400, R442): one that breaks a timing rule stops the chain, and is class 0x0F with the
number of the first rule broken, or for a firmware chain sends its routine back; else it acts: PRE and PREA close banks, REFAB lowers the
refresh debt by one, held at -8, each sixty-fourth REFPB of a round does, a bank twice in a round being rule 15, and a MAINT lowers the
maintenance debt and is granted the slot. The chain goes on, unless a sampling or lookup that has failed in advance ends it with this
command, which is the model's reading (log entry 87). -/
def Claims.RowCommands : Prop :=
  ∀ (ba : BitVec 7) (p : Fin 2) (dt : BitVec 11) (s : State) (r : ChainRun), s.ch.run = some r →
    let rows : List (Instr × BusCmd) := [(.pre ba dt, .pre ba.toNat), (.prea p dt, .prea p), (.refab p dt, .refab p),
      (.refpb ba dt, .refpb ba.toNat), (.maint p dt, .maint p)]
    (∀ x ∈ rows, ∀ code rest, s.ch.broken s.now x.2 [] = code :: rest → ∃ t, exec x.1 s = .next t ∧
      t.ch.run = none ∧ { t.ch with run := s.ch.run, lastRun := s.ch.lastRun } = s.ch ∧
      (r.firmware = false → ∃ e, t.cur.errs = s.cur.errs ++ [e] ∧ e.cls = 0x0F ∧ e.info = code ∧ e.aux = r.idx) ∧
      (r.firmware = true → t.cur.errs = s.cur.errs ∧ t.cur.phy.train = s.cur.phy.train.map (fun y => { y with broke := true }) ∧
        (⟨max (3 * s.cyc) s.now, pEnd, s.focus.core.val, .train⟩ : Item) ∈ t.agenda)) ∧
    (∀ x ∈ rows, s.ch.broken s.now x.2 [] = [] → ∃ t, exec x.1 s = .next t ∧ t.cur.errs = s.cur.errs ∧ t.ch.hbm = s.ch.hbm ∧
      ((∀ n, r.left = some n → 2 ≤ n) → t.ch.run = some { r with idx := r.idx + 1, last := s.now, left := r.left.map (· - 1) }) ∧
      (∀ n, r.left = some n → n ≤ 1 → t.ch.run = none) ∧
      (x.2 = .pre ba.toNat → (t.ch.bank ba.toNat).row = none ∧ ∀ b, b ≠ ba.toNat → t.ch.bank b = s.ch.bank b) ∧
      (x.2 = .prea p → ∀ b, b % 2 = p.val → (t.ch.bank b).row = none) ∧
      (x.2 = .refab p → (t.ch.pc[p]).debtD = max (-8) ((s.ch.pc[p]).debtD - 1)) ∧
      (x.2 = .refpb ba.toNat → (t.ch.bank ba.toNat).ref = some s.now ∧
        let q := s.ch.pc[pcOf ba.toNat]
        t.ch.pc[pcOf ba.toNat] = if q.refpb.length = 63 then { q with refpb := [], debtD := max (-8) (q.debtD - 1) }
          else { q with refpb := ba.toNat :: q.refpb }) ∧
      (x.2 = .maint p → (t.ch.pc[p]).debtM = (s.ch.pc[p]).debtM - 1 ∧
        (⟨s.now + s.ch.tmnt, pTick, s.focus.core.val, .run (argFocus s.focus.core.val p.val) .maintSlotEnd⟩ : Item) ∈ t.agenda)) ∧
    (ba.toNat ∈ (s.ch.pc[pcOf ba.toNat]).refpb → 15 ∈ s.ch.broken s.now (.refpb ba.toNat) [])

/-- ACT opens the row that the translation gives (R245, R261, R303, R403), in the second copy of a replicated page where the core's lookup
has switched to it: no entry is class 0x11, info 1. -/
def Obligations.ActivateTranslates : Prop :=
  ∀ (n : Fin 4) (off : BitVec 15) (dt : BitVec 11) (s : State) (r : ChainRun), s.ch.run = some r → r.firmware = false → s.cur.marks = [] →
    let vrow := (s.ch.rowb[n] + off.toNat) % 2 ^ 22
    let va := 1024 * vrow
    let ba := vrow % 128
    s.ch.broken s.now (.act ba) [] = [] →
    ((∀ e ∈ s.cur.tt, tteCovers e.2.word va = false) → ∃ t e, exec (.act n off dt) s = .next t ∧ t.cur.errs = s.cur.errs ++ [e] ∧
      e.cls = 0x11 ∧ e.info = 1 ∧ e.loc = BitVec.ofNat 32 va ∧ t.ch.run = none) ∧
    (∀ e w, (∀ x ∈ s.cur.tt, tteCovers x.2.word va = true → x.2.word = w) → (e, w) ∈ s.cur.tt.map (fun x => (x.1, x.2.word)) →
      tteCovers w va = true → ∃ t, exec (.act n off dt) s = .next t ∧
        let u := 2 ^ (21 + 4 * (w.toNat / 2 % 4))
        let copy := match s.pages.find? (fun p => p.atomic && p.owner != s.focus.core.val && (p.blockOf va).isSome &&
            p.replicas.any fun m => m.core == s.focus.core.val && m.second) with
          | some p => 64 * p.blocks
          | none => 0
        (t.ch.bank ba).row = some ((2 ^ 21 * (w.toNat / 2 ^ 32 % 2 ^ 10) + va % u + copy) / 2 ^ 17 % 2 ^ 14) ∧
        (t.ch.bank ba).rd = w.getLsbD 4 ∧ (t.ch.bank ba).wr = w.getLsbD 5 ∧ (t.ch.bank ba).act = some s.now ∧ t.cur.errs = s.cur.errs ∧
        ∀ b, b ≠ ba → t.ch.bank b = s.ch.bank b)

/-- The column commands in pattern mode (R441): WR stores what the generators of the lanes drive, in the block alone, and RD stores
nothing and lands nothing; the stream pointers stay, no port is used, and the generators move on by the 16 beats. That beat b of lane l
is bit 32b + l of the block is presumed (log entry 23). -/
def Claims.PatternCommands : Prop :=
  ∀ (ba : BitVec 7) (col : BitVec 4) (dt : BitVec 11) (s : State) (r : ChainRun), s.ch.run = some r → s.cur.phy.pat = true →
    let p := pcOf ba.toNat
    let b := s.ch.bank ba.toNat
    let pa := b.row.getD 0 * 2 ^ 17 + ba.toNat * 2 ^ 10 + col.toNat * 2 ^ 6
    let drives := fun (l : Fin 38) (i : Nat) => (genBeats 16 (s.cur.phy.lanes[p][l]).wgen).1.getD i false
    (s.ch.broken s.now (.wr ba.toNat) [] = [] → b.wr = true → ∃ t, exec (.wr ba col dt) s = .next t ∧ t.ch.ptr = s.ch.ptr ∧
      t.ch.ports = s.ch.ports ∧ t.cur.errs = s.cur.errs ∧ t.cur.spm = s.cur.spm ∧
      (∀ (i : Fin 16) (l : Fin 32), (t.ch.hbm.byte (pa + (32 * i.val + l.val) / 8)).getLsbD (l.val % 8) = drives ⟨l.val, by omega⟩ i.val) ∧
      (∀ x, (x < pa ∨ pa + 64 ≤ x) → t.ch.hbm.byte x = s.ch.hbm.byte x) ∧
      ∀ l : Fin 38, (t.cur.phy.lanes[p][l]).wgen = (genBeats 16 (s.cur.phy.lanes[p][l]).wgen).2) ∧
    (s.ch.broken s.now (.rd ba.toNat) [] = [] → b.rd = true → ∃ t, exec (.rd ba col dt) s = .next t ∧ t.ch.ptr = s.ch.ptr ∧
      t.ch.ports = s.ch.ports ∧ t.cur.errs = s.cur.errs ∧ t.cur.spm = s.cur.spm ∧ t.ch.hbm = s.ch.hbm ∧
      (∀ it ∈ t.agenda, it ∈ s.agenda ∨ ∀ f addr pa idx data mark, it.ev ≠ .run f (.chainRdLanding addr pa idx data mark)) ∧
      ∀ l : Fin 38, (t.cur.phy.lanes[p][l]).cgen = (genBeats 16 (s.cur.phy.lanes[p][l]).cgen).2 ∧
        ∃ n, n ≤ 16 ∧ (t.cur.phy.lanes[p][l]).err.toNat = min 65535 ((s.cur.phy.lanes[p][l]).err.toNat + n))

/-- The column commands (R245-R249, R403) outside pattern mode: WR stores the 64 bytes that SPM held two cycles ago
(a byte that an unordered write touches: either value, R296) and RD posts the
landing of the block that the channel holds now; each steps its stream pointer by a block; a row opened without the right is
class 0x11, and nothing moves. -/
def Claims.ColumnCommands : Prop :=
  ∀ (ba : BitVec 7) (col : BitVec 4) (dt : BitVec 11) (s : State) (r : ChainRun), s.ch.run = some r → s.cur.phy.pat = false →
    r.firmware = false → s.cur.marks = [] →
    let p := pcOf ba.toNat
    let b := s.ch.bank ba.toNat
    let pa := b.row.getD 0 * 2 ^ 17 + ba.toNat * 2 ^ 10 + col.toNat * 2 ^ 6
    let a := s.ch.ptr[p]
    let c := s.focus.core.val
    let l := (s.now + s.ch.rl + 20 + 2) / 3
    (s.ch.broken s.now (.wr ba.toNat) [(s.cyc - 2, a)] = [] →
      (b.wr = true → ∃ t, exec (.wr ba col dt) s = .next t ∧ t.ch.ptr[p] = (a + 64) % 2 ^ 22 ∧ t.cur.errs = s.cur.errs ∧ t.cur.spm = s.cur.spm ∧
        (∀ i, i < 64 → t.ch.hbm.byte (pa + i) = s.cur.spmAt (s.cyc - 2) (a + i) ∨
          ∃ x ∈ s.cur.loose, x.addr = a + i ∧ t.ch.hbm.byte (pa + i) = x.other) ∧
        ∀ x, (x < pa ∨ pa + 64 ≤ x) → t.ch.hbm.byte x = s.ch.hbm.byte x) ∧
      (b.wr = false → ∃ t e, exec (.wr ba col dt) s = .next t ∧ t.cur.errs = s.cur.errs ++ [e] ∧ e.cls = 0x11 ∧ e.info = 3 ∧
        t.ch.hbm = s.ch.hbm ∧ t.ch.ptr = s.ch.ptr)) ∧
    (s.ch.broken s.now (.rd ba.toNat) [(l, a)] = [] →
      (b.rd = true → ∃ t, exec (.rd ba col dt) s = .next t ∧ t.ch.ptr[p] = (a + 64) % 2 ^ 22 ∧ t.cur.errs = s.cur.errs ∧
        t.ch.hbm = s.ch.hbm ∧ t.cur.spm = s.cur.spm ∧
        (⟨max (3 * l) s.now, pChainLand, c, .run { argFocus c r.start with addr := r.addr, slot := .eng } (.chainRdLanding (BitVec.ofNat 22 a)
          (BitVec.ofNat 31 pa) (BitVec.ofNat 14 r.idx) (BitVec.ofNat 512 (s.ch.hbm.le pa 64)) 0)⟩ : Item) ∈ t.agenda) ∧
      (b.rd = false → ∃ t e, exec (.rd ba col dt) s = .next t ∧ t.cur.errs = s.cur.errs ++ [e] ∧ e.cls = 0x11 ∧ e.info = 2 ∧
        t.ch.hbm = s.ch.hbm ∧ t.ch.ptr = s.ch.ptr))

/-- The landing of an RD (R248): the 64 bytes of the block, lowest first, and no other byte of SPM. A corrected block counts for the next
report of the base-die core, and not in CERRST; an uncorrectable one lands as read and is class 0x13 (R367, R407, R408). -/
def Claims.ChainReadsLand : Prop :=
  ∀ (addr : BitVec 22) (pa : BitVec 31) (idx : BitVec 14) (data : BitVec 512) (mark : Fin 3) (s : State), s.cur.marks = [] →
    ∃ t, exec (.chainRdLanding addr pa idx data mark) s = .next t ∧
      (∀ i, i < 64 → t.cur.spm.byte (addr.toNat + i) = BitVec.ofNat 8 (data.toNat / 256 ^ i)) ∧
      (∀ x, (x < addr.toNat ∨ addr.toNat + 64 ≤ x) → t.cur.spm.byte x = s.cur.spm.byte x) ∧
      t.cur.regs = s.cur.regs ∧ t.cur.dmem = s.cur.dmem ∧ t.ch = s.ch ∧ (mark ≠ 2 → t.cur.errs = s.cur.errs) ∧
      (mark = 2 → ∃ e, t.cur.errs = s.cur.errs ++ [e] ∧ e.cls = 0x13 ∧ e.loc = BitVec.ofNat 32 pa.toNat ∧ e.aux = idx.toNat) ∧
      t.cur.cerrst = s.cur.cerrst ∧ t.cur.hbmFixed = s.cur.hbmFixed + if mark = 1 then 1 else 0

/-- The debts grow with their intervals (R255, R256): by one, the next increment posted; a debt of 8 is held, and the break of the rate is
class 0x0F, info 15 or 16; while a routine trains the channel no task is involved, its chain stops, and it runs its step again (R442). -/
def Claims.DebtsGrow : Prop :=
  ∀ s : State, s.cur.errs = [] → s.cur.drain = none →
    let p := pcOf s.focus.arg
    let c := s.focus.core.val
    let grows := fun (i : Instr) (debt : Pseudo → Int) (every info : Nat) => ∃ t, exec i s = .next t ∧
      (⟨s.now + every, pTick, c, .run s.focus i⟩ : Item) ∈ t.agenda ∧
      (debt (s.ch.pc[p]) < 8 → debt (t.ch.pc[p]) = debt (s.ch.pc[p]) + 1 ∧ t.cur.errs = []) ∧
      (8 ≤ debt (s.ch.pc[p]) → t.ch.pc = s.ch.pc ∧
        let training := s.cur.phy.train.isSome = true ∧ ∀ r, s.ch.run = some r → r.firmware = true
        (¬ training → ∃ e, t.cur.errs = [e] ∧ e.cls = 0x0F ∧ e.info = info) ∧
        (training → t.cur.errs = [] ∧ t.ch.run = none ∧ t.cur.phy.train = if s.ch.run = none then s.cur.phy.train
          else s.cur.phy.train.map fun y => { y with broke := true }))
    grows .refreshDebtIncrement (·.debtD) s.ch.trefi 15 ∧ grows .maintenanceDebtIncrement (·.debtM) s.ch.tmnti 16

/-- The idle chain (R258): while a compiled chain holds the channel it does nothing; else it wants a PREA for each pseudo-channel with an
open bank, then a REFAB for each with a refresh due, then a MAINT for each with a slot due, and the first of these that the rules allow
issues, and has its own effect; it looks again at the next tick while it wants anything. -/
def Claims.IdleChainServes : Prop :=
  ∀ s : State,
    let wants := ([0, 1].filter s.ch.anyOpen).map BusCmd.prea ++
      (([0, 1] : List (Fin 2)).filter fun p => decide (1 ≤ (s.ch.pc[p]).debtD)).map BusCmd.refab ++
      (([0, 1] : List (Fin 2)).filter fun p => decide (1 ≤ (s.ch.pc[p]).debtM)).map BusCmd.maint
    let again : Item := ⟨s.now + 1, pChain, s.focus.core.val, .run (coreFocus s.focus.core.val) .idleChainCommand⟩
    (s.ch.held s.now = true → exec .idleChainCommand s = .next s) ∧
    (s.ch.held s.now = false → wants = [] → exec .idleChainCommand s = .next s) ∧
    (s.ch.held s.now = false → wants ≠ [] → (∀ x ∈ wants, s.ch.broken s.now x [] ≠ []) → exec .idleChainCommand s = .next (s.post again)) ∧
    (∀ (before : List BusCmd) (x : BusCmd) (after : List BusCmd), s.ch.held s.now = false → wants = before ++ x :: after →
      (∀ y ∈ before, s.ch.broken s.now y [] ≠ []) → s.ch.broken s.now x [] = [] →
      ∃ t, exec .idleChainCommand s = .next t ∧ (t.ch.idleWants = [] ∨ again ∈ t.agenda) ∧ t.cur.errs = s.cur.errs ∧
        t.ch.hbm = s.ch.hbm ∧ t.ch.run = s.ch.run ∧ t.cur.regs = s.cur.regs ∧
        (∀ p, x = .prea p → (t.ch.pc[p]).closed = some s.now ∧ (t.ch.pc[p]).prea = some s.now ∧
          ∀ b, b % 2 = p.val → (t.ch.bank b).row = none) ∧
        (∀ p, x = .refab p → (t.ch.pc[p]).debtD = max (-8) ((s.ch.pc[p]).debtD - 1) ∧ (t.ch.pc[p]).refab = some s.now) ∧
        (∀ p, x = .maint p → (t.ch.pc[p]).debtM = (s.ch.pc[p]).debtM - 1 ∧ (t.ch.pc[p]).maint = some (s.now + s.ch.tmnt) ∧
          (⟨s.now + s.ch.tmnt, pTick, s.focus.core.val, .run (argFocus s.focus.core.val p.val) .maintSlotEnd⟩ : Item) ∈ t.agenda))

/-! ### Errors, drains and returns -/

/-- The errors of a cycle (R355, R356, R358, R364, R369, R370): a core that is neither drained nor restored begins a drain at that cycle. Of
several errors the one counts whose action, as its region gives it, ranks highest, of these the one of the lowest class, and of class 0x01
the one of the lowest sub-code; the drain notes that there were several, which sets CERRST.multi at its end (DrainsEnd). What has not issued
or begun is discarded, and the registers stay. Each uncorrectable or parity error counts in CERRST.ue; which classes these are is the
model's reading (log entry 61). One that calls for Q quarantines the partition from here on. The end of the drain is looked for at the end of
the cycle. Parking has its own statement (ParkingPrevails): a decision of a scheduled boundary that falls in the same cycle comes first, since
it may park the core (log entry 77). -/
def Claims.ErrorsOfACycle : Prop :=
  ∀ (s : State) (it : Item) (rest : List Item), s.agenda = it :: rest → it.ev = .endCycle →
    let k := s.core it.core
    let es := k.errs.map fun e => { e with act := k.finalAct e }
    es ≠ [] → (∀ e ∈ es, e.act ≠ .p) → k.life = .task → k.drain = none → k.verify = none → k.parking = false →
    (∀ n, k.dayNext = some n → n ≤ it.tick / 3) →
    (∀ x ∈ rest, x.tick = it.tick → x.ev ≠ .run Focus.reset .timeDrivenBoundary) →
    ∃ t d, step s = .next t ∧ (t.core it.core).drain = some d ∧ d.err ∈ es ∧ d.f = it.tick / 3 ∧
      (∀ e ∈ es, e.act.rank < d.err.act.rank ∨ (e.act.rank = d.err.act.rank ∧ (d.err.cls < e.cls ∨ (d.err.cls = e.cls ∧
        (e.cls = 1 → d.err.info ≤ e.info))))) ∧ d.multi = decide (2 ≤ es.length) ∧
      d.tvec = k.regs.tvec ∧ (d.err.act = .q → k.part.val ∈ t.quarantine) ∧
      (t.core it.core).cerrst.toNat / 2 ^ 16 % 2 ^ 8 = min 255 (k.cerrst.toNat / 2 ^ 16 % 2 ^ 8 + es.countP fun e => countsUe e.cls) ∧
      d.cad = ({ s with now := it.tick }.countOf it.core).toNat ∧ d.cyc = it.tick / 3 - s.startOf it.core ∧ d.rfd = false ∧ d.verify = false ∧
      d.parked = false ∧
      (t.core it.core).errs = [] ∧ (t.core it.core).issued = none ∧ (t.core it.core).regs = k.regs ∧
      (∀ q : QueueId, (t.core it.core).queues[q.idx] = []) ∧
      (∀ x ∈ t.agenda, x.core = it.core → x.ev.isIssue = false ∧ x.ev.isStart = false) ∧
      (⟨3 * (it.tick / 3) + 2, pLast, it.core, .run (coreFocus it.core) .trapDrainCompletion⟩ : Item) ∈ t.agenda

/-- Parking ranks among the errors of its cycle (R354-R356, R358, R397, R416): a core that meets nothing above it is parked: its record with
action P is posted, of class 0x0C where a region's verification is cut short and else of class 0x15, CERRST takes class 0x15, with multi where
other errors fell in the cycle, and no drain begins; TRAPREC, the registers and the memories stay, and it issues on. Of a rollback whose drain
is under way, P takes the place: the drain goes on to its end, without a return to the daymark. The particulars are the model's reading
(log entry 77). -/
def Claims.ParkingPrevails : Prop :=
  ∀ (s : State) (it : Item) (rest : List Item), s.agenda = it :: rest → it.ev = .lateEnd false → it.core < 256 →
    let c := it.core
    let k := s.core c
    k.parking = true → k.life = .task → (∀ e ∈ k.judged (it.tick / 3), e.act.rank ≤ Recovery.p.rank) →
    ∃ t, step s = .next t ∧ (∀ d, d ≠ c → t.core d = s.core d) ∧ (t.core c).parking = false ∧ (t.core c).errs = [] ∧
      (t.core c).verify = none ∧ (t.core c).regs = k.regs ∧ (t.core c).spm = k.spm ∧ (t.core c).dmem = k.dmem ∧
      (t.core c).trap0 = k.trap0 ∧ (t.core c).trap1 = k.trap1 ∧ (t.core c).trap2 = k.trap2 ∧ (t.core c).phase = k.phase ∧
      (t.core c).cerrst.toNat / 2 ^ 32 % 2 ^ 5 = 0x15 ∧ (t.core c).cerrst.getLsbD 38 = (k.cerrst.getLsbD 38 || decide (k.errs ≠ [])) ∧
      (k.drain = none → (t.core c).drain = none ∧ (k.arrival = none → ∃ x ∈ t.agenda, x.core = c ∧ x.ev.isIssue = true) ∧
        ((Sp.get [] s.events k.part.val).length < 64 → Sp.get [] t.events k.part.val = Sp.get [] s.events k.part.val ++
          [BitVec.ofNat 64 ((if k.verify = none then 0x15 else 0x0C) + 2 ^ 5 * c + 2 ^ 13 * s.device.toNat + 2 ^ 23 * 4 +
            2 ^ 26 * ((s.countOf c).toNat % 2 ^ 38))])) ∧
      (∀ d, k.drain = some d → d.rfd = false → k.drainAct d = .b → (t.core c).drain = some { d with parked := true })

/-- The end of a drain (R355, R356, R358, R371-R373, R389): TRAPREC is written, and CERRST takes the class and whether there were several
errors; an error of classes 0x01-0x09 with TVEC.en, as readable at the fault,
set and no arrival enters the handler four cycles later with TVEC.en cleared and every other register as drained; an error with action B
inside a region rolls back; any other ends the task, whose record fails, and R retires the core. A recovery posts its record, with the
cadence count of the detection; that of Q was posted there. A rollback in whose place the core has been parked ends with issue going on where
the drain has held it (log entry 77). -/
def Obligations.DrainsEnd : Prop :=
  ∀ (s : State) (d : Drain),
    let c := s.focus.core.val
    let k := s.cur
    let e := d.err
    (k.drain = none → exec .trapDrainCompletion s = .next s) ∧
    (k.drain = some d → s.draining c d = true →
      exec .trapDrainCompletion s = .next (s.atLast c (s.cyc + 1) (.run s.focus .trapDrainCompletion))) ∧
    (k.drain = some d → s.draining c d = false → d.parked = true → ∃ t, exec .trapDrainCompletion s = .next t ∧
      t.cur = { k with drain := none, issued := d.wasIssued, delay := d.wasDelay, rfd := d.wasRfd } ∧ t.events = s.events ∧
      (k.arrival = none → ∃ x ∈ t.agenda, x.core = c ∧ x.ev.isIssue = true)) ∧
    (k.drain = some d → s.draining c d = false → d.rfd = false → d.verify = false → d.parked = false →
      let recorded := fun (t : State) =>
        t.cur.cerrst.toNat / 2 ^ 32 % 2 ^ 5 = e.cls % 2 ^ 5 ∧ t.cur.cerrst.getLsbD 38 = (k.cerrst.getLsbD 38 || d.multi) ∧
        t.cur.trap0 = BitVec.ofNat 64 (e.cls % 32 + 2 ^ 5 * (e.slot % 16) + 2 ^ 9 * (e.addr % 2 ^ 19) + 2 ^ 28 * (e.info % 2 ^ 11) + 2 ^ 39) ∧
        t.cur.trap1 = BitVec.ofNat 64 (d.cad % 2 ^ 48) ∧
        t.cur.trap2 = BitVec.ofNat 64 (d.cyc % 2 ^ 32 + 2 ^ 32 * ((s.cyc - d.f) % 2 ^ 32)) ∧
        (t.cur.flt0, t.cur.flt1) = if (0x0A ≤ e.cls ∧ e.cls ≤ 0x13) ∨ (0x1A ≤ e.cls ∧ e.cls ≤ 0x1C) then
          (BitVec.ofNat 64 (e.loc.toNat + 2 ^ 32 * (e.aux % 2 ^ 14)), BitVec.ofNat 64 (e.val0.toNat + 2 ^ 32 * e.val1.toNat))
          else (k.flt0, k.flt1)
      let posted := fun (t : State) (act : Nat) => (Sp.get [] s.events k.part.val).length < 64 →
        Sp.get [] t.events k.part.val = Sp.get [] s.events k.part.val ++
          [BitVec.ofNat 64 (e.cls + 2 ^ 5 * c + 2 ^ 13 * s.device.toNat + 2 ^ 23 * act + 2 ^ 26 * (d.cad % 2 ^ 38))]
      let handler := 1 ≤ e.cls ∧ e.cls ≤ 9 ∧ d.tvec.getLsbD 19 = true ∧ k.arrival = none ∧ k.life = .task
      (handler → ∃ t, exec .trapDrainCompletion s = .next t ∧ recorded t ∧ t.cur.regs = { k.regs with tvec := k.regs.tvec &&& ~~~0x80000 } ∧
        t.cur.pc = d.tvec.toNat % 2 ^ 19 ∧ t.cur.drain = none ∧ t.cur.spm = k.spm ∧ t.cur.dmem = k.dmem ∧ t.events = s.events ∧
        t.vectors = s.vectors ∧ (⟨3 * (s.cyc + 4), pIssue, c, .issue⟩ : Item) ∈ t.agenda) ∧
      (∀ addr regs, ¬handler → e.act = .b → k.shadow = some (addr, regs) → k.arrival = none → k.rolls < 3 → k.replay.length ≤ 32 →
        (∀ m ∈ k.marks, m.store = .shadow → m.hard = false) →
        ∃ t, exec .trapDrainCompletion s = .next t ∧ recorded t ∧ s.rolledBack t addr regs ∧ t.cur.rolls = k.rolls + 1 ∧ posted t 1) ∧
      (¬handler → (e.act ≠ .b ∨ k.shadow = none ∨ k.arrival ≠ none ∨ 3 ≤ k.rolls ∨ 32 < k.replay.length) →
        ∃ t a, exec .trapDrainCompletion s = .next t ∧ recorded t ∧ t.cur.regs = k.regs ∧ t.cur.drain = none ∧ t.cur.arrival = some a ∧
          a.ends = true ∧ a.forced = true ∧ (k.arrival = none → a.cyc = s.cyc) ∧
          (∀ id, k.record = some id → ∀ r ∈ t.records, r.id = id → r.failed = true) ∧
          (e.act = .r → t.cur.life = .retired) ∧ (e.act ≠ .q → posted t (if e.act = .b then 2 else e.act.code)) ∧
          (⟨max (3 * s.cyc) s.now, pEnd, c, .run (coreFocus c) .arrivalCount⟩ : Item) ∈ t.agenda))

/-- The return from a handler and the verification (R376, R397): the drain after an RFD restores the shadow and counts a rollback, or ends
the task with the class that TRAPREC holds, which an RFD after the arrival does by the model's reading (log entry 57); rerun 1 ends with a drain and a second rollback that counts toward no limit; after
rerun 2 the ending bundle issues, or class 0x1B is raised. The signature takes the writes of the last cycle first (R398). -/
def Obligations.RegionsRunAgain : Prop :=
  ∀ (s : State) (d : Drain) (v : Verify) (addr : Nat) (regs : Regs),
    let c := s.focus.core.val
    let k := s.cur
    let n := s.cyc - v.began - v.waited
    (k.drain = some d → s.draining c d = false → d.parked = false → d.rfd = true →
      (k.shadow = some (addr, regs) → k.arrival = none → k.rolls < 3 → k.replay.length ≤ 32 →
        (∀ m ∈ k.marks, m.store = .shadow → m.hard = false) →
        ∃ t, exec .trapDrainCompletion s = .next t ∧ s.rolledBack t addr regs ∧ t.cur.rolls = k.rolls + 1) ∧
      (k.shadow = none ∨ k.arrival ≠ none ∨ 3 ≤ k.rolls ∨ 32 < k.replay.length → (Sp.get [] s.events k.part.val).length < 64 →
        let cls := if k.trap0.getLsbD 39 then k.trap0.toNat % 2 ^ 5 else 9
        ∃ t a, exec .trapDrainCompletion s = .next t ∧ t.cur.arrival = some a ∧ a.ends = true ∧ a.forced = true ∧
          Sp.get [] t.events k.part.val = Sp.get [] s.events k.part.val ++
            [BitVec.ofNat 64 (cls + 2 ^ 5 * c + 2 ^ 13 * s.device.toNat + 2 ^ 23 * 2 + 2 ^ 26 * (d.cad % 2 ^ 38))])) ∧
    (k.drain = some d → s.draining c d = false → d.parked = false → d.rfd = false → d.verify = true → k.shadow = some (addr, regs) →
      (∀ m ∈ k.marks, m.store = .shadow → m.hard = false) →
      ∃ t, exec .trapDrainCompletion s = .next t ∧ s.rolledBack t addr regs ∧ t.cur.rolls = k.rolls ∧ t.events = s.events) ∧
    (k.verify = none → exec .rerunVerification s = .next s) ∧
    (k.verify = some v → v.stage = 1 → ∃ t d', exec .rerunVerification s = .next t ∧ t.cur.drain = some d' ∧ d'.verify = true ∧ d'.f = s.cyc ∧
      t.cur.verify = some { v.close with count1 := n, sig1 := v.close.sig } ∧
      (⟨3 * s.cyc + 2, pLast, c, .run (coreFocus c) .trapDrainCompletion⟩ : Item) ∈ t.agenda) ∧
    (k.verify = some v → v.stage ≠ 1 → n = v.count1 → v.close.sig = v.sig1 →
      exec .rerunVerification s = .next ((s.modCur fun k => { k with verify := none }).at c s.cyc pIssue .issue)) ∧
    (k.verify = some v → v.stage ≠ 1 → (n ≠ v.count1 ∨ v.close.sig ≠ v.sig1) → ∃ t e, exec .rerunVerification s = .next t ∧
      t.cur.errs = k.errs ++ [e] ∧ e.cls = 0x1B ∧ e.loc = BitVec.ofNat 32 v.count1 ∧ e.val0 = v.sig1 ∧ e.val1 = v.close.sig)

/-! ### Reset and the memories -/

/-- What the rules give for reset (R32, R41, R92, R210, R253, R266, R276, R321, R335, R340): CADENCE 0, every register 0 but RNGS, every
handle complete, every window and translation entry invalid, banks closed, the timing, power, fabric and cadence registers at their
reset values, and the release of reset the one pending operation. -/
def Claims.ResetState : Prop :=
  let s := State.reset
  s.count = 0 ∧ s.released = false ∧ s.driven = false ∧ s.cad = ⟨0, 0, 0⟩ ∧ s.pwradm = 0x0400_0960_5DC0 ∧ s.pcwlo = 0x27221D18130E0904 ∧
  s.pcwhi = 0x4F4A45403B36312C ∧ s.fabctl = 0x1FFFE ∧ s.tstat = 0 ∧ s.perrst = 0 ∧ s.bootst = 0 ∧
  s.agenda = [⟨0, 0, 0, .run Focus.reset .resetRelease⟩] ∧
  ∀ c, let k := s.core c
    k.regs.rngs = 0x9E3779B97F4A7C15 ∧ k.regs.tvec = 0 ∧ k.regs.flash = 0 ∧ k.regs.lcN = 0 ∧ k.regs.lcE = 0 ∧ k.regs.rb = 0 ∧
    k.regs.latch = 0 ∧ k.regs.cbase = 0 ∧ (∀ i : Fin 32, k.regs.s[i] = 0 ∧ k.regs.v[i] = 0) ∧
    (∀ i : Fin 8, k.regs.k[i] = 0 ∧ k.regs.q[i] = false ∧ k.regs.mp[i] = 0) ∧
    (∀ i : Fin 16, k.handles[i] = ⟨0, 0, 0, false, 0⟩) ∧ (∀ e : Fin 32, (k.win[e]).valid = false) ∧ k.tt = [] ∧ k.ch.banks = [] ∧
    k.ch.tim = #v[0x021B043C1B1B0C1A, 0x1B6C027600090E1D, 0x6DB00168] ∧ k.trap0 = 0 ∧ k.trap1 = 0 ∧ k.trap2 = 0 ∧ k.cerrst = 0 ∧ k.werr = 0

/-- Every memory of the module is in canonical form after reset. -/
def Claims.ResetMemories : Prop := State.reset.memWf

/-- INVARIANT. Every step keeps every memory of the module in canonical form: SPM, DMEM, IMEM, ABUF and HBM of every core, the chunk
store and the command memory. -/
def Obligations.MemoriesKeepTheirForm : Prop := ∀ s t : State, s.memWf → step s = .next t → t.memWf

/-- The release of reset and the steps of power-on (R32, R347, R348, R442, R443): the release is cycle 0 of phase 0 with every debt counter
running; each step that succeeds sets its bits of BOOTST and places the next. Step 1 compares the ROM's SHA-384 digest with the fused one;
step 2 begins the training of every channel; step 3 marks each stack whose firmware carries a signature by the root key of which the digest is
fused, and PERRST.stack of each other (the encodings of key and trailer: log entry 131); step 4 gives
the device its identifier, and step 5 starts the discipline of TIME. That a station which FABCTL enables and which does not train stops the
power-on is the model's reading (log entry 50). -/
def Obligations.PowerOnTakesItsSteps : Prop :=
  ∀ s : State,
    let placed := fun (t : State) (n : Nat) => ∃ x ∈ t.agenda, x.ev = .run (argFocus 0 n) .resetRelease ∧ 3 * (s.cyc + 1) ≤ x.tick
    (s.focus.arg = 0 → ∃ t, exec .resetRelease s = .next t ∧ t.released = true ∧ t.phStart = s.cyc ∧ t.count = s.count ∧ t.cores = s.cores ∧
      placed t 1 ∧ ∀ c p, c < 256 → p < 2 →
        (⟨s.now + (s.core c).ch.trefi, pTick, c, .run (argFocus c p) .refreshDebtIncrement⟩ : Item) ∈ t.agenda ∧
        (⟨s.now + (s.core c).ch.tmnti, pTick, c, .run (argFocus c p) .maintenanceDebtIncrement⟩ : Item) ∈ t.agenda) ∧
    (s.focus.arg = 1 → ∃ t, exec .resetRelease s = .next t ∧ (sha384 Config.romImage ≠ Config.fusedRomDigest → t = s) ∧
      (sha384 Config.romImage = Config.fusedRomDigest → t.bootst = s.bootst ||| 1 ∧ placed t 2)) ∧
    (s.focus.arg = 2 → ∃ t, exec .resetRelease s = .next t ∧ t.bootst = s.bootst ∧ ∀ c, c < 256 → let k := t.core c
      k.phy.train = some ⟨.read, 0, false, false, []⟩ ∧ k.phy.ctl.getLsbD 0 = true ∧
      (Sp.get Tte.reset k.tt 0).word = 0x000003FC00000031 ∧ (∀ (p : Fin 2) (l : Fin 38), (k.phy.lanes[p][l]).rnew = 64 ∧ (k.phy.lanes[p][l]).wnew = 64) ∧
      (⟨max (3 * s.cyc) s.now, pEnd, c, .train⟩ : Item) ∈ t.agenda) ∧
    (s.focus.arg = 3 → ∃ t, exec .resetRelease s = .next t ∧ t.cores = s.cores ∧ placed t 4 ∧
      (∀ b, (b < 2 ∨ 10 ≤ b) → t.bootst.getLsbD b = s.bootst.getLsbD b) ∧
      ∀ k, k < 8 → let image := Config.stackImage k
        let key := Config.rootKey
        let r := (List.range 48).map fun i => image.getD (image.length - 96 + i) 0
        let x := (List.range 48).map fun i => image.getD (image.length - 48 + i) 0
        let ok := 96 ≤ image.length ∧ key.length = 96 ∧ sha384 key = Config.fusedKeyDigest ∧
          ecVerify (ofBe (key.take 48), ofBe (key.drop 48)) (ofBe (sha384 (image.take (image.length - 96)))) (ofBe r) (ofBe x) = true
        (ok → t.bootst.getLsbD (2 + k) = true ∧ t.perrst.getLsbD (35 + k) = s.perrst.getLsbD (35 + k)) ∧
        (¬ ok → t.bootst.getLsbD (2 + k) = s.bootst.getLsbD (2 + k) ∧ t.perrst.getLsbD (35 + k) = true)) ∧
    (s.focus.arg = 4 → ∃ t, exec .resetRelease s = .next t ∧
      ((∀ i : Fin 16, s.trainStations.getLsbD i = s.fabctl.getLsbD (1 + i)) →
        t.bootst = s.bootst ||| 0x400 ∧ t.trained = s.trainStations ∧ placed t 5 ∧ (t.device = 0x3FF ↔ s.trainStations = 0)) ∧
      ((∃ i : Fin 16, s.trainStations.getLsbD i ≠ s.fabctl.getLsbD (1 + i)) → t = s)) ∧
    (s.focus.arg = 5 → exec .resetRelease s = .next { s with ptp := true, bootst := s.bootst ||| 0x800 }) ∧
    (5 < s.focus.arg → exec .resetRelease s = .next s)

/-! ### Remote operations -/

/-- The events of an operation at its origin (R277, R281, R413, R425): the local-reuse event lowers nr at once; the event of the last target
is delivered to the handle for the next cycle, with the tag that a WSTART or WLOCK was granted, and with the local reuse where it is
still due for a GET; a target's rejection is delivered at once, with the local reuse where it is still due, and one that follows another
records its code; the time-out that the start has placed (QueuedCommandsStart) gives code 11 to what is outstanding, and a WERR rejection
to each member that has not answered. -/
def Claims.HandleEvents : Prop :=
  ∀ (s : State) (o : RemoteOp) (code : BitVec 4),
    (s.op? s.focus.arg = none → exec .localReuseEvent s = .next s ∧ exec (.visibilityEvent code) s = .next s ∧ exec .remoteTimeout s = .next s) ∧
    (s.op? s.focus.arg = some o →
      let becomes := fun (t : State) (o' : RemoteOp) => ∀ y, t.op? s.focus.arg = some y → y = o'
      let delivered := fun (t : State) (tag : Option (BitVec 16)) (reuse vis : Bool) (code : BitVec 4) =>
        t.agenda = match o.handle with
          | some h => insertItem ⟨max (3 * (s.cyc + 1)) s.now, pNet, o.core, .setHandle h tag reuse vis code⟩ s.agenda
          | none => s.agenda
      let others := fun (t : State) => ∀ c, { t.core c with loose := (s.core c).loose } = s.core c
      let o' := { o with left := o.left - 1, heard := s.focus.lits.map (·.toNat) ++ o.heard }
      let get : Bool := decide (o.kind = .get)
      (o.nrDone = true → exec .localReuseEvent s = .next s) ∧
      (o.nrDone = false → ∃ t, exec .localReuseEvent s = .next t ∧ becomes t { o with nrDone := true } ∧ t.agenda = s.agenda ∧
        (o.handle = none → t.cores = s.cores) ∧
        ∀ h, o.handle = some h →
          (t.core o.core).handles[h] = { (s.core o.core).handles[h] with
            nr := if (s.core o.core).handles[h].nr = 0 then 0 else (s.core o.core).handles[h].nr - 1 } ∧
          (∀ y : Fin 16, y ≠ h → (t.core o.core).handles[y] = (s.core o.core).handles[y]) ∧ (t.core o.core).regs = (s.core o.core).regs) ∧
      (code = 0 → (o.nvDone = true ∨ 2 ≤ o.left) → ∃ t, exec (.visibilityEvent code) s = .next t ∧ t.agenda = s.agenda ∧ t.cores = s.cores ∧
        becomes t o') ∧
      (code = 0 → o.nvDone = false → o.left ≤ 1 → ∃ t, exec (.visibilityEvent code) s = .next t ∧ others t ∧
        delivered t (if o.kind = .wstart ∨ o.kind = .wlock then some o.tag else none) (get && !o.nrDone) true 0 ∧
        becomes t { o' with nvDone := true, nrDone := o.nrDone || get }) ∧
      (code ≠ 0 → ∃ t, exec (.visibilityEvent code) s = .next t ∧ others t ∧
        (o.nvDone = false → delivered t none (!o.nrDone) true code ∧ becomes t { o' with nvDone := true, nrDone := true }) ∧
        (o.nvDone = true → delivered t none false false code ∧ becomes t o')) ∧
      let silent := o.target.filter fun x => !o.heard.contains x
      (o.nvDone = true → silent = [] → exec .remoteTimeout s = .next s) ∧
      ((o.nvDone = false ∨ silent ≠ []) → ∃ t, exec .remoteTimeout s = .next t ∧
        (∀ c, { t.core c with loose := (s.core c).loose, werr := (s.core c).werr, werrBy := (s.core c).werrBy } = s.core c) ∧
        (o.nvDone = false → delivered t none (!o.nrDone) true 11 ∧ becomes t { o with nvDone := true, nrDone := true, late := true }) ∧
        (o.nvDone = true → delivered t none false false 11 ∧ becomes t { o with late := true }) ∧
        (silent = [] → (t.core o.core).werr = (s.core o.core).werr) ∧
        (∀ x rest, silent = x :: rest → (s.core o.core).werr = 0 → (t.core o.core).werr.toNat = 1 + 2 * 11 + 2 ^ 5 * (o.entry % 32) +
          2 ^ 10 * (x / 256 % 1024) + 2 ^ 20 * (x % 256) + 2 ^ 28 * o.tag.toNat + 2 ^ 44 * min 65535 silent.length)))

/-- The later cycles of an operation at its origin (R281, R283, R294, R391, R413), where the core's storage holds no soft error: a cycle of the
source reader takes 256 bytes as SPM holds them now, of a byte that an unordered write touches either value (R296), and the next cycle
follows; behind the last one the local-reuse event is readable, and the operation goes to each target that has not answered. An
uncorrectable word of the source answers the operation with code 12 at once. The bytes of a GET land whole, and its event follows. Nothing is
read or lands once the phase or the task of the command is over, which is the model's reading (log entry 84). -/
def Claims.OriginsMoveData : Prop :=
  ∀ (s : State) (it : Item) (rest : List Item) (o : RemoteOp) (id n : Nat) (bs : List (Nat × Byte)), s.agenda = it :: rest → it.core < 256 →
    o.core = it.core →
    let c := it.core
    let k := s.core c
    let cyc := it.tick / 3
    let s0 := { s with now := it.tick, agenda := rest, focus := coreFocus c }
    let here := s.exchange c = true ∧ (s.countOf c).toNat = o.phase ∧ k.task = o.task ∧ k.life = .task
    let kept := fun (t : State) => (∀ d, d ≠ c → t.core d = s.core d) ∧ (t.core c).regs = k.regs ∧ (t.core c).dmem = k.dmem
    let reported := fun (t : State) (from_ x code : Nat) => ∃ y ∈ t.agenda, y.core = c ∧ 3 * from_ ≤ y.tick ∧
      y.ev = .run { argFocus c id with lits := [BitVec.ofNat 32 x] } (.visibilityEvent (BitVec.ofNat 4 code))
    (s.op? id = none → (it.ev = .source id n ∨ it.ev = .getLand id bs) → step s = .next s0) ∧
    (s.op? id = some o →
      let total := o.n * (if o.type = 2 then 2 else 4)
      let size := min 256 (total - 256 * n)
      let bad := ∃ m ∈ k.marks, m.store = .spm ∧ m.hard = true ∧ ∃ i, i < size ∧ m.unit = (o.loc + 256 * n + i) / 8
      (it.ev = .source id n → ¬ here → step s = .next (s0.dropOp id)) ∧
      (it.ev = .source id n → here → k.marks = [] → ∃ (t : State) (xs : List Byte), step s = .next t ∧ kept t ∧ (t.core c).spm = k.spm ∧
        (t.core c).errs = k.errs ∧ xs.length = size ∧
        (∀ i b, xs[i]? = some b → let a := o.loc + 256 * n + i
          b = k.spm.byte a ∨ ∃ l ∈ k.loose, l.addr = a ∧ l.unordered .n o.start = true ∧ b = l.other) ∧
        (256 * (n + 1) < total → t.op? id = some { o with data := o.data ++ xs } ∧
          (⟨3 * (cyc + 1), pRead, c, .source id (n + 1)⟩ : Item) ∈ t.agenda) ∧
        (total ≤ 256 * (n + 1) → (∀ x, t.op? id = some x → x.data = o.data ++ xs) ∧
          (⟨3 * (cyc + 1), pNet, c, .run (argFocus c id) .localReuseEvent⟩ : Item) ∈ t.agenda ∧
          ∀ x ∈ o.target, x ∉ o.heard → s.isSelf (x / 256) = true → ∃ y ∈ t.agenda, y.core = x % 256 ∧ 3 * (cyc + 1) ≤ y.tick ∧
            y.ev = .run (argFocus (x % 256) id) .remoteOperationReceipt)) ∧
      (it.ev = .source id n → here → bad → ∃ t, step s = .next t ∧ reported t cyc (o.target.headD 0) 12 ∧
        (k.werr = 0 → (t.core c).werr.toNat % 2 ^ 5 = 1 + 2 * 12) ∧ ∃ es, es ≠ [] ∧ (t.core c).errs = k.errs ++ es ∧
        ∀ e ∈ es, e.cls = 0x0D ∧ e.info = 1 + 16 * 4) ∧
      (it.ev = .getLand id bs → here → o.late = false → k.marks = [] → ∃ t, step s = .next t ∧ kept t ∧ reported t (cyc + 1) (o.target.headD 0) 0 ∧
        (∀ xs a b ys, bs = xs ++ (a, b) :: ys → (∀ x ∈ ys, x.1 ≠ a) → (t.core c).spm.byte a = b) ∧
        (∀ a, (∀ x ∈ bs, x.1 ≠ a) → (t.core c).spm.byte a = k.spm.byte a)) ∧
      (it.ev = .getLand id bs → ¬ here → ∃ t, step s = .next t ∧ t.cores = s.cores ∧ reported t (cyc + 1) (o.target.headD 0) 0))

/-- The checks of the port in order (R268, R287-R289, R415): the entry, the origin, the right, the tag with the state, the
first byte, the last, and the room for staging; of a command the entry and the origin, and then code 8 for an origin that asks twice or
gives back what it does not hold, and code 1 for a window that is not open for it. That code 8 comes before the tag (log entry 83) and
code 1 for a WLOCK behind the target's arrival (log entry 122) are the model's readings. -/
def Claims.PortChecks : Prop :=
  ∀ (s : State) (c : Nat) (w : Window) (o : RemoteOp),
    let data := o.kind = .get ∨ o.kind = .put ∨ o.kind = .putMc ∨ o.kind = .racc
    let entry := w.valid = true ∧ ((o.kind = .wstart ∨ o.kind = .wcompl) → w.mode = 1) ∧ ((o.kind = .wlock ∨ o.kind = .wunlock) → w.mode = 2)
    let origin := o.part = w.word0.toNat / 2 ^ 40 % 2 ^ 3 ∧ w.word0.toNat / 2 ^ 44 % 2 ^ 10 ≤ o.dev ∧ o.dev ≤ w.word0.toNat / 2 ^ 54 % 2 ^ 10
    let right := w.word0.getLsbD (if o.kind = .get then 3 else if o.kind = .racc then 5 else 4) = true
    let tag := w.state ≠ 0 ∧ o.tag = w.tag ∧ (w.mode = 1 ∨ w.mode = 2 → o.rank ∈ w.grants)
    let range := o.off < w.size
    let straddle := o.off + 4 * o.n ≤ w.size
    let staging := o.kind = .get ∨ (s.core c).stagedBytes + 4 * o.n ≤ 256 * 1024
    let is := fun (code : Option Nat) => s.portCheck c w o = code
    (¬ entry → is (some 6)) ∧ (entry → ¬ origin → is (some 5)) ∧
    (entry → origin → data → (¬ right → is (some 4)) ∧ (right → ¬ tag → is (some 1)) ∧ (right → tag → ¬ range → is (some 2)) ∧
      (right → tag → range → ¬ straddle → is (some 3)) ∧ (right → tag → range → straddle → ¬ staging → is (some 7)) ∧
      (right → tag → range → straddle → staging → is none)) ∧
    (entry → origin → o.kind = .wstart → (o.rank ∈ w.grants → is (some 8)) ∧
      (o.rank ∉ w.grants → is (if w.state = 0 ∧ s.exposing c = false then some 1 else none))) ∧
    (entry → origin → o.kind = .wlock → let asks := o.rank ∈ w.grants ∨ ∃ id ∈ w.waiting, ∃ x, s.op? id = some x ∧ x.rank = o.rank
      (asks → is (some 8)) ∧ (¬ asks → is (if s.exposing c = false then some 1 else none))) ∧
    (entry → origin → (o.kind = .wcompl ∨ o.kind = .wunlock) → (w.state = 0 → is (some 1)) ∧
      (w.state ≠ 0 → o.rank ∉ w.grants → is (some 8)) ∧
      (w.state ≠ 0 → o.rank ∈ w.grants → is (if o.tag = w.tag then none else some 1)))

/-- An interval opens at WPOST, closes and is applied (R269, R270, R272-R275, R285-R287, R293), at a core without soft errors. One cycle
after WPOST the entry is open with the next tag and its count at the expectation, and waiting requests are granted in ascending rank;
behind the core's own arrival it closes at once (the model's reading, log entry 82). A close with a count above 0 is code 9, but for a
lock; nothing staged is applied at once, and else its bytes stand in SPM when 2,048 a cycle have gone through the port: an element that
PUTs touch takes that of the lowest rank, the latest of its origin, and then each RACC in ascending rank and order of issue; no other byte
changes. With the apply the unlock that caused it is answered. -/
def Claims.IntervalsOpenAndClose : Prop :=
  (∀ (prior : Nat → Nat) (ops : List Staged) (el v : Nat) (rs : List Staged), (ops.map (·.serial)).Nodup →
    let at_ := fun (o : Staged) => (o.elems.find? (·.1 == el)).map (·.2)
    let before := fun (x y : Staged) => x.rank < y.rank ∨ (x.rank = y.rank ∧ x.serial < y.serial)
    ((∀ o ∈ ops, at_ o = none) → ∀ e ∈ applyAll prior ops, e.1 ≠ el) ∧
    ((∃ o ∈ ops, at_ o ≠ none) →
      ((v = prior el ∧ ∀ o ∈ ops, o.kind ≠ .racc → at_ o = none) ∨
        ∃ o ∈ ops, o.kind ≠ .racc ∧ at_ o = some v ∧ ∀ y ∈ ops, y.kind ≠ .racc → at_ y ≠ none →
          y = o ∨ o.rank < y.rank ∨ (o.rank = y.rank ∧ y.serial < o.serial)) →
      rs.Pairwise before → (∀ o, o ∈ rs ↔ o ∈ ops ∧ o.kind = .racc ∧ at_ o ≠ none) →
      (applyAll prior ops).find? (·.1 == el) = some (el, rs.foldl (fun x o => combine o.op o.type x ((at_ o).getD 0)) v))) ∧
  ∀ (s : State) (it : Item) (rest : List Item) (e : Fin 32), s.agenda = it :: rest → it.core < 256 → (s.core it.core).marks = [] →
    let c := it.core
    let k := s.core c
    let w := k.win[e]
    let cyc := it.tick / 3
    let s0 := { s with now := it.tick, agenda := rest, focus := coreFocus c }
    let answered := fun (t : State) (o : RemoteOp) => ∃ x ∈ t.agenda, x.core = o.core ∧ 3 * (cyc + 1) ≤ x.tick ∧
      x.ev = .run { argFocus o.core o.id with lits := [BitVec.ofNat 32 (256 * s.device.toNat + c)] } (.visibilityEvent 0)
    (it.ev = .wpost e →
      let shut := w.state ≠ 0 ∨ w.applying = true ∨ k.phase ≠ none ∨ s0.shutting k = true
      let asks := w.waiting.filterMap s.op?
      (shut → step s = .next s0) ∧
      (¬ shut → (asks.map (·.rank)).Nodup → ∃ t, step s = .next t ∧ (∀ d, d ≠ c → t.core d = s.core d) ∧ (t.core c).regs = k.regs ∧
        (t.core c).dmem = k.dmem ∧ (t.core c).spm = k.spm ∧ (∀ f, f ≠ e → (t.core c).win[f] = k.win[f]) ∧
        (∀ o ∈ asks, o.dev = s.device.toNat → t.op? o.id = some { o with tag := w.tag + 1 } ∧ answered t o) ∧
        let w' := (t.core c).win[e]
        w'.waiting = [] ∧ w'.tag = w.tag + 1 ∧ w'.word0 = w.word0 ∧
        (k.arrival = none → w'.state = 1 ∧ w'.count = w.expect ∧ w'.staged = [] ∧ w'.wwait = false ∧ (k.loose = [] → w'.opened = []) ∧
          w'.grants.Pairwise (· < ·) ∧ ∀ r, r ∈ w'.grants ↔ ∃ o ∈ asks, o.rank = r) ∧
        (k.arrival ≠ none → w'.state = 0 ∧ w'.applying = false))) ∧
    (let t := s0.closeWindow c e
     let w' := (t.core c).win[e]
     let n := ((w.staged.map fun o => 4 * o.elems.length).sum + 2047) / 2048
     let prior := fun el => (List.range 4).foldr (fun i x => (w.byteOf k.spm s.freeCtr ((w.staged.map (·.start)).foldr min cyc)
       (w.base + 4 * el + i)).toNat + 256 * x) 0
     (w.state = 0 → t = s0) ∧
     (w.state ≠ 0 → (∀ d, d ≠ c → t.core d = s.core d) ∧ (t.core c).regs = k.regs ∧ (t.core c).spm = k.spm ∧ (t.core c).dmem = k.dmem ∧
       (∀ f, f ≠ e → (t.core c).win[f] = k.win[f]) ∧ (w.waiting = [] → w'.state = 0 ∧ w'.grants = []) ∧
       (w.mode ≠ 2 → w.count ≠ 0 → k.werr = 0 → (t.core c).werr.toNat % 2 ^ 10 = 1 + 2 * 9 + 2 ^ 5 * e.val) ∧
       (w.mode = 2 ∨ w.count = 0 → (t.core c).werr = k.werr) ∧
       (n = 0 → w.waiting = [] → w'.applying = false ∧ w'.staged = []) ∧
       (n ≠ 0 → w'.applying = true ∧ w'.state = 0 ∧ w'.staged = w.staged ∧
         (⟨3 * (max cyc k.applyFree + n), pNet, c, .apply e⟩ : Item) ∈ t.agenda ∧
         w'.result = ((applyAll prior w.staged).map fun x => (List.range 4).map fun i =>
           (w.base + 4 * x.1 + i, BitVec.ofNat 8 (x.2 / 256 ^ i))).flatten))) ∧
    (it.ev = .apply e → (w.applying = false → step s = .next s0) ∧
      (w.applying = true → ∃ t, step s = .next t ∧ (∀ d, d ≠ c → t.core d = s.core d) ∧ (t.core c).regs = k.regs ∧ (t.core c).dmem = k.dmem ∧
        (∀ f, f ≠ e → { (t.core c).win[f] with opened := (k.win[f]).opened } = k.win[f]) ∧
        (∀ xs a b ys, w.result = xs ++ (a, b) :: ys → (∀ x ∈ ys, x.1 ≠ a) → (t.core c).spm.byte a = b) ∧
        (∀ a, (∀ x ∈ w.result, x.1 ≠ a) → (t.core c).spm.byte a = k.spm.byte a) ∧
        (w.mode ≠ 2 ∨ w.waiting = [] → (t.core c).win[e] = { w with staged := [], applying := false, doneAt := cyc, result := [], unlock := none }) ∧
        ∀ id o, w.unlock = some id → s.op? id = some o → o.dev = s.device.toNat → answered t o))

/-- The receipt of an operation at its target (R268-R272, R277, R287-R289), with no soft error and no code 11 behind it: the first check
that fails rejects it with that check's code, recorded in WERR, and the windows stay; an accepted PUT or RACC is staged and counts; an
accepted GET counts, and lands at its origin what SPM held at the opening, but for a byte that timed writes have changed (R297, R414); a
WSTART waits for its interval or takes access; a WCOMPL gives access back and counts; a WLOCK takes its lock with the tag of the interval,
or waits behind the requests before it; a WUNLOCK gives its lock back, and the last one closes the interval and is answered with its apply. -/
def Claims.TargetsAnswer : Prop :=
  ∀ (s : State) (o : RemoteOp), s.op? s.focus.arg = some o → o.late = false → s.cur.marks = [] → o.dev = s.device.toNat →
    let c := s.focus.core.val
    let e : Fin 32 := ⟨o.entry % 32, Nat.mod_lt _ (by decide)⟩
    let w := s.cur.win[e]
    let checked := s.modOp o.id fun x => { x with got := c :: x.got }
    let answered := fun (t : State) (code : Nat) =>
      ∃ x ∈ t.agenda, x.core = o.core ∧ 3 * (s.cyc + 1) ≤ x.tick ∧
        x.ev = .run { argFocus o.core o.id with lits := [BitVec.ofNat 32 (256 * s.device.toNat + c)] } (.visibilityEvent (BitVec.ofNat 4 code))
    let named := w.valid = true ∧ o.part = w.word0.toNat / 2 ^ 40 % 2 ^ 3 ∧ w.word0.toNat / 2 ^ 44 % 2 ^ 10 ≤ o.dev ∧
      o.dev ≤ w.word0.toNat / 2 ^ 54 % 2 ^ 10
    ((o.kind = .wcompl ∧ w.mode = 1) ∨ (o.kind = .wunlock ∧ w.mode = 2) → named → w.state ≠ 0 → w.grants.contains o.rank = false →
      ∀ u : State, u.portCheck c w o = some 8) ∧
    ((o.kind = .wcompl ∨ o.kind = .wunlock) → s.behind c o = true → exec .remoteOperationReceipt s =
      .next (s.at c (s.cyc + 1) pNet (.run s.focus .remoteOperationReceipt))) ∧
    (¬((o.kind = .wcompl ∨ o.kind = .wunlock) ∧ s.behind c o = true) →
      (∀ code, { checked with freeCtr := s.freeCtr + 1 }.portCheck c w o = some code → ∃ t, exec .remoteOperationReceipt s = .next t ∧
        t.cur.win = s.cur.win ∧ t.cur.spm = s.cur.spm ∧ answered t code ∧ (s.cur.werr = 0 → t.cur.werr.toNat % 2 ^ 5 = 1 + 2 * (code % 16))) ∧
      ({ checked with freeCtr := s.freeCtr + 1 }.portCheck c w o = none →
        ((o.kind = .put ∨ o.kind = .putMc ∨ o.kind = .racc) → ∃ t, exec .remoteOperationReceipt s = .next t ∧ t.cur.spm = s.cur.spm ∧
          (t.cur.win[e]).staged = w.staged ++ [⟨if o.kind = .racc then .racc else .put, o.rank, o.id, o.start, o.off, o.op, o.type, o.data⟩] ∧
          (t.cur.win[e]).count = (if w.mode = 0 ∨ w.mode = 3 then (if w.count = 0 then 0 else w.count - 1) else w.count) ∧ answered t 0) ∧
        (o.kind = .wstart → w.state = 0 → ∃ t, exec .remoteOperationReceipt s = .next t ∧
          t.cur.win[e] = { w with waiting := w.waiting ++ [o.id] } ∧ t.agenda = s.agenda) ∧
        (o.kind = .wstart → w.state ≠ 0 → ∃ t, exec .remoteOperationReceipt s = .next t ∧
          t.cur.win[e] = { w with grants := w.grants ++ [o.rank] } ∧ answered t 0) ∧
        (o.kind = .wcompl → w.wwait = false → ∃ t, exec .remoteOperationReceipt s = .next t ∧ t.cur.win[e] =
          { w with grants := w.grants.filter (· != o.rank), count := (if w.count = 0 then 0 else w.count - 1), origins := (o.rank, o.id) :: w.origins } ∧
          answered t 0) ∧
        (o.kind = .get → ∃ t bs, exec .remoteOperationReceipt s = .next t ∧ t.cur.spm = s.cur.spm ∧
          (∃ x ∈ t.agenda, x.core = o.core ∧ 3 * (s.cyc + 1) ≤ x.tick ∧ x.ev = .getLand o.id (addressed o.loc bs)) ∧ bs.length = 4 * o.n ∧
          (∀ i b, bs[i]? = some b → let a := w.base + o.off + i
            (w.opened.find? (·.1 == a) = none → b = s.cur.spm.byte a) ∧
            ∀ x, w.opened.find? (·.1 == a) = some x → b ∈ x.2.values o.start ∨ (x.2.values o.start = [] ∧ b = s.cur.spm.byte a)) ∧
          t.cur.win[e] = { w with origins := (o.rank, o.id) :: w.origins
                                  count := if w.mode = 0 ∨ w.mode = 3 then (if w.count = 0 then 0 else w.count - 1) else w.count }) ∧
        (let free := w.state = 0 ∧ w.applying = false
         let can := fun (excl : Bool) => if excl then free else free ∨ (w.state = 2 ∧ w.holders < 63)
         (o.kind = .wlock → w.waiting = [] → can o.excl → ∃ t, exec .remoteOperationReceipt s = .next t ∧ answered t 0 ∧
           (∀ x, t.op? o.id = some x → x.tag = if free then w.tag + 1 else w.tag) ∧
           { t.cur.win[e] with opened := w.opened } = if free then
             { w with state := if o.excl then 3 else 2, tag := w.tag + 1, count := w.expect, staged := [], grants := [o.rank]
                      holders := if o.excl then 0 else 1, wwait := false, unlock := none, origins := [] }
             else { w with grants := w.grants ++ [o.rank], holders := w.holders + 1 }) ∧
         (o.kind = .wlock → ((w.waiting = [] ∧ ¬ can o.excl) ∨ ∃ id ids x, w.waiting = id :: ids ∧ s.op? id = some x ∧ ¬ can x.excl) →
           ∃ t, exec .remoteOperationReceipt s = .next t ∧ t.cur.win[e] = { w with waiting := w.waiting ++ [o.id] } ∧ t.agenda = s.agenda)) ∧
        (o.kind = .wunlock → w.state ≠ 3 → 2 ≤ w.holders → w.waiting = [] → ∃ t, exec .remoteOperationReceipt s = .next t ∧ answered t 0 ∧
          t.cur.win[e] = { w with grants := w.grants.filter (· != o.rank), holders := w.holders - 1, origins := (o.rank, o.id) :: w.origins }) ∧
        (o.kind = .wunlock → (w.state = 3 ∨ w.holders ≤ 1) → ∃ t, exec .remoteOperationReceipt s = .next t ∧
          (w.staged = [] → w.waiting = [] → (t.cur.win[e]).state = 0 ∧ (t.cur.win[e]).grants = [] ∧ answered t 0) ∧
          ((w.staged.map (·.elems.length)).sum ≠ 0 → (t.cur.win[e]).state = 0 ∧ (t.cur.win[e]).applying = true ∧
            (t.cur.win[e]).unlock = some o.id ∧ ∃ x ∈ t.agenda, x.core = c ∧ 3 * (s.cyc + 1) ≤ x.tick ∧ x.ev = .apply e))))

/-! ### Collectives -/

/-- A collective call (R326, R329, R331, R332, R334, R426, R427): the blocks of its members must agree, and its sources are then read; a
thinned call adds to the accumulator, apart from those of other groups, and completes; a communicating call takes it up, fails when a
member device cannot be reached or its block is unequal, and else writes its results to the destination of each member that is still in
its phase, and to nothing else; one whose accumulator is uncorrectable fails. A call that fails, or has not completed 2^20 cycles after a
member's start, delivers code 14 to every member whose task goes on. However it ends, the call is gone. A call that completes adds one to the
group's counter; one that fails leaves the counter behind it, and where it is behind the counter, as it was, which is the model's choice (log
entry 90), and so are the accumulator's place and that a call which finds none fails (log entry 15), and that the parts of cores outside the
group wait apart and leave the group as it was (log entry 109). That events go only to members whose task goes on, and results only to those
still in their phase, is the model's reading (log entry 84). -/
def Claims.CallsRun : Prop :=
  ∀ (s : State) (x : Call) (g : Group),
    let ended := fun (t : State) (code : BitVec 4) (acc : Option (Nat × Nat)) =>
      (∀ y ∈ t.calls, y.id ≠ x.id) ∧
      t.group x.group = some (if ∃ m ∈ x.members, 256 * s.device.toNat + m.core ∈ g.members then
        { g with seq := if code = 0 then g.seq + 1 else if (x.seq - g.seq).toNat < 2 ^ 15 then x.seq + 1 else g.seq
                 calls := g.calls + 1, acc := acc } else g) ∧
      ∀ m ∈ x.members, ∀ h, m.handle = some h → (s.core m.core).task = m.task → ∃ y ∈ t.agenda, ∃ reuse, y.core = m.core ∧ y.tick = max (3 * (s.cyc + 1)) s.now ∧
        y.ev = .setHandle h none reuse true code
    (s.calls.find? (·.id == s.focus.arg) = none → exec .collectiveSequenceStart s = .next s ∧ exec .collectiveCompletion s = .next s ∧
      exec .collectiveTimeout s = .next s) ∧
    (s.calls.find? (·.id == s.focus.arg) = some x → s.group x.group = some g →
      let isIn := fun (m : CollMember) => g.members.contains (256 * s.device.toNat + m.core)
      let all := ∀ m ∈ x.members, isIn m = true
      (s.callReady x = false → exec .collectiveSequenceStart s = .next s) ∧
      (s.callReady x = true → all → (∃ m ∈ x.members, callKey m.pb ≠ callKey x.block) → ∃ t, exec .collectiveSequenceStart s = .next t ∧
        ended t 14 none) ∧
      (s.callReady x = true → all → (∀ m ∈ x.members, callKey m.pb = callKey x.block) → ∃ t, exec .collectiveSequenceStart s = .next t ∧
        t.cores = s.cores ∧ t.calls = s.calls.map (fun y => if y.id = x.id then { y with stage := 1 } else y) ∧
        ∃ y ∈ t.agenda, y.ev = .collRead x.id ∧ 3 * (s.cyc + 1) ≤ y.tick) ∧
      (s.callReady x = true → ¬ all → x.id ≠ s.nextId → ∃ t, exec .collectiveSequenceStart s = .next t ∧
        { x with id := s.nextId, members := x.members.filter (!isIn ·) } ∈ t.calls ∧
        ∀ y ∈ t.calls, y.id = x.id → ∀ m ∈ y.members, isIn m = true) ∧
      (let thin := x.block.toNat / 2 ^ 48 % 2 ^ 16
       let red := x.block.toNat / 2 ^ 4 % 2 ^ 2
       let m := g.calls % max 1 thin
       let last := thin < 2 ∨ m = thin - 1
       let held : Option (Nat × Nat) := if 2 ≤ thin ∧ m = 0 then none else g.acc
       let old := s.readAcc { g with acc := held } x.sums.length
       let n := max x.sums.length (held.elim 0 (·.2))
       let place := s.accPlace x.group held n
       let far := ∃ r ∈ g.members, s.isSelf (r / 256) = false
       (2 ≤ thin → old = none → ∃ t, exec .collectiveCompletion s = .next t ∧ ended t 14 none) ∧
       (2 ≤ thin → ¬ last → old ≠ none → place = none → ∃ t, exec .collectiveCompletion s = .next t ∧ ended t 14 none) ∧
       (∀ xs a, 2 ≤ thin → ¬ last → old = some xs → place = some a → ∃ t, exec .collectiveCompletion s = .next t ∧
         (∀ c, { t.core c with loose := (s.core c).loose } = s.core c) ∧ ended t 0 (some (a, n)) ∧ a + 4 * n ≤ 2 ^ 28 ∧
         (∀ i v, (combAll red xs x.sums)[i]? = some v → t.chunk.le (a + 4 * i) 4 = v.toNat) ∧
         ∀ y ∈ s.groups, y.1 ≠ x.group → ∀ b k, y.2.acc = some (b, k) → ∀ i, i < 4 * k → t.chunk.byte (b + i) = s.chunk.byte (b + i)) ∧
       (last → (thin < 2 ∨ old ≠ none) →
         ((∃ r ∈ g.members, s.unreachable (r / 256) = true) ∨ (far ∧ Config.peersAgree s.freeCtr = false) → ∃ t,
           exec .collectiveCompletion s = .next t ∧ ended t 14 none) ∧
         ((∀ r ∈ g.members, s.unreachable (r / 256) = false) → (far → Config.peersAgree s.freeCtr = true) → ∃ t acc,
           exec .collectiveCompletion s = .next t ∧ ended t 0 acc ∧ (2 ≤ thin → acc = none) ∧ (thin < 2 → acc = g.acc) ∧
           (let y := if thin < 2 then x else { x with sums := combAll red (old.getD []) x.sums }
            let cells := fun (m : CollMember) => s.destCells m (s.callResult y g (s.freeCtr + 1) m)
            (∀ xs m ys, x.members = xs ++ m :: ys → (∀ z ∈ ys, z.core ≠ m.core) → s.memberHere m = true → (s.core m.core).marks = [] →
              ∀ c ∈ cells m, (t.core m.core).spm.byte c.1 = c.2) ∧
            ∀ c a, (∀ m ∈ x.members, m.core = c → s.memberHere m = true → ∀ e ∈ cells m, e.1 ≠ a) →
              (t.core c).spm.byte a = (s.core c).spm.byte a ∧ (t.core c).dmem = (s.core c).dmem ∧ (t.core c).regs = (s.core c).regs)))) ∧
      ((∀ m ∈ x.members, s.cyc < m.start + 2 ^ 20) → exec .collectiveTimeout s = .next s) ∧
      ((∃ m ∈ x.members, m.start + 2 ^ 20 ≤ s.cyc) → ∃ t, exec .collectiveTimeout s = .next t ∧ ended t 14 none))

/-- Stage 1 of a call (R326-R329): the source of each member core, still in its phase, is read by the collective path, for a byte that an
unordered write touches either value (R296), and converted to FP32; the sums of a reduction combine the sources element by element in
ascending core number; the local-reuse event of each member whose task goes on is readable at the next cycle; and the completion follows,
no sooner than 200 ns later where the call communicates between devices (R334). A member that has left its phase fails the call, which is
the model's reading (log entry 84). -/
def Claims.SourcesAreCombined : Prop :=
  ∀ (s : State) (it : Item) (rest : List Item) (id : Nat), s.agenda = it :: rest → it.ev = .collRead id →
    let s0 := { s with now := it.tick, agenda := rest, focus := coreFocus it.core }
    let cyc := it.tick / 3
    let le := fun (f : Nat → Byte) (a n : Nat) => (List.range n).foldr (fun i x => (f (a + i)).toNat + 256 * x) 0
    (s.calls.find? (·.id == id) = none → step s = .next s0) ∧
    ∀ (x : Call) (g : Group), s.calls.find? (·.id == id) = some x → s.group x.group = some g →
      let b := x.block.toNat
      let op := b % 2 ^ 4
      let red := b / 2 ^ 4 % 2 ^ 2
      let count := b / 2 ^ 128 % 2 ^ 32
      let source := fun (m : CollMember) (xs : List W32) =>
        let type := m.pb.toNat / 2 ^ 8 % 2 ^ 2
        let size := if type = 0 then 4 else 2
        let w := (s.core m.core).win[(⟨m.pb.toNat / 2 ^ 86 % 2 ^ 5, Nat.mod_lt _ (by decide)⟩ : Fin 32)]
        let base := w.base + m.pb.toNat / 2 ^ 64 % 2 ^ 22
        ∃ f : Nat → Byte,
          (∀ a, f a = (s.core m.core).spm.byte a ∨ ∃ l ∈ (s.core m.core).loose, l.addr = a ∧ l.unordered .c m.start = true ∧ f a = l.other) ∧
          (op ≤ 2 → xs.length = count) ∧ (op = 3 → s.position g m.core ≠ m.pb.toNat / 2 ^ 176 % 2 ^ 16 → xs = []) ∧
          ∀ i v, xs[i]? = some v → v = BitVec.ofNat 32 (collIn type (le f (base + size * i) size))
      ((∃ m ∈ x.members, s0.memberHere m = false) → ∃ t, step s = .next t ∧ ∀ y ∈ t.calls, y.id ≠ id) ∧
      ((∀ m ∈ x.members, s0.memberHere m = true ∧ (s.core m.core).marks = [] ∧ callKey m.pb = callKey x.block) →
        ∃ (t : State) (ms : List CollMember) (blocks : List (List W32)) (sums : List W32), step s = .next t ∧ List.Perm ms x.members ∧
          ms.Pairwise (fun m n => m.core ≤ n.core) ∧ blocks.length = ms.length ∧
          t.calls.find? (·.id == id) = some { x with stage := 2, members := ms, sums := sums, blocks := blocks } ∧
          (∀ (j : Nat) (m : CollMember) (xs : List W32), ms[j]? = some m → blocks[j]? = some xs → source m xs) ∧
          (op ≤ 1 → ∀ xs others, blocks = xs :: others → sums.length = count ∧ ∀ e, e < count →
            sums.getD e 0 = others.foldl (fun v ys => BitVec.ofNat 32 (comb red v.toNat (ys.getD e 0).toNat)) (xs.getD e 0)) ∧
          (2 ≤ op → sums = []) ∧
          (∀ m ∈ x.members, ∀ h, m.handle = some h → (s.core m.core).task = m.task →
            (⟨3 * (cyc + 1), pNet, m.core, .setHandle h none true false 0⟩ : Item) ∈ t.agenda) ∧
          (∃ y ∈ t.agenda, y.ev = .run (argFocus 0 id) .collectiveCompletion ∧ 3 * (cyc + 1) ≤ y.tick ∧
            (x.communicates g = true → (∃ r ∈ g.members, s.isSelf (r / 256) = false) → 3 * (cyc + 121) ≤ y.tick)) ∧
          ∀ c, t.core c = s.core c)

/-! ### Leases, translation, contexts and maintenance -/

/-- Leases, entries and records (R262, R307, R314, R405, R406): a grant follows the lease work; an invalidate clears its entry and what is
pending on it, and the lease work goes on; the watchdog of one still pending 2^20 cycles later is class 0x12, unless it takes effect in
that very cycle; a record that is over leaves, invalidates its entries, and raises its completion vector with LNR.id and its failure, on
the bridge. -/
def Obligations.LeasesAndRecords : Prop :=
  ∀ s : State,
    let c := s.focus.core.val
    let e := s.focus.arg % 64
    let x := Sp.get Tte.reset s.cur.tt e
    exec .leaseGrant s = .next { s with records := s.records.map fun r => if r.id = s.focus.arg then { r with granted := r.begun } else r } ∧
    (∃ t : State, exec .translationInvalidate s = .next t.headWork ∧
      Sp.get Tte.reset t.cur.tt e = { x with word := x.word &&& ~~~1, inval := none, owner := if x.valid.isSome then x.owner else none,
                                             fresh := x.fresh || s.cur.life == .halted } ∧
      (∀ y, y ≠ e → Sp.get Tte.reset t.cur.tt y = Sp.get Tte.reset s.cur.tt y) ∧ { t with cores := s.cores } = s ∧
      { t.cur with tt := s.cur.tt } = s.cur ∧ ∀ d, d ≠ c → t.core d = s.core d) ∧
    (x.inval = none → exec .invalidateWatchdogExpiry s = .next s) ∧
    (∀ n, x.inval = some n → n + 2 ^ 20 ≠ s.cyc → exec .invalidateWatchdogExpiry s = .next s) ∧
    let coming := ∃ y ∈ s.agenda, y.core = c ∧ y.tick ≤ 3 * s.cyc + 2 ∧ y.ev = .run (argFocus c e) .translationInvalidate
    (coming → exec .invalidateWatchdogExpiry s = .next s) ∧
    (∀ n, x.inval = some n → n + 2 ^ 20 = s.cyc → ¬ coming → ∃ t f, exec .invalidateWatchdogExpiry s = .next t ∧ t.cur.errs = s.cur.errs ++ [f] ∧ f.cls = 0x12 ∧
      f.loc = BitVec.ofNat 32 e ∧ f.act = .q ∧
      (⟨max (3 * (s.cyc + 1)) s.now, pTte, c, .run (argFocus c e) .translationInvalidate⟩ : Item) ∈ t.agenda) ∧
    (s.record? s.focus.arg = none → exec .recordCompletion s = .next s) ∧
    (∀ r, s.record? s.focus.arg = some r → ∃ t, exec .recordCompletion s = .next t ∧
      t.vectors = (if Config.isBridge then
        s.vectors ++ [⟨8 * r.part + 1, some (BitVec.ofNat 32 (r.word.toNat / 2 ^ 768), r.failed)⟩] else s.vectors) ∧
      (∀ y ∈ t.records, y.id ≠ r.id) ∧
      ∀ d, d < 256 → r.word.getLsbD (192 + d) = true → ∀ z ∈ (s.core d).tt, z.2.owner = some r.id →
        z.2.word.getLsbD 0 = true → z.2.inval = none →
        if (s.core d).life = .task ∨ (s.core d).life = .halted then
          (⟨max (3 * (s.cyc + 2 ^ 20)) s.now, pEnd, d, .run (argFocus d z.1) .invalidateWatchdogExpiry⟩ : Item) ∈ t.agenda
        else (⟨max (3 * s.cyc) s.now, pNet, d, .run (argFocus d z.1) .translationInvalidate⟩ : Item) ∈ t.agenda)

/-- The context of a halted core (R253, R421, R422): once the core is idle, a firmware chain begins on its channel, with the timing registers
that wait for a chain start, and within 36,000 cycles the image stands in the context area, SPM, DMEM and the registers at their offsets
(those of the registers within their block are log entry 13's), and every other byte of HBM is unchanged. Once saved and idle again, the
core is restored by a firmware chain: it holds what its image holds, its windows are closed with their counts at the expectation, and its
translation entries are those of the image, but for one that the controller has changed since (log entry 13). A core that is not halted is
left alone. -/
def Obligations.ContextsAreSavedAndRestored : Prop :=
  ∀ s : State,
    let c := s.focus.core.val
    let base := 0x7F800000
    let begins := fun (i : Instr) (n : Nat) => ∃ t r, exec i s = .next t ∧ t.ch.run = some r ∧ r.firmware = true ∧ r.start = s.cyc ∧
      t.ch.tim = s.ch.timNew ∧ t.cur.spm = s.cur.spm ∧ t.cur.regs = s.cur.regs ∧ t.ch.hbm = s.ch.hbm ∧
      (⟨max (3 * (s.cyc + 1 + n)) s.now, pEnd, c, .run (argFocus c 1) i⟩ : Item) ∈ t.agenda
    (s.cur.life ≠ .halted → s.focus.arg = 0 → exec .contextSave s = .next s ∧ exec .contextRestore s = .next s) ∧
    (s.cur.life ≠ .halted → s.focus.arg ≠ 0 → exec .contextSave s = .next (s.stopChain c s.now) ∧ exec .contextRestore s = .next (s.stopChain c s.now)) ∧
    (s.cur.life = .halted →
      (s.focus.arg = 0 → s.contextIdle c = false → exec .contextSave s = .next (s.at c (s.cyc + 1) pEnd (.run s.focus .contextSave))) ∧
      (s.focus.arg = 0 → s.contextIdle c = true → ∃ n, n < 36000 ∧ begins .contextSave n) ∧
      (s.focus.arg ≠ 0 → s.cur.memWf → (∀ x ∈ s.mx.acc, x.1 < 0x40000) → (∀ x ∈ s.mx.half0.entries ++ s.mx.half1.entries, x.1 < 12288) →
        ∃ t, exec .contextSave s = .next t ∧
        (∀ i, i < 0x400000 → t.ch.hbm.byte (base + i) = s.cur.spm.byte i) ∧
        (∀ i, i < 0x40000 → t.ch.hbm.byte (base + 0x500000 + i) = s.cur.dmem.byte i) ∧
        (∀ r : Fin 32, t.ch.hbm.le (base + 0x578000 + 512 * r.val) 512 = s.cur.regs.v[r].toNat ∧
          t.ch.hbm.le (base + 0x57C000 + 8 * r.val) 8 = s.cur.regs.s[r].toNat) ∧
        (∀ a, (a < base ∨ base + 0x57D000 ≤ a) → t.ch.hbm.byte a = s.ch.hbm.byte a) ∧
        t.cur.spm = s.cur.spm ∧ t.cur.regs = s.cur.regs ∧ t.ch.run = none ∧ ∀ x ∈ t.saved, x.core = c → x.done = true) ∧
      (s.focus.arg = 0 → ((∃ x ∈ s.saved, x.core = c ∧ x.done = false) ∨ s.contextIdle c = false) →
        exec .contextRestore s = .next (s.at c (s.cyc + 1) pEnd (.run s.focus .contextRestore))) ∧
      (s.focus.arg = 0 → (∀ x ∈ s.saved, x.core = c → x.done = true) → s.contextIdle c = true → ∃ n, begins .contextRestore n) ∧
      (s.focus.arg ≠ 0 → (∀ i, s.cur.image = some i → s.sectionsBad i [0, 3, 4, 5] = false) → ∃ t, exec .contextRestore s = .next t ∧
        (∀ i, i < 0x400000 → t.cur.spm.byte i = s.ch.hbm.byte (base + i)) ∧
        (∀ i, i < 0x40000 → t.cur.dmem.byte i = s.ch.hbm.byte (base + 0x500000 + i)) ∧
        (∀ r : Fin 32, t.cur.regs.v[r].toNat = s.ch.hbm.le (base + 0x578000 + 512 * r.val) 512 ∧
          t.cur.regs.s[r].toNat = s.ch.hbm.le (base + 0x57C000 + 8 * r.val) 8) ∧
        (∀ w : Fin 32, (t.cur.win[w]).state = 0 ∧ (t.cur.win[w]).count = (t.cur.win[w]).expect ∧
          (t.cur.win[w]).word0 = BitVec.ofNat 64 (s.ch.hbm.le (base + 0x57C000 + 2608 + 16 * w.val) 8) &&& 0xFFFFF7FFFFFFFF3F) ∧
        (∀ e, e < 64 → (Sp.get Tte.reset t.cur.tt e).word = if (Sp.get Tte.reset s.cur.tt e).fresh then (Sp.get Tte.reset s.cur.tt e).word
          else BitVec.ofNat 64 (s.ch.hbm.le (base + 0x57C000 + 3120 + 8 * e) 8) &&& 0x3FFFFE0003F) ∧
        (∀ m ∈ t.cur.marks, m ∈ s.cur.marks ∧ m.store ≠ .spm ∧ m.store ≠ .dmem ∧ m.store ≠ .s ∧ m.store ≠ .v ∧ m.store ≠ .ttab) ∧
        t.ch.run = none ∧ t.ch.hbm = s.ch.hbm ∧ ∀ x ∈ t.saved, x.core = c → x.ready = some s.cyc))

/-- The end of a maintenance slot (R257): the pseudo-channel is handed back with every bank closed and without history; with nothing to
propagate, move, access or scrub, the channel is otherwise as it was. -/
def Obligations.MaintenanceSlotsEnd : Prop :=
  ∀ s : State,
    let p := pcOf s.focus.arg
    (∃ t, exec .maintSlotEnd s = .next t ∧ (∀ b, b % 2 = p.val → t.ch.bank b = ⟨none, false, false, 0, none, none, none, none, none⟩) ∧
      (t.ch.pc[p]).acts = [] ∧ (t.ch.pc[p]).rw = none ∧ (t.ch.pc[p]).wrT = none ∧ (t.ch.pc[p]).prea = none ∧ (t.ch.pc[p]).closed = none ∧
      (t.ch.pc[p]).refab = none ∧ (t.ch.pc[p]).maint = none) ∧
    (s.pages = [] → s.moves = [] → s.hbmCmd = none → s.baseDie s.focus.core.val = false → ∃ t,
      exec .maintSlotEnd s = .next t ∧ (∀ b, b % 2 ≠ p.val → t.ch.bank b = s.ch.bank b) ∧ t.ch.hbm = s.ch.hbm ∧ t.ch.run = s.ch.run ∧
      (t.ch.pc[p]).debtD = (s.ch.pc[p]).debtD ∧ (t.ch.pc[p]).debtM = (s.ch.pc[p]).debtM ∧ t.cur.spm = s.cur.spm ∧ t.cur.regs = s.cur.regs)

/-! ### The cadence -/

/-- The counting of arrivals and the decision (R33, R36, R38, R44, R292, R302): a compute-phase arrival counts at its cycle, and an
exchange-phase arrival once nothing of its phase is outstanding; under the barrier-driven drive the phase is decided when every
core has arrived, an owner without a task once its update is in place; at the straggler budget or a scheduled boundary it is decided as
it stands. A decision places the power admission 32 cycles later. -/
def Obligations.PhasesAreDecided : Prop :=
  ∀ s : State,
    let c := s.focus.core.val
    let decides := fun (t : State) => t.decided = some s.cyc ∧
      (⟨3 * (s.cyc + 32), pBoundary, 0, .run Focus.reset .powerAdmission⟩ : Item) ∈ t.agenda
    (s.cur.arrival = none → exec .arrivalCount s = .next s) ∧
    (∀ a, s.cur.arrival = some a → a.counted ≠ none → exec .arrivalCount s = .next s) ∧
    (∀ a, s.cur.arrival = some a → a.counted = none → a.forced = false → s.exchange c = false → ∃ t, exec .arrivalCount s = .next t ∧
      t.cur.arrival = some { a with counted := some s.cyc } ∧ t.cur.regs = s.cur.regs ∧
      (s.driven = false → s.decided = none → s.released = true →
        ((∀ x ∈ s.awaited, x ≠ c → (s.core x).arrived = true) → (s.count.getLsbD 0 = false ∨ s.pages = []) → decides t) ∧
        ((∃ x ∈ s.awaited, x ≠ c ∧ (s.core x).arrived = false) → t.decided = none)) ∧
      ((s.driven = true ∨ s.decided ≠ none ∨ s.released = false) → t.decided = s.decided)) ∧
    (∀ a, s.cur.arrival = some a → a.counted = none → a.forced = false → s.exchange c = true →
      (∀ e : Fin 32, (s.cur.win[e]).state = 0 ∧ (s.cur.win[e]).applying = false ∧ (s.cur.win[e]).waiting = []) →
      (s.phaseOps c = false → s.updatesIn c = true → ∃ t, exec .arrivalCount s = .next t ∧ t.cur.arrival = some { a with counted := some s.cyc }) ∧
      ((s.phaseOps c = true ∨ s.updatesIn c = false) → ∃ t, exec .arrivalCount s = .next t ∧ t.cur.arrival = some a ∧
        (⟨3 * (s.cyc + 1), pEnd, c, .run s.focus .arrivalCount⟩ : Item) ∈ t.agenda)) ∧
    ((s.driven = true ∨ s.decided ≠ none ∨ s.budget = 0 ∨ s.phStart + s.budget ≠ s.cyc) → exec .stragglerBudgetExpiry s = .next s) ∧
    (s.driven = false → s.decided = none → s.budget ≠ 0 → s.phStart + s.budget = s.cyc → ∃ t, exec .stragglerBudgetExpiry s = .next t ∧ decides t) ∧
    ((s.driven = false ∨ s.decided ≠ none ∨ s.disciplined = false) → exec .timeDrivenBoundary s = .next s) ∧
    (s.driven = true → s.decided = none → s.disciplined = true →
      (s.cyc + 32 < s.cycleAt s.tbound.toNat → exec .timeDrivenBoundary s = .next s.placeBoundary) ∧
      (s.cycleAt s.tbound.toNat ≤ s.cyc + 32 → ∃ t, exec .timeDrivenBoundary s = .next t ∧ decides t))

/-- The admission of a phase (R322, R429): the draw of the next phase fits the budget, or its excess over the horizon fits the credit; or
the drive, the idle draw or a full credit forces it, as an overdraft; else the boundary is held for a cycle. The partitions whose
pre-emption is requested halt here, whether the boundary is held or not (R54), but for one that is being quarantined (R431). That a partition
without a task that has arrived counts as halted too is the model's reading (log entry 44). -/
def Claims.PowerAdmitsPhases : Prop :=
  ∀ s : State, ∃ t, exec .powerAdmission s = .next t ∧
    let d := t.nextDraw
    let fits := d ≤ t.powerBudget ∨ ((d : Int) - t.powerBudget) * t.horizon ≤ t.credit
    let forced := s.driven = true ∨ t.powerBudget ≤ t.idleDraw ∨ (2 * t.powerBudget < d ∧ ((t.powerBudget * t.horizon : Nat) : Int) ≤ t.credit)
    (fits ∨ forced → t.draw = d ∧ (⟨max (3 * s.cyc) s.now, pBoundary, 0, .run Focus.reset .phaseBoundary⟩ : Item) ∈ t.agenda) ∧
    (¬fits → forced → t.perrst.getLsbD 33 = true) ∧
    (¬(fits ∨ forced) → t.draw = s.draw ∧ (⟨3 * (s.cyc + 1), pBoundary, 0, .run Focus.reset .powerAdmission⟩ : Item) ∈ t.agenda) ∧
    t.credit ≤ ((t.powerBudget * t.horizon : Nat) : Int) ∧ t.count = s.count ∧
    (s.preempt = [] → t.cores = s.cores ∧ (fits → t.vectors = s.vectors)) ∧
    ∀ p, (p ∈ t.preempt ↔ p ∈ s.preempt ∧ p ∈ s.quarantine) ∧ (p ∈ s.preempt → p ∉ s.quarantine → p ∈ t.halted)

/-- A pending arming at its waiting phase (R44, R55): rejected with status 6 when T0 has come within 320/3 ns or the schedule is not
allowed; else its registers take effect, the drive is time-driven, its count is armed, and a reversion that waited is undone. That one
taken while the drive is time-driven already does the same is the model's choice (log entry 71). -/
def Claims.ArmingsAreChecked : Prop :=
  ∀ (s : State) (a : Arming),
    (s.arming = none → exec .armingCheck s = .next s) ∧
    (s.arming = some a →
      let late := 3 * 65536 * (a.regs.tbase.toNat : Int) - 320 * 65536 < 3 * (s.timeFix s.cyc : Int)
      let long := a.regs.ctl.getLsbD 1 = true ∧ (1900 < a.regs.tper.toNat % 2 ^ 32 ∨ 1900 < a.regs.tper.toNat / 2 ^ 32 % 2 ^ 32)
      (late ∨ long → ∃ t, exec .armingCheck s = .next t ∧ t.arming = none ∧ t.driven = s.driven ∧ t.cad = s.cad ∧
        t.cmd.byte (4096 * a.slot + 10) = 6) ∧
      (¬(late ∨ long) → ∃ t, exec .armingCheck s = .next t ∧ t.arming = none ∧ t.driven = true ∧ t.cad = a.regs ∧ t.cadNew = a.regs ∧
        t.tbound = a.regs.tbase ∧ t.armed = a.count ∧ t.reverting = false ∧ t.needsArmtd = (s.needsArmtd && a.count.isNone) ∧
        t.cmd.byte (4096 * a.slot + 10) = 1))

/-- The boundary (R32, R36, R40, R41, R42, R44, R428): the counter takes its armed or its next value, the registers that waited take
effect, CADTBASE of an active schedule stays, a drive that reverts is barrier-driven from here on, and the next phase begins at this
cycle. With one task, no other work and nothing left to apply: a task that has arrived goes on at cycle 0 in the class that it declared, and
one that has ended is over. -/
def Obligations.BoundariesBeginPhases : Prop :=
  ∀ s : State, ∃ t, exec .phaseBoundary s = .next t ∧ t.count = (match s.armed with | some n => n | none => s.count + 1) ∧
    t.armed = none ∧ t.phStart = s.cyc ∧ t.decided = none ∧ t.reverting = false ∧ t.now = s.now ∧
    t.driven = (s.cadNew.ctl.getLsbD 0 && !s.reverting) ∧ t.cadNew.ctl.getLsbD 0 = t.driven ∧ t.cadNew.tbase = s.cadNew.tbase ∧
    t.cadNew.tper = s.cadNew.tper ∧ (∀ b, b ≠ 0 → t.cadNew.ctl.getLsbD b = s.cadNew.ctl.getLsbD b) ∧ t.cad.ctl = t.cadNew.ctl ∧
    t.cad.tper = t.cadNew.tper ∧ t.cad.tbase = (if t.driven then s.cad.tbase else s.cadNew.tbase) ∧
    (⟨max (3 * s.cyc) s.now, pEnd, 0, .decide⟩ : Item) ∈ t.agenda ∧
    (∀ c k a, s.cores = [(c, k)] → s.lqs = [] → s.records = [] → s.quarantine = [] → s.preempt = [] → s.resuming = [] → s.partset = [] →
      k.life = .task → k.arrival = some a → a.counted ≠ none → k.drain = none → k.phase = none → (∀ e : Fin 32, (k.win[e]).applying = false) →
      (a.ends = false → (t.core c).life = .task ∧ (t.core c).arrival = none ∧ (t.core c).regs = k.regs ∧ (t.core c).spm = k.spm ∧
        (t.core c).pclass = (if a.pclass = 0 then k.deftClass else a.pclass) ∧
        (⟨max (3 * s.cyc) s.now, pIssue, c, .issue⟩ : Item) ∈ t.agenda) ∧
      (a.ends = true → (t.core c).life = .free ∧ (t.core c).record = none ∧ ∀ e : Fin 32, ((t.core c).win[e]).valid = false))

/-! ### The fabric, time and power -/

/-- The stations (R333, R335, R423): a flit that passes clears the retries of its station; each of the first eight failures is retried,
and the ninth takes the station down, with the event's vector of every partition on the bridge; it retrains, and then carries traffic if
FABCTL enables it. -/
def Claims.StationsRetryAndRetrain : Prop :=
  ∀ s : State,
    let i : Fin 16 := ⟨s.focus.arg % 16, Nat.mod_lt _ (by decide)⟩
    exec (.flitReceipt true) s = .next { s with retries := s.retries.set i 0 } ∧
    (∃ t, exec (.flitReceipt false) s = .next t ∧ t.retries = s.retries.set i (s.retries[i] + 1) ∧ t.cores = s.cores ∧
      (s.retries[i] ≠ 8 → t.agenda = s.agenda) ∧
      (s.retries[i] = 8 → t.agenda = insertItem ⟨max (3 * s.cyc) s.now, pNet, 0, .run (argFocus 0 i.val) .stationDown⟩ s.agenda)) ∧
    (∃ t, exec .stationDown s = .next t ∧ t.perrst.getLsbD (16 + i.val) = true ∧ t.cores = s.cores ∧
      (Config.isBridge = true → ∀ p, p < 8 → ⟨8 * p + 5, none⟩ ∈ t.vectors) ∧
      ∃ x ∈ t.agenda, x.ev = .run (argFocus 0 i.val) .stationRetrained ∧ 3 * (s.cyc + 1) ≤ x.tick) ∧
    (∃ t, exec .stationRetrained s = .next t ∧ t.fabctl = s.fabNew ∧ t.perrst.getLsbD (16 + i.val) = false ∧ t.retries[i] = 0 ∧
      t.trained.getLsbD i.val = s.fabNew.getLsbD (1 + i.val) ∧ (∀ j : Fin 16, j ≠ i → t.trained.getLsbD j.val = s.trained.getLsbD j.val) ∧
      t.cores = s.cores ∧ t.agenda = s.agenda)

/-- Beacon time and power (R339, R340, R347, R428, R430): once power-on has started the discipline, the first message sets TIME and later
ones leave it; the loss of lock clears TSTAT.locked, sets holdover and PERRST.tlost, and under the time-driven drive makes it revert at a
boundary, until a new ARMTD; the alarm and a stack at 95 degrees begin an emergency, and the release of the alarm ends none by itself. That
a message before the discipline has started does nothing is the model's reading (log entry 76). -/
def Claims.TimeAndPowerEvents : Prop :=
  ∀ (s : State) (ns : W64) (deg : Byte),
    (∃ t, exec .timeLockLoss s = .next t ∧ t.tstat.getLsbD 0 = false ∧ t.tstat.getLsbD 1 = true ∧ t.perrst.getLsbD 32 = true ∧
      t.driven = s.driven ∧ t.cad = s.cad ∧ t.cadNew = s.cadNew ∧
      (s.driven = true → t.reverting = true ∧ t.needsArmtd = true ∧ (Config.isBridge = true → ∀ p, p < 8 → ⟨8 * p + 7, none⟩ ∈ t.vectors)) ∧
      (s.driven = false → t.reverting = s.reverting ∧ t.needsArmtd = s.needsArmtd ∧ t.vectors = s.vectors) ∧ t.cores = s.cores) ∧
    (s.ptp = false → exec (.ptpMessageReceipt ns) s = .next s) ∧
    (s.ptp = true → ∃ t, exec (.ptpMessageReceipt ns) s = .next t ∧ t.disciplined = true ∧ -200000 ≤ t.rate ∧ t.rate ≤ 200000 ∧ t.cores = s.cores ∧
      t.timeFix s.cyc = (if s.disciplined then s.timeFix s.cyc else ns.toNat * 65536) ∧
      (s.disciplined = false → t.tstat.getLsbD 0 = true ∧ t.timeNs s.cyc = ns)) ∧
    (∃ t, exec .powerAlarm s = .next t ∧ t.alarm = true ∧ t.emergency = true ∧ t.cores = s.cores ∧
      (s.emergency = false → t.perrst.getLsbD 34 = true ∧ (s.driven = true → t.reverting = true ∧ t.needsArmtd = true) ∧
        (Config.isBridge = true → ∀ p, p < 8 → ⟨8 * p + 7, none⟩ ∈ t.vectors)) ∧
      (s.emergency = true → t = { s with alarm := true })) ∧
    exec .powerAlarmRelease s = .next { s with alarm := false } ∧
    (∃ t, exec (.stackTemperature deg) s = .next t ∧ t.temps = s.temps.set (⟨s.focus.arg % 8, Nat.mod_lt _ (by decide)⟩ : Fin 8) deg ∧
      t.cores = s.cores ∧ ((∀ x ∈ s.mboxWait, x.1 / 32 ≠ s.focus.arg) → t.mboxIn = s.mboxIn.filter (·.1 != s.focus.arg)) ∧
      (95 ≤ deg.toInt → t.emergency = true) ∧
      (deg.toInt < 95 → t.emergency = s.emergency ∧ t.perrst = s.perrst))

/-- The messages of the stacks and of other devices (R338, R352, R358, R359, R408, R409, R443): a range moves the scrub walk, a repair joins
the requests of its pseudo-channel, each uncorrectable block reported is an event record, a channel without a spare goes out of service
or its training routine goes on; a message empties its slot, and the one that has waited longest fills it; forwarded records join their
queue, and forwarded commands, with header and payload, and statuses are taken up. That a range moves the walk of each pseudo-channel to the
first of its blocks in the range, and leaves it where the range holds none, is the model's reading (log entry 48), and so is that a channel
number is taken modulo 32 (log entry 120). -/
def Obligations.MessagesTakeEffect : Prop :=
  ∀ (s : State) (chan : Fin 32) (pa len ce ue first : W32) (pc : Fin 2) (lane spare st : Byte) (part : Fin 8) (r : W64),
    let c := 32 * (s.focus.arg % 8) + chan.val
    let k := s.core c
    (∃ t, exec (.scrubRange chan pa len) s = .next t ∧ (t.core c).ch.banks = k.ch.banks ∧ (t.core c).ch.hbm = k.ch.hbm ∧ t.agenda = s.agenda ∧
      ∀ p : Fin 2, let a := pa.toNat % 2 ^ 31
        let mine := fun (u : Nat) => u / 16 % 2 = p.val ∧ a / 64 ≤ u ∧ 64 * u < a + len.toNat ∧ u < 2 ^ 25
        (∀ u, mine u → (∀ v, mine v → u ≤ v) → len.toNat ≠ 0 → ((t.core c).ch.pc[p]).scrub = u / 32 * 16 + u % 16) ∧
        ((len.toNat = 0 ∨ ∀ u, ¬ mine u) → ((t.core c).ch.pc[p]).scrub = (k.ch.pc[p]).scrub)) ∧
    (∃ t, exec (.repairLane chan pc lane spare) s = .next t ∧
      ((t.core c).ch.pc[pc]).repairReq = (k.ch.pc[pc]).repairReq ++ [lane.toNat + 256 * spare.toNat] ∧ (t.core c).phy = k.phy ∧ t.agenda = s.agenda) ∧
    (∃ t, exec (.correctedErrorCount chan ce ue first) s = .next t ∧ t.cores = s.cores ∧
      ((∀ x ∈ s.mboxWait, x.1 / 32 ≠ s.focus.arg) → t.mboxIn = s.mboxIn.filter (·.1 != s.focus.arg) ∧ t.agenda = s.agenda) ∧
      (∀ x rest, s.mboxWait = x :: rest → x.1 / 32 = s.focus.arg → t.mboxWait = rest ∧ (x.1 / 32, x.2.2) ∈ t.mboxIn ∧
        (⟨max (3 * s.cyc) s.now, pNet, x.1, .run (argFocus x.1 (x.1 / 32)) x.2.1⟩ : Item) ∈ t.agenda) ∧
      t.vectors = s.vectors ∧ ((Sp.get [] s.events k.part.val).length + ue.toNat ≤ 64 → Sp.get [] t.events k.part.val =
        Sp.get [] s.events k.part.val ++ List.replicate ue.toNat
          (BitVec.ofNat 64 (0x13 + 2 ^ 5 * c + 2 ^ 13 * s.device.toNat + 2 ^ 26 * ((s.countOf c).toNat % 2 ^ 38))))) ∧
    (∃ t, exec (.repairDone chan st) s = .next t ∧
      ((∀ x ∈ s.mboxWait, x.1 / 32 ≠ s.focus.arg) → t.mboxIn = s.mboxIn.filter (·.1 != s.focus.arg)) ∧ (t.core c).phy.map = k.phy.map ∧
      (k.phy.train = none → (st ≠ 1 → t.cores = s.cores) ∧ (st = 1 → (t.core c).phy.trnst.toNat % 4 = 2)) ∧
      (∀ x, k.phy.train = some x → (t.core c).phy.trnst = k.phy.trnst ∧
        (⟨max (3 * s.cyc) s.now, pEnd, c, .train⟩ : Item) ∈ t.agenda ∧
        (st = 0 → (t.core c).phy.train = some { x with begun := false, repairs := x.repairs.drop 1 }) ∧
        (st ≠ 0 → (t.core c).phy.train = some { x with broke := true }))) ∧
    exec .forwardedStatusReceipt s = .next (s.finish (s.focus.arg % 256) (s.focus.arg / 256 % 256)) ∧
    (∃ t, exec .forwardedCommandReceipt s = .next t ∧ t.doorbells = s.doorbells ++ [s.focus.arg % 256] ∧
      t.fwdSlots = s.fwdSlots ++ [s.focus.arg % 256] ∧ t.fwBusy = true ∧ t.cores = s.cores ∧
      ∀ (n : Nat) (x : W32), n < 1024 → s.focus.lits[n]? = some x → t.cmd.le (4096 * (s.focus.arg % 256) + 4 * n) 4 = x.toNat) ∧
    (∃ t, exec (.forwardedEventRecordReceipt part r) s = .next t ∧ t.cores = s.cores ∧
      (let cls := r.toNat % 2 ^ 5
       let act := r.toNat / 2 ^ 23 % 2 ^ 3
       let raise := fun n => t.vectors = if Config.isBridge then s.vectors ++ [⟨8 * part.val + n, none⟩] else s.vectors
       (cls = 0x17 → raise 5) ∧ (cls = 0x18 ∨ cls = 0x19 → raise 7) ∧
       (cls ∉ [0x17, 0x18, 0x19] → (act = 0 → t.vectors = s.vectors) ∧ (act = 1 → raise 3) ∧ (2 ≤ act → raise 2))) ∧
      ((Sp.get [] s.events part.val).length < 64 → Sp.get [] t.events part.val = Sp.get [] s.events part.val ++ [r]))

/-! ### The device commands -/

/-- A doorbell and the completion of a command (R18, R338, R349): on the bridge a doorbell with a slot's number queues it; a completion
writes the status byte of the slot alone, raises vector 8p of its partition on the bridge, and lets the firmware take the next doorbell.
That a doorbell of another number is ignored is the model's choice (log entry 25). -/
def Claims.CommandsComplete : Prop :=
  ∀ (s : State) (v : W32) (slot code : Nat),
    (256 ≤ v.toNat ∨ Config.isBridge = false → exec (.cmddb v) s = .next s) ∧
    (v.toNat < 256 → Config.isBridge = true → ∃ t, exec (.cmddb v) s = .next t ∧ t.doorbells = s.doorbells ++ [v.toNat] ∧ t.fwBusy = true ∧
      t.cmd = s.cmd ∧ t.cores = s.cores ∧
      (s.fwBusy = false → (⟨max (3 * (s.cyc + 1)) s.now, pEnd, 0, .firmware⟩ : Item) ∈ t.agenda) ∧ (s.fwBusy = true → t.agenda = s.agenda)) ∧
    (let t := s.finish slot code
     t.cmd.byte (4096 * slot + 10) = BitVec.ofNat 8 code ∧ (∀ a, a ≠ 4096 * slot + 10 → t.cmd.byte a = s.cmd.byte a) ∧ t.cores = s.cores ∧
     (slot ∉ s.fwdSlots → t.vectors =
       if Config.isBridge then s.vectors ++ [⟨8 * (s.cmd.le (4096 * slot) 8 / 2 ^ 18 % 2 ^ 3), none⟩] else s.vectors) ∧
     (slot ∈ s.fwdSlots → t.vectors = s.vectors ∧ t.forwarded = s.forwarded ++ [(256 + slot, BitVec.ofNat 64 code)]) ∧
     t.doorbells = s.doorbells ∧ (t.fwBusy = true ↔ s.doorbells ≠ []) ∧
     (s.doorbells ≠ [] → (⟨max (3 * (s.cyc + 1)) s.now, pEnd, 0, .firmware⟩ : Item) ∈ t.agenda))

/-- The registers (R42, R44, R293, R316, R350, R356-R358, R428, R440): RDREG returns the value in force and status 3 for what is not listed;
the reads of WERR, CERRST, PERRST and the event queues clear what they return; WRREG sets what its register stores, or waits for its
moment, CADTBASE of an active schedule for the next arming; the write of WRRW resets its partition's credits, and PHYCTL.clr reseeds every
generator. The firmware takes each of them for the register code that R350 lists, and a WRREG that sets CADCTL.drive as an arming; that
one is turned away with status 6 once the drive has reverted is the model's choice (log entry 81). -/
def Obligations.RegisterCommands : Prop :=
  ∀ s : State,
    let slot := s.focus.arg % 256
    let len := s.cmd.le (4096 * slot + 8) 2 % 2 ^ 12
    let code := s.cmd.le (4096 * slot + 64) 4
    let i := s.cmd.le (4096 * slot + 68) 4
    let v := BitVec.ofNat 64 (s.cmd.le (4096 * slot + 72) 8)
    s.commandOf slot 3 = some (if code = 0x40 then .werrRead else if code = 0x42 then .cerrstRead else if code = 0x43 then .perrstRead
      else if code = 0x44 then .eventQueueRead else .rdreg) ∧
    s.commandOf slot 2 = some (if code = 1 ∧ v.getLsbD 0 = true ∧ s.cad.ctl.getLsbD 0 = false then .cadctlDriveArm
      else if code = 0x20 then .wrrwWrite else .wrreg) ∧
    (len ≠ 8 → ∀ x : Instr, (x = .rdreg ∨ x = .werrRead ∨ x = .cerrstRead ∨ x = .perrstRead ∨ x = .eventQueueRead) → exec x s = .next (s.finish slot 3)) ∧
    (len ≠ 16 → ∀ x : Instr, (x = .wrreg ∨ x = .wrrwWrite) → exec x s = .next (s.finish slot 3)) ∧
    (len = 8 →
      (∀ n x, (n, x) ∈ [(0x01, s.cad.ctl), (0x02, s.cad.tbase), (0x03, s.cad.tper), (0x21, s.pwradm), (0x22, s.pcwlo), (0x23, s.pcwhi),
        (0x30, s.fabctl), (0x41, s.tstat), (0x50, s.bootst)] → code = n → exec .rdreg s = .next (s.replyWord slot x)) ∧
      (i < 8 → code = 0x20 → exec .rdreg s = .next (s.replyWord slot (Sp.get 0x8421 s.wrrw i))) ∧
      (8 ≤ i → code = 0x20 → exec .rdreg s = .next (s.finish slot 3)) ∧
      (i < 256 → (code = 0x10 → exec .rdreg s = .next (s.replyWord slot (s.core i).ch.tim[0])) ∧
        (code = 0x48 → exec .rdreg s = .next (s.replyWord slot (s.core i).phy.trnst)) ∧
        exec .werrRead s = .next ((s.modCore i fun k => { k with werr := 0, werrBy := (0, 0) }).replyWord slot (s.core i).werr) ∧
        ∃ t : State, exec .cerrstRead s = .next (t.replyWord slot (s.core i).cerrst) ∧
          (∀ b, (t.core i).cerrst.getLsbD b = ((s.core i).cerrst.getLsbD b && decide (32 ≤ b ∧ b ≠ 38))) ∧
          ∀ c, c ≠ i → t.core c = s.core c) ∧
      (256 ≤ i → (code = 0x10 → exec .rdreg s = .next (s.finish slot 3)) ∧ exec .werrRead s = .next (s.finish slot 3) ∧
        exec .cerrstRead s = .next (s.finish slot 3)) ∧
      (code ∉ [1, 2, 3, 0x10, 0x11, 0x12, 0x20, 0x21, 0x22, 0x23, 0x30, 0x31, 0x40, 0x41, 0x42, 0x43, 0x44, 0x45, 0x46, 0x47, 0x48, 0x50, 0x51] →
        exec .rdreg s = .next (s.finish slot 3)) ∧
      (∃ x, exec .perrstRead s = .next ({ s with perrst := x }.replyWord slot s.perrst) ∧
        ∀ b, x.getLsbD b = (s.perrst.getLsbD b && decide (16 ≤ b ∧ b ≠ 32 ∧ b ≠ 33))) ∧
      (8 ≤ i → exec .eventQueueRead s = .next (s.finish slot 3)) ∧
      (i < 8 → Sp.get [] s.events i = [] → exec .eventQueueRead s = .next (s.replyWord slot 0)) ∧
      (∀ r rest, i < 8 → Sp.get [] s.events i = r :: rest → ∃ e, exec .eventQueueRead s = .next ({ s with events := e }.replyWord slot r) ∧
        Sp.get [] e i = rest ∧ ∀ p, p ≠ i → Sp.get [] e p = Sp.get [] s.events p)) ∧
    (len = 16 →
      (code = 0x21 → exec .wrreg s = .next ({ s with pwrNew := s.pwrNew.set 0 (v &&& 0xFFFFFFFFFFFF) }.finish slot 1)) ∧
      (code = 0x22 → exec .wrreg s = .next ({ s with pwrNew := s.pwrNew.set 1 v }.finish slot 1)) ∧
      (code = 0x23 → exec .wrreg s = .next ({ s with pwrNew := s.pwrNew.set 2 v }.finish slot 1)) ∧
      (code = 0x30 → exec .wrreg s = .next ({ s with fabNew := v &&& 0x1FFFF }.finish slot 1)) ∧
      (code = 0x31 → exec .wrreg s = .next (if 1024 ≤ i then s.finish slot 3 else if 15 < v.toNat then s.finish slot 6
        else { s with stmap := Sp.put i (v.setWidth 4) s.stmap }.finish slot 1)) ∧
      (code = 0x10 → i < 256 → exec .wrreg s =
        .next ((s.modCore i fun k => { k with ch := { k.ch with timNew := k.ch.timNew.set 0 v } }).finish slot 1)) ∧
      (code ∈ [1, 2, 3] → s.arming.isSome = true → exec .wrreg s = .next (s.finish slot 5)) ∧
      (code = 1 → s.arming = none → v.getLsbD 0 = false →
        exec .wrreg s = .next ({ s with cadNew := { s.cadNew with ctl := v &&& 0x3FFFFF } }.finish slot 1)) ∧
      (code = 1 → s.arming = none → v.getLsbD 0 = true → s.needsArmtd = true → exec .wrreg s = .next (s.finish slot 6)) ∧
      (code = 2 → s.arming = none → exec .wrreg s = .next ({ s with
        cadNew := { s.cadNew with tbase := v }
        cad := if s.driven then s.cad else { s.cad with tbase := v, tper := s.cadNew.tper } }.finish slot 1)) ∧
      (code ∉ [1, 2, 3, 0x10, 0x11, 0x12, 0x20, 0x21, 0x22, 0x23, 0x30, 0x31] → exec .wrreg s = .next (s.finish slot 3)) ∧
      (8 ≤ i → exec .wrrwWrite s = .next (s.finish slot 3)) ∧
      (i < 8 → ∃ w cr, exec .wrrwWrite s = .next ({ s with wrrw := w, credits := cr }.finish slot 1) ∧ Sp.get 0x8421 w i = v &&& 0xFFFF ∧
        (∀ p, p ≠ i → Sp.get 0x8421 w p = Sp.get 0x8421 s.wrrw p) ∧ ∀ x ∈ cr, x.1 / 4 ≠ i ∧ x ∈ s.credits)) ∧
    (∃ t, exec .phyctlClr s = .next t ∧ ∀ (p : Fin 2) (l : Fin 38), t.cur.phy.lanes[p][l] =
      { s.cur.phy.lanes[p][l] with err := 0, wgen := BitVec.ofNat 7 (l.val + 1), cgen := BitVec.ofNat 7 (l.val + 1) })

/-- The commands over the package (R44, R306, R324, R331, R349, R351, R352, R420, R422): an arming waits for its phase; a record enters its
queue; a group is defined with its counter at 0, and a call whose number that is starts; partitions and pre-emptions wait for a boundary;
a message waits until its slot is empty; ATTEST returns the challenge, the digests of the base-die firmware that runs and BOOTST in its
report, signed with the device identity key (its encoding: log entry 131). A payload of another length is status 3.
The layout of the payloads is the model's (log entry 10), and so are the place of a response in its slot (log entry 11), status 6 for a
message to a stack whose firmware does not run (log entry 49), and status 6 for a WRREG that arms after a reversion (log entry 81). -/
def Obligations.PackageCommands : Prop :=
  ∀ s : State,
    let slot := s.focus.arg % 256
    let len := s.cmd.le (4096 * slot + 8) 2 % 2 ^ 12
    let get := fun (off n : Nat) => s.cmd.le (4096 * slot + 64 + off) n
    let arms := fun (i : Instr) (regs : Cad) (count : Option (BitVec 48)) =>
      (s.arming.isSome = true → exec i s = .next (s.finish slot 5)) ∧
      (s.arming = none → (regs.tper.toNat % 2 ^ 32 < 200 ∨ regs.tper.toNat / 2 ^ 32 < 200 ∨ ∃ n, count = some n ∧ n.getLsbD 0 = true) →
        exec i s = .next (s.finish slot 6)) ∧
      (s.arming = none → 200 ≤ regs.tper.toNat % 2 ^ 32 → 200 ≤ regs.tper.toNat / 2 ^ 32 → (∀ n, count = some n → n.getLsbD 0 = false) →
        exec i s = .next { s with arming := some ⟨slot, regs, count⟩ }.nextCommand)
    (∀ x ∈ ([(.armtd, 24), (.cadctlDriveArm, 16), (.enqueue, 128), (.partset, 16), (.preempt, 8), (.mboxsend, 72)] : List (Instr × Nat)),
      len ≠ x.2 → exec x.1 s = .next (s.finish slot 3)) ∧
    (len = 24 → get 22 2 ≠ 0 → exec .armtd s = .next (s.finish slot 4)) ∧
    (len = 24 → get 22 2 = 0 → arms .armtd ⟨s.cadNew.ctl ||| 1, BitVec.ofNat 64 (get 0 8), BitVec.ofNat 64 (get 8 8)⟩ (some (BitVec.ofNat 48 (get 16 6)))) ∧
    (len = 16 → s.needsArmtd = false → arms .cadctlDriveArm ⟨BitVec.ofNat 64 (get 8 8) &&& 0x3FFFFF, s.cadNew.tbase, s.cadNew.tper⟩ none) ∧
    (len = 16 → s.needsArmtd = true → (s.arming.isSome = true → exec .cadctlDriveArm s = .next (s.finish slot 5)) ∧
      (s.arming = none → exec .cadctlDriveArm s = .next (s.finish slot 6))) ∧
    (len = 128 →
      let part := s.cmd.le (4096 * slot) 8 / 2 ^ 18 % 2 ^ 3
      let w := BitVec.ofNat 1024 (get 0 128 - get 0 128 % 8 + part)
      (s.shut.contains part = true → exec .enqueue s = .next (s.finish slot 5)) ∧
      (s.shut.contains part = false → s.marks = [] → exec .enqueue s = .next (match s.enqueueStatus w part with
        | 0 => (s.enqueueRecord w part).finish slot 1
        | 1 => s.finish slot 9
        | 2 => s.finish slot 10
        | _ => s.finish slot 6)) ∧
      (let t := s.enqueueRecord w part
       let q := 4 * part + w.toNat / 2 ^ 3 % 4
       Sp.get [] t.lqs q = Sp.get [] s.lqs q ++ [s.nextId] ∧ (∀ p, p ≠ q → Sp.get [] t.lqs p = Sp.get [] s.lqs p) ∧
       t.records.length = s.records.length + 1)) ∧
    (len % 4 = 0 → 4 ≤ len → get 2 2 = 0 → (∀ n, n < (len - 4) / 4 → get (4 + 4 * n) 4 < 2 ^ 18) →
      ((s.memberList slot).map (· / 256)).dedup.length ≤ 256 → ∃ t, exec .groupdef s = .next t ∧ t.cmd.byte (4096 * slot + 10) = 1 ∧
      t.cores = s.cores ∧ t.calls = s.calls ∧ t.group (get 0 2) = some ⟨s.memberList slot, 0, 0, none⟩ ∧
      (∀ n, n ≠ get 0 2 → t.group n = s.group n) ∧
      ∀ x ∈ t.calls, t.callReady x = true → ∃ y ∈ t.agenda, y.ev = .run (argFocus 0 x.id) .collectiveSequenceStart) ∧
    ((len % 4 ≠ 0 ∨ len < 4) → exec .groupdef s = .next (s.finish slot 3)) ∧
    (len = 16 → (8 ≤ get 0 8 → exec .partset s = .next (s.finish slot 3)) ∧
      (get 0 8 < 8 → exec .partset s = .next ({ s with partset := s.partset ++
        ((List.range 64).filter fun q => get 8 8 / 2 ^ q % 2 = 1).map fun q => (q, get 0 8) }.finish slot 1))) ∧
    (len = 8 → (8 ≤ get 0 8 → exec .preempt s = .next (s.finish slot 3)) ∧
      (get 0 8 < 8 → s.halted.contains (get 0 8) = true →
        exec .preempt s = .next ({ s with resuming := s.resuming.filter (· != get 0 8) ++ [get 0 8] }.finish slot 1)) ∧
      (get 0 8 < 8 → s.halted.contains (get 0 8) = false →
        exec .preempt s = .next ({ s with preempt := s.preempt.filter (· != get 0 8) ++ [get 0 8] }.finish slot 1))) ∧
    (len = 72 → (8 ≤ get 0 8 → exec .mboxsend s = .next (s.finish slot 3)) ∧
      (get 0 8 < 8 → s.bootst.getLsbD (2 + get 0 8) = false → exec .mboxsend s = .next (s.finish slot 6)) ∧
      (get 0 8 < 8 → s.bootst.getLsbD (2 + get 0 8) = true →
        ((∀ m ∈ s.mboxOut, m.1 ≠ get 0 8) → exec .mboxsend s =
          .next ({ s with mboxOut := Sp.put (get 0 8) (BitVec.ofNat 512 (get 8 64)) s.mboxOut }.finish slot 1)) ∧
        ((∃ m ∈ s.mboxOut, m.1 = get 0 8) → exec .mboxsend s = .next (s.at 0 (s.cyc + 1) pEnd (.run s.focus .mboxsend))))) ∧
    (len ≠ 48 → exec .attest s = .next ({ s with freeCtr := s.freeCtr + 1 }.finish slot 3)) ∧
    (len = 48 → ∃ t, exec .attest s = .next t ∧ t.cmd.byte (4096 * slot + 10) = 1 ∧ t.cores = s.cores ∧
      (let at_ := fun (n i : Nat) => t.cmd.byte (4096 * slot + 64 + n + i)
       (List.range 96).map (at_ 464) = identitySignature s.freeCtr ((List.range 464).map (at_ 0)) ∧
       ∀ k, k < 8 → (List.range 48).map (at_ (68 + 48 * k)) = if s.bootst.getLsbD (2 + k) then
         sha384 ((Config.stackImage k).take ((Config.stackImage k).length - 96)) else List.replicate 48 0) ∧
      (∀ i, i < 48 → t.cmd.byte (4096 * slot + 84 + i) = s.cmd.byte (4096 * slot + 64 + i)) ∧
      ∀ i, i < 8 → t.cmd.byte (4096 * slot + 516 + i) = BitVec.ofNat 8 (s.bootst.toNat / 256 ^ i))

/-- MEMWR and MEMRD (R349): a header that breaks the layout, names a space in use or a channel out of service gives its status; SPM, DMEM
and the chunk store are written and read at once, byte for byte, and HBM in the maintenance slots of its channel. The place of the data in
the slot is the model's choice (log entry 11). -/
def Claims.MemoryCommands : Prop :=
  ∀ s : State,
    let slot := s.focus.arg % 256
    let len := s.cmd.le (4096 * slot + 8) 2 % 2 ^ 12
    let a := s.memAccess slot
    let written := fun (m m' : Memory) => (∀ i, i < a.len → m'.byte (a.addr + i) = s.cmd.byte (4096 * slot + 80 + i)) ∧
      ∀ x, (x < a.addr ∨ a.addr + a.len ≤ x) → m'.byte x = m.byte x
    let done := fun (t : State) => t.cmd.byte (4096 * slot + 10) = 1
    let reads := fun (m : Memory) => ∃ t, exec .memrd s = .next t ∧ done t ∧ t.cores = s.cores ∧ t.chunk = s.chunk ∧
      ∀ i, i < a.len → t.cmd.byte (4096 * slot + 64 + i) = m.byte (a.addr + i)
    ((len < 16 ∨ len ≠ 16 + a.len) → exec .memwr s = .next (s.finish slot 3)) ∧ (len ≠ 16 → exec .memrd s = .next (s.finish slot 3)) ∧
    ((3 < a.space ∨ a.len = 0 ∨ 4000 < a.len) → len = 16 → exec .memrd s = .next (s.finish slot 3)) ∧
    (∀ st, 16 ≤ len → len = 16 + a.len → s.accessStatus slot a 4016 = some st → exec .memwr s = .next (s.finish slot st)) ∧
    (∀ st, len = 16 → s.accessStatus slot a 4000 = some st → exec .memrd s = .next (s.finish slot st)) ∧
    (16 ≤ len → len = 16 + a.len → s.accessStatus slot a 4016 = none →
      (a.space = 3 → exec .memwr s = .next { s with hbmCmd := some ⟨slot, a.core, true, a.addr, 0, a.len / 64, false, []⟩ }) ∧
      (a.space = 0 → s.marks = [] → ∃ t, exec .memwr s = .next t ∧ done t ∧ t.cores = s.cores ∧ written s.chunk t.chunk) ∧
      ((s.core a.core).marks = [] →
        (a.space = 1 → ∃ t, exec .memwr s = .next t ∧ done t ∧ t.chunk = s.chunk ∧ written (s.core a.core).spm (t.core a.core).spm ∧
          (t.core a.core).dmem = (s.core a.core).dmem) ∧
        (a.space = 2 → ∃ t, exec .memwr s = .next t ∧ done t ∧ t.chunk = s.chunk ∧ written (s.core a.core).dmem (t.core a.core).dmem ∧
          (t.core a.core).spm = (s.core a.core).spm))) ∧
    (len = 16 → s.accessStatus slot a 4000 = none →
      (a.space = 3 → exec .memrd s = .next { s with hbmCmd := some ⟨slot, a.core, false, a.addr, 0, a.len / 64, false, []⟩ }) ∧
      (a.space = 0 → s.marks = [] → reads s.chunk) ∧
      ((s.core a.core).marks = [] → (a.space = 1 → reads (s.core a.core).spm) ∧ (a.space = 2 → reads (s.core a.core).dmem)))

/-! ### The joint statements -/

/-- Decoding and encoding agree for every instruction: slot words, chain commands and micro-steps. -/
def Obligations.WordsReadBack : Prop := Claims.SlotWordsReadBack ∧ Claims.EngineWordsReadBack

/-- A step runs the instruction that it reads: a posted one, a chain command, a micro-step. -/
def Obligations.StepsRunInstructions : Prop := Claims.StepRunsPostedInstruction ∧ Claims.StepRunsChainCommand ∧ Claims.StepRunsMicroStep

/-- The window commands, HTEST and LAUNCH, at their issue, and the record read of LAUNCH (R276, R285, R286, R291, R318, R319). -/
def Obligations.WindowCommandsIssue : Prop := Claims.WindowCommandsAtIssue ∧ Claims.LaunchesEnqueue

/-- The errors of a cycle, and parking among them (R355, R356, R369, R370, R416). -/
def Obligations.ErrorsBeginDrains : Prop := Claims.ErrorsOfACycle ∧ Claims.ParkingPrevails

/-- A remote operation at its origin: its source reads, the landing of a GET, and its events (R277, R281, R283, R413, R425). -/
def Obligations.EventsReachHandles : Prop := Claims.HandleEvents ∧ Claims.OriginsMoveData

/-- A remote operation at its target, and the interval of a window from its opening to its apply. -/
def Obligations.TargetsAcceptAndReject : Prop := Claims.TargetsAnswer ∧ Claims.PortChecks ∧ Claims.IntervalsOpenAndClose

/-- A collective call from its start to its end (R326-R329, R331, R332, R334, R426, R427). -/
def Obligations.CollectiveCalls : Prop := Claims.CallsRun ∧ Claims.SourcesAreCombined

/-- A queued command at its start: of the matrix, copy and chain queues, of the remote queue, and of the collective queue. -/
def Obligations.QueuedCommandsStart : Prop := Claims.EngineCommandsStart ∧ Claims.RemoteCommandsStart ∧ Claims.CollectivesStart

/-- A step at an issue runs the slots of the bundle that the fetch gives, or detects the fault of the fetch; the next bundle follows. -/
def Obligations.IssueFollowsDecoding : Prop :=
  Claims.FetchReadsLines ∧ Claims.StepIssuesBundle ∧ Claims.BundlesFollow ∧ Claims.DecodeFaultStopsIssue

/-- Scalar arithmetic, logic and shifts with their encodings (R125, R126). -/
def Obligations.ScalarIntegers : Prop := Claims.ScalarArithmetic ∧ Claims.ScalarShifts

/-- Bit fields, counts, immediates and moves (R96, R128-R131, R134). -/
def Obligations.ScalarBitsAndMoves : Prop := Claims.ScalarBitFields ∧ Claims.ScalarImmediatesAndMoves

/-- Scalar floating point, its compares and its conversions (R135-R139). -/
def Obligations.ScalarFloatForms : Prop := Claims.ScalarFloats ∧ Claims.FloatCompares ∧ Claims.ScalarConversions

/-- What is exact before rounding (R99, R186). -/
def Obligations.ExactResults : Prop := Claims.ExactSumsAndProducts ∧ Claims.SpecialFunctionsAreExact

/-- Branches, loops and waits (R140-R148, R290, R298). -/
def Obligations.ControlFlow : Prop := Claims.Branches ∧ Claims.Loops ∧ Claims.Waits

/-- System registers, TRAP, RFD and the daymark (R149-R151, R374-R378). -/
def Obligations.SystemRegisters : Prop := Claims.SystemReads ∧ Claims.SystemWrites ∧ Claims.DaymarkTakesShadow

/-- A register write that lands changes its register and nothing else (R9, R80, R89, R90). -/
def Obligations.WritesLand : Prop := Claims.RegisterWritesLand ∧ Claims.SystemWritesLand ∧ Claims.FlashLogKeepsFirst

/-- Scalar, mask and vector accesses (R194-R202, R206). -/
def Obligations.LocalAccesses : Prop := Claims.ScalarAccesses ∧ Claims.VectorAccesses

/-- Vector integers, immediates, selects and moves (R157, R160, R161, R163). -/
def Obligations.VectorIntegerForms : Prop := Claims.VectorIntegers ∧ Claims.VectorImmediatesAndMoves

/-- Vector compares and lane masks (R162, R174, R175). -/
def Obligations.VectorComparesAndMasks : Prop := Claims.VectorCompares ∧ Claims.LaneMasks

/-- Engine commands at their issue (R231, R320, R385). -/
def Obligations.EngineCommandsAreQueued : Prop := Claims.EngineCommandsQueue ∧ Claims.AdmittedCommandsWait

/-- Remote commands and COLL at their issue, and in a rerun (R279, R325, R380, R410, R411). -/
def Obligations.RemoteCommandsAreQueued : Prop := Claims.RemoteCommandsQueue ∧ Claims.RerunsActOnce

/-- A step of the port unit or of the array occupies its unit, and the units and the copy engine then do their work on ABUF, the weight
latch, the accumulators and SPM (R120, R122, R212-R214, R218, R223-R229, R236, R237). -/
def Obligations.MicroStepsStart : Prop := Claims.MicroStepsStart ∧ Claims.AccumulatorsChange ∧ Claims.PortCyclesLoad

/-- Chain registers, loops and row commands (R244-R257, R400). -/
def Obligations.ChainCommandsAct : Prop := Claims.ChainRegistersAndLoops ∧ Claims.RowCommands

/-- Column commands and the landing of what they read (R245-R249, R403). -/
def Obligations.ColumnsAndTheirLandings : Prop := Claims.ColumnCommands ∧ Claims.PatternCommands ∧ Claims.ChainReadsLand

/-- The debts and the idle chain (R255, R256, R258). -/
def Obligations.DebtsAndIdleChain : Prop := Claims.DebtsGrow ∧ Claims.IdleChainServes

/-- What reset leaves; every memory is in canonical form (R32, R41, R92, R253, R340). -/
def Obligations.ResetLeaves : Prop := Claims.ResetState ∧ Claims.ResetMemories

/-- Power admission and pending armings (R44, R322, R429). -/
def Obligations.PowerAndArmings : Prop := Claims.PowerAdmitsPhases ∧ Claims.ArmingsAreChecked

/-- Doorbells, completions, MEMWR and MEMRD (R338, R349). -/
def Obligations.CommandsAndMemory : Prop := Claims.CommandsComplete ∧ Claims.MemoryCommands

/-- Stations, beacon time, and the power alarm (R333, R339, R423, R428, R430). -/
def Obligations.FabricTimeAndPower : Prop := Claims.StationsRetryAndRetrain ∧ Claims.TimeAndPowerEvents
end

