-- ==== Sys2Proof/Laws/Memory.lean ====
section
/-! SUPPORT. Read after write, and the canonical form, of the sparse tables and memories. -/

namespace Sys2Proof.Machine

open Sys2Proof

section Tables

variable {α : Type} {d : α}

theorem Sp.get_put_same (m : List (Nat × α)) (i : Nat) (x : α) : Sp.get d (Sp.put i x m) i = x := by
  induction m with
  | nil => simp [Sp.put, Sp.get]
  | cons e r ih =>
    simp only [Sp.put]
    split
    · simp only [Sp.get]; rw [if_neg (by omega)]; exact ih
    · split <;> simp [Sp.get]

theorem Sp.get_put_other (m : List (Nat × α)) {i j : Nat} (x : α) (h : j ≠ i) : Sp.get d (Sp.put i x m) j = Sp.get d m j := by
  induction m with
  | nil => simp [Sp.put, Sp.get, h.symm]
  | cons e r ih =>
    simp only [Sp.put]
    split
    · simp [Sp.get, ih]
    · split
      · simp_all [Sp.get, Ne.symm h]
      · simp [Sp.get, Ne.symm h]

theorem Sp.get_filter_same (m : List (Nat × α)) (i : Nat) : Sp.get d (m.filter fun e => e.1 ≠ i) i = d := by
  induction m with
  | nil => rfl
  | cons e r ih => by_cases h : e.1 = i <;> simp_all [Sp.get]

theorem Sp.get_filter_other (m : List (Nat × α)) {i j : Nat} (h : j ≠ i) :
    Sp.get d (m.filter fun e => e.1 ≠ i) j = Sp.get d m j := by
  induction m with
  | nil => rfl
  | cons e r ih =>
    by_cases h' : e.1 = i
    · have : e.1 ≠ j := by omega
      simp_all [Sp.get]
    · simp_all [Sp.get]

variable [DecidableEq α]

@[simp] theorem Sp.get_set_same (m : List (Nat × α)) (i : Nat) (x : α) : Sp.get d (Sp.set d m i x) i = x := by
  unfold Sp.set
  split
  · rename_i h; rw [h]; exact Sp.get_filter_same m i
  · exact Sp.get_put_same m i x

theorem Sp.get_set_other (m : List (Nat × α)) {i j : Nat} (x : α) (h : j ≠ i) : Sp.get d (Sp.set d m i x) j = Sp.get d m j := by
  unfold Sp.set
  split
  · exact Sp.get_filter_other m h
  · exact Sp.get_put_other m x h

theorem Sp.get_set (m : List (Nat × α)) (i j : Nat) (x : α) :
    Sp.get d (Sp.set d m i x) j = if j = i then x else Sp.get d m j := by
  split
  · subst_vars; simp
  · exact Sp.get_set_other m x ‹_›

theorem Sp.wf_tail {e : Nat × α} {r : List (Nat × α)} (h : Sp.wf d (e :: r) = true) : Sp.wf d r = true := by
  cases r with
  | nil => rfl
  | cons e' r' => simp_all [Sp.wf]

theorem Sp.wf_cons {i : Nat} {x : α} {r : List (Nat × α)} :
    Sp.wf d ((i, x) :: r) = true ↔ x ≠ d ∧ (∀ e ∈ r.head?, i < e.1) ∧ Sp.wf d r = true := by
  cases r with
  | nil => simp [Sp.wf]
  | cons e' r' => simp [Sp.wf, and_assoc]

theorem Sp.head_put {m : List (Nat × α)} {i : Nat} {x : α} {e : Nat × α} (h : e ∈ (Sp.put i x m).head?) :
    e.1 = i ∨ ∃ e' ∈ m.head?, e'.1 = e.1 := by
  cases m with
  | nil => simp [Sp.put] at h; simp [← h]
  | cons a r =>
    simp only [Sp.put] at h
    split at h
    · right; simp_all
    · split at h <;> simp at h <;> simp [← h]

theorem Sp.wf_put {m : List (Nat × α)} (i : Nat) {x : α} (hx : x ≠ d) (h : Sp.wf d m = true) : Sp.wf d (Sp.put i x m) = true := by
  induction m with
  | nil => simp [Sp.put, Sp.wf, hx]
  | cons a r ih =>
    obtain ⟨j, y⟩ := a
    have hr := Sp.wf_cons.mp h
    simp only [Sp.put]
    split
    · refine Sp.wf_cons.mpr ⟨hr.1, ?_, ih hr.2.2⟩
      intro e he
      rcases Sp.head_put he with h1 | ⟨e', he', h1⟩
      · omega
      · have := hr.2.1 e' he'; omega
    · split
      · subst_vars; exact Sp.wf_cons.mpr ⟨hx, hr.2.1, hr.2.2⟩
      · refine Sp.wf_cons.mpr ⟨hx, ?_, h⟩
        intro e he; simp at he; subst he; simp; omega

theorem Sp.wf_lt {m : List (Nat × α)} {i : Nat} {x : α} (h : Sp.wf d ((i, x) :: m) = true) : ∀ e ∈ m, i < e.1 := by
  induction m generalizing i x with
  | nil => simp
  | cons a r ih =>
    have hc := Sp.wf_cons.mp h
    have h1 : i < a.1 := hc.2.1 a (by simp)
    intro e he
    rcases List.mem_cons.mp he with rfl | he
    · exact h1
    · have := ih hc.2.2 e he; omega

theorem Sp.wf_filter {m : List (Nat × α)} (p : Nat × α → Bool) (h : Sp.wf d m = true) : Sp.wf d (m.filter p) = true := by
  induction m with
  | nil => rfl
  | cons a r ih =>
    have hc := Sp.wf_cons.mp h
    rw [List.filter_cons]
    split
    · refine Sp.wf_cons.mpr ⟨hc.1, ?_, ih hc.2.2⟩
      intro e he
      exact Sp.wf_lt h e (List.mem_of_mem_filter (List.mem_of_mem_head? he))
    · exact ih hc.2.2

theorem Sp.wf_set {m : List (Nat × α)} (i : Nat) (x : α) (h : Sp.wf d m = true) : Sp.wf d (Sp.set d m i x) = true := by
  unfold Sp.set
  split
  · exact Sp.wf_filter _ h
  · exact Sp.wf_put i ‹_› h

end Tables

/-! ### Byte memories -/

@[simp] theorem Memory.byte_store_same (m : Memory) (a : Nat) (b : Byte) : (m.store a b).byte a = b :=
  Sp.get_set_same m a b

theorem Memory.byte_store (m : Memory) (a a' : Nat) (b : Byte) : (m.store a b).byte a' = if a' = a then b else m.byte a' :=
  Sp.get_set m a a' b

theorem Memory.wf_store {m : Memory} (a : Nat) (b : Byte) (h : m.wf) : (m.store a b).wf := Sp.wf_set a b h

@[simp] theorem Memory.storeAll_nil (m : Memory) : m.storeAll [] = m := rfl

@[simp] theorem Memory.storeAll_cons (m : Memory) (e : Nat × Byte) (bs : List (Nat × Byte)) :
    m.storeAll (e :: bs) = (m.store e.1 e.2).storeAll bs := rfl

theorem Memory.storeAll_append (m : Memory) (as bs : List (Nat × Byte)) : m.storeAll (as ++ bs) = (m.storeAll as).storeAll bs := by
  induction as generalizing m with
  | nil => rfl
  | cons e r ih => simp [ih]

theorem Memory.wf_storeAll {m : Memory} (bs : List (Nat × Byte)) (h : m.wf) : (m.storeAll bs).wf := by
  induction bs generalizing m with
  | nil => exact h
  | cons e r ih => exact ih (Memory.wf_store e.1 e.2 h)

/-- A store leaves every byte that it does not name. -/
theorem Memory.byte_storeAll_other (m : Memory) {bs : List (Nat × Byte)} {a : Nat} (h : ∀ e ∈ bs, e.1 ≠ a) :
    (m.storeAll bs).byte a = m.byte a := by
  induction bs generalizing m with
  | nil => rfl
  | cons e r ih =>
    rw [Memory.storeAll_cons, ih _ fun e he => h e (List.mem_cons_of_mem _ he), Memory.byte_store,
      if_neg (Ne.symm (h e (by simp)))]

/-- The last of the bytes of one address prevails. -/
theorem Memory.byte_storeAll_last (m : Memory) (xs ys : List (Nat × Byte)) (a : Nat) (b : Byte) (h : ∀ e ∈ ys, e.1 ≠ a) :
    (m.storeAll (xs ++ (a, b) :: ys)).byte a = b := by
  rw [Memory.storeAll_append, Memory.storeAll_cons, Memory.byte_storeAll_other _ h]
  simp

/-- A memory without some of its cells keeps the canonical form. -/
theorem Memory.wf_filter {m : Memory} (p : Host.Cell → Bool) (h : m.wf) : Memory.wf (m.filter p) := Sp.wf_filter p h

end Sys2Proof.Machine
end

