-- ==== Sys2Proof/Laws/State.lean ====
section
/-! SUPPORT. What the updates of the state leave alone: one lemma per field and update. -/

namespace Sys2Proof.Machine

open Sys2Proof

/-! ### Posting an operation, dropping operations, replacing a core -/

@[simp] theorem State.post_now (s : State) (it : Item) : (s.post it).now = s.now := rfl
@[simp] theorem State.post_focus (s : State) (it : Item) : (s.post it).focus = s.focus := rfl
@[simp] theorem State.post_freeCtr (s : State) (it : Item) : (s.post it).freeCtr = s.freeCtr := rfl
@[simp] theorem State.post_cores (s : State) (it : Item) : (s.post it).cores = s.cores := rfl
@[simp] theorem State.post_released (s : State) (it : Item) : (s.post it).released = s.released := rfl
@[simp] theorem State.post_count (s : State) (it : Item) : (s.post it).count = s.count := rfl
@[simp] theorem State.post_phStart (s : State) (it : Item) : (s.post it).phStart = s.phStart := rfl
@[simp] theorem State.post_decided (s : State) (it : Item) : (s.post it).decided = s.decided := rfl
@[simp] theorem State.post_budget (s : State) (it : Item) : (s.post it).budget = s.budget := rfl
@[simp] theorem State.post_cad (s : State) (it : Item) : (s.post it).cad = s.cad := rfl
@[simp] theorem State.post_cadNew (s : State) (it : Item) : (s.post it).cadNew = s.cadNew := rfl
@[simp] theorem State.post_driven (s : State) (it : Item) : (s.post it).driven = s.driven := rfl
@[simp] theorem State.post_reverting (s : State) (it : Item) : (s.post it).reverting = s.reverting := rfl
@[simp] theorem State.post_needsArmtd (s : State) (it : Item) : (s.post it).needsArmtd = s.needsArmtd := rfl
@[simp] theorem State.post_tbound (s : State) (it : Item) : (s.post it).tbound = s.tbound := rfl
@[simp] theorem State.post_arming (s : State) (it : Item) : (s.post it).arming = s.arming := rfl
@[simp] theorem State.post_armed (s : State) (it : Item) : (s.post it).armed = s.armed := rfl
@[simp] theorem State.post_lqs (s : State) (it : Item) : (s.post it).lqs = s.lqs := rfl
@[simp] theorem State.post_lqTail (s : State) (it : Item) : (s.post it).lqTail = s.lqTail := rfl
@[simp] theorem State.post_lastAct (s : State) (it : Item) : (s.post it).lastAct = s.lastAct := rfl
@[simp] theorem State.post_records (s : State) (it : Item) : (s.post it).records = s.records := rfl
@[simp] theorem State.post_moves (s : State) (it : Item) : (s.post it).moves = s.moves := rfl
@[simp] theorem State.post_pages (s : State) (it : Item) : (s.post it).pages = s.pages := rfl
@[simp] theorem State.post_nextId (s : State) (it : Item) : (s.post it).nextId = s.nextId := rfl
@[simp] theorem State.post_credits (s : State) (it : Item) : (s.post it).credits = s.credits := rfl
@[simp] theorem State.post_wrrw (s : State) (it : Item) : (s.post it).wrrw = s.wrrw := rfl
@[simp] theorem State.post_pwradm (s : State) (it : Item) : (s.post it).pwradm = s.pwradm := rfl
@[simp] theorem State.post_pcwlo (s : State) (it : Item) : (s.post it).pcwlo = s.pcwlo := rfl
@[simp] theorem State.post_pcwhi (s : State) (it : Item) : (s.post it).pcwhi = s.pcwhi := rfl
@[simp] theorem State.post_pwrNew (s : State) (it : Item) : (s.post it).pwrNew = s.pwrNew := rfl
@[simp] theorem State.post_credit (s : State) (it : Item) : (s.post it).credit = s.credit := rfl
@[simp] theorem State.post_creditAt (s : State) (it : Item) : (s.post it).creditAt = s.creditAt := rfl
@[simp] theorem State.post_draw (s : State) (it : Item) : (s.post it).draw = s.draw := rfl
@[simp] theorem State.post_held (s : State) (it : Item) : (s.post it).held = s.held := rfl
@[simp] theorem State.post_alarm (s : State) (it : Item) : (s.post it).alarm = s.alarm := rfl
@[simp] theorem State.post_emergency (s : State) (it : Item) : (s.post it).emergency = s.emergency := rfl
@[simp] theorem State.post_temps (s : State) (it : Item) : (s.post it).temps = s.temps := rfl
@[simp] theorem State.post_timeBase (s : State) (it : Item) : (s.post it).timeBase = s.timeBase := rfl
@[simp] theorem State.post_timeFrom (s : State) (it : Item) : (s.post it).timeFrom = s.timeFrom := rfl
@[simp] theorem State.post_rate (s : State) (it : Item) : (s.post it).rate = s.rate := rfl
@[simp] theorem State.post_disciplined (s : State) (it : Item) : (s.post it).disciplined = s.disciplined := rfl
@[simp] theorem State.post_tstat (s : State) (it : Item) : (s.post it).tstat = s.tstat := rfl
@[simp] theorem State.post_ptp (s : State) (it : Item) : (s.post it).ptp = s.ptp := rfl
@[simp] theorem State.post_ops (s : State) (it : Item) : (s.post it).ops = s.ops := rfl
@[simp] theorem State.post_groups (s : State) (it : Item) : (s.post it).groups = s.groups := rfl
@[simp] theorem State.post_calls (s : State) (it : Item) : (s.post it).calls = s.calls := rfl
@[simp] theorem State.post_chunk (s : State) (it : Item) : (s.post it).chunk = s.chunk := rfl
@[simp] theorem State.post_device (s : State) (it : Item) : (s.post it).device = s.device := rfl
@[simp] theorem State.post_stmap (s : State) (it : Item) : (s.post it).stmap = s.stmap := rfl
@[simp] theorem State.post_fabctl (s : State) (it : Item) : (s.post it).fabctl = s.fabctl := rfl
@[simp] theorem State.post_fabNew (s : State) (it : Item) : (s.post it).fabNew = s.fabNew := rfl
@[simp] theorem State.post_retries (s : State) (it : Item) : (s.post it).retries = s.retries := rfl
@[simp] theorem State.post_trained (s : State) (it : Item) : (s.post it).trained = s.trained := rfl
@[simp] theorem State.post_cmd (s : State) (it : Item) : (s.post it).cmd = s.cmd := rfl
@[simp] theorem State.post_doorbells (s : State) (it : Item) : (s.post it).doorbells = s.doorbells := rfl
@[simp] theorem State.post_fwBusy (s : State) (it : Item) : (s.post it).fwBusy = s.fwBusy := rfl
@[simp] theorem State.post_fwdSlots (s : State) (it : Item) : (s.post it).fwdSlots = s.fwdSlots := rfl
@[simp] theorem State.post_bootst (s : State) (it : Item) : (s.post it).bootst = s.bootst := rfl
@[simp] theorem State.post_mboxIn (s : State) (it : Item) : (s.post it).mboxIn = s.mboxIn := rfl
@[simp] theorem State.post_mboxWait (s : State) (it : Item) : (s.post it).mboxWait = s.mboxWait := rfl
@[simp] theorem State.post_mboxOut (s : State) (it : Item) : (s.post it).mboxOut = s.mboxOut := rfl
@[simp] theorem State.post_perrst (s : State) (it : Item) : (s.post it).perrst = s.perrst := rfl
@[simp] theorem State.post_events (s : State) (it : Item) : (s.post it).events = s.events := rfl
@[simp] theorem State.post_vectors (s : State) (it : Item) : (s.post it).vectors = s.vectors := rfl
@[simp] theorem State.post_partset (s : State) (it : Item) : (s.post it).partset = s.partset := rfl
@[simp] theorem State.post_quarantine (s : State) (it : Item) : (s.post it).quarantine = s.quarantine := rfl
@[simp] theorem State.post_shut (s : State) (it : Item) : (s.post it).shut = s.shut := rfl
@[simp] theorem State.post_preempt (s : State) (it : Item) : (s.post it).preempt = s.preempt := rfl
@[simp] theorem State.post_halted (s : State) (it : Item) : (s.post it).halted = s.halted := rfl
@[simp] theorem State.post_resuming (s : State) (it : Item) : (s.post it).resuming = s.resuming := rfl
@[simp] theorem State.post_saved (s : State) (it : Item) : (s.post it).saved = s.saved := rfl
@[simp] theorem State.post_hbmCmd (s : State) (it : Item) : (s.post it).hbmCmd = s.hbmCmd := rfl
@[simp] theorem State.post_marks (s : State) (it : Item) : (s.post it).marks = s.marks := rfl
@[simp] theorem State.post_forwarded (s : State) (it : Item) : (s.post it).forwarded = s.forwarded := rfl
@[simp] theorem State.post_streams (s : State) (it : Item) : (s.post it).streams = s.streams := rfl

@[simp] theorem State.post_agenda (s : State) (it : Item) : (s.post it).agenda = insertItem it s.agenda := rfl

@[simp] theorem State.drop_now (s : State) (c : Nat) (p : Ev → Bool) : (s.drop c p).now = s.now := rfl
@[simp] theorem State.drop_focus (s : State) (c : Nat) (p : Ev → Bool) : (s.drop c p).focus = s.focus := rfl
@[simp] theorem State.drop_freeCtr (s : State) (c : Nat) (p : Ev → Bool) : (s.drop c p).freeCtr = s.freeCtr := rfl
@[simp] theorem State.drop_cores (s : State) (c : Nat) (p : Ev → Bool) : (s.drop c p).cores = s.cores := rfl
@[simp] theorem State.drop_released (s : State) (c : Nat) (p : Ev → Bool) : (s.drop c p).released = s.released := rfl
@[simp] theorem State.drop_count (s : State) (c : Nat) (p : Ev → Bool) : (s.drop c p).count = s.count := rfl
@[simp] theorem State.drop_phStart (s : State) (c : Nat) (p : Ev → Bool) : (s.drop c p).phStart = s.phStart := rfl
@[simp] theorem State.drop_decided (s : State) (c : Nat) (p : Ev → Bool) : (s.drop c p).decided = s.decided := rfl
@[simp] theorem State.drop_budget (s : State) (c : Nat) (p : Ev → Bool) : (s.drop c p).budget = s.budget := rfl
@[simp] theorem State.drop_cad (s : State) (c : Nat) (p : Ev → Bool) : (s.drop c p).cad = s.cad := rfl
@[simp] theorem State.drop_cadNew (s : State) (c : Nat) (p : Ev → Bool) : (s.drop c p).cadNew = s.cadNew := rfl
@[simp] theorem State.drop_driven (s : State) (c : Nat) (p : Ev → Bool) : (s.drop c p).driven = s.driven := rfl
@[simp] theorem State.drop_reverting (s : State) (c : Nat) (p : Ev → Bool) : (s.drop c p).reverting = s.reverting := rfl
@[simp] theorem State.drop_needsArmtd (s : State) (c : Nat) (p : Ev → Bool) : (s.drop c p).needsArmtd = s.needsArmtd := rfl
@[simp] theorem State.drop_tbound (s : State) (c : Nat) (p : Ev → Bool) : (s.drop c p).tbound = s.tbound := rfl
@[simp] theorem State.drop_arming (s : State) (c : Nat) (p : Ev → Bool) : (s.drop c p).arming = s.arming := rfl
@[simp] theorem State.drop_armed (s : State) (c : Nat) (p : Ev → Bool) : (s.drop c p).armed = s.armed := rfl
@[simp] theorem State.drop_lqs (s : State) (c : Nat) (p : Ev → Bool) : (s.drop c p).lqs = s.lqs := rfl
@[simp] theorem State.drop_lqTail (s : State) (c : Nat) (p : Ev → Bool) : (s.drop c p).lqTail = s.lqTail := rfl
@[simp] theorem State.drop_lastAct (s : State) (c : Nat) (p : Ev → Bool) : (s.drop c p).lastAct = s.lastAct := rfl
@[simp] theorem State.drop_records (s : State) (c : Nat) (p : Ev → Bool) : (s.drop c p).records = s.records := rfl
@[simp] theorem State.drop_moves (s : State) (c : Nat) (p : Ev → Bool) : (s.drop c p).moves = s.moves := rfl
@[simp] theorem State.drop_pages (s : State) (c : Nat) (p : Ev → Bool) : (s.drop c p).pages = s.pages := rfl
@[simp] theorem State.drop_nextId (s : State) (c : Nat) (p : Ev → Bool) : (s.drop c p).nextId = s.nextId := rfl
@[simp] theorem State.drop_credits (s : State) (c : Nat) (p : Ev → Bool) : (s.drop c p).credits = s.credits := rfl
@[simp] theorem State.drop_wrrw (s : State) (c : Nat) (p : Ev → Bool) : (s.drop c p).wrrw = s.wrrw := rfl
@[simp] theorem State.drop_pwradm (s : State) (c : Nat) (p : Ev → Bool) : (s.drop c p).pwradm = s.pwradm := rfl
@[simp] theorem State.drop_pcwlo (s : State) (c : Nat) (p : Ev → Bool) : (s.drop c p).pcwlo = s.pcwlo := rfl
@[simp] theorem State.drop_pcwhi (s : State) (c : Nat) (p : Ev → Bool) : (s.drop c p).pcwhi = s.pcwhi := rfl
@[simp] theorem State.drop_pwrNew (s : State) (c : Nat) (p : Ev → Bool) : (s.drop c p).pwrNew = s.pwrNew := rfl
@[simp] theorem State.drop_credit (s : State) (c : Nat) (p : Ev → Bool) : (s.drop c p).credit = s.credit := rfl
@[simp] theorem State.drop_creditAt (s : State) (c : Nat) (p : Ev → Bool) : (s.drop c p).creditAt = s.creditAt := rfl
@[simp] theorem State.drop_draw (s : State) (c : Nat) (p : Ev → Bool) : (s.drop c p).draw = s.draw := rfl
@[simp] theorem State.drop_held (s : State) (c : Nat) (p : Ev → Bool) : (s.drop c p).held = s.held := rfl
@[simp] theorem State.drop_alarm (s : State) (c : Nat) (p : Ev → Bool) : (s.drop c p).alarm = s.alarm := rfl
@[simp] theorem State.drop_emergency (s : State) (c : Nat) (p : Ev → Bool) : (s.drop c p).emergency = s.emergency := rfl
@[simp] theorem State.drop_temps (s : State) (c : Nat) (p : Ev → Bool) : (s.drop c p).temps = s.temps := rfl
@[simp] theorem State.drop_timeBase (s : State) (c : Nat) (p : Ev → Bool) : (s.drop c p).timeBase = s.timeBase := rfl
@[simp] theorem State.drop_timeFrom (s : State) (c : Nat) (p : Ev → Bool) : (s.drop c p).timeFrom = s.timeFrom := rfl
@[simp] theorem State.drop_rate (s : State) (c : Nat) (p : Ev → Bool) : (s.drop c p).rate = s.rate := rfl
@[simp] theorem State.drop_disciplined (s : State) (c : Nat) (p : Ev → Bool) : (s.drop c p).disciplined = s.disciplined := rfl
@[simp] theorem State.drop_tstat (s : State) (c : Nat) (p : Ev → Bool) : (s.drop c p).tstat = s.tstat := rfl
@[simp] theorem State.drop_ptp (s : State) (c : Nat) (p : Ev → Bool) : (s.drop c p).ptp = s.ptp := rfl
@[simp] theorem State.drop_ops (s : State) (c : Nat) (p : Ev → Bool) : (s.drop c p).ops = s.ops := rfl
@[simp] theorem State.drop_groups (s : State) (c : Nat) (p : Ev → Bool) : (s.drop c p).groups = s.groups := rfl
@[simp] theorem State.drop_calls (s : State) (c : Nat) (p : Ev → Bool) : (s.drop c p).calls = s.calls := rfl
@[simp] theorem State.drop_chunk (s : State) (c : Nat) (p : Ev → Bool) : (s.drop c p).chunk = s.chunk := rfl
@[simp] theorem State.drop_device (s : State) (c : Nat) (p : Ev → Bool) : (s.drop c p).device = s.device := rfl
@[simp] theorem State.drop_stmap (s : State) (c : Nat) (p : Ev → Bool) : (s.drop c p).stmap = s.stmap := rfl
@[simp] theorem State.drop_fabctl (s : State) (c : Nat) (p : Ev → Bool) : (s.drop c p).fabctl = s.fabctl := rfl
@[simp] theorem State.drop_fabNew (s : State) (c : Nat) (p : Ev → Bool) : (s.drop c p).fabNew = s.fabNew := rfl
@[simp] theorem State.drop_retries (s : State) (c : Nat) (p : Ev → Bool) : (s.drop c p).retries = s.retries := rfl
@[simp] theorem State.drop_trained (s : State) (c : Nat) (p : Ev → Bool) : (s.drop c p).trained = s.trained := rfl
@[simp] theorem State.drop_cmd (s : State) (c : Nat) (p : Ev → Bool) : (s.drop c p).cmd = s.cmd := rfl
@[simp] theorem State.drop_doorbells (s : State) (c : Nat) (p : Ev → Bool) : (s.drop c p).doorbells = s.doorbells := rfl
@[simp] theorem State.drop_fwBusy (s : State) (c : Nat) (p : Ev → Bool) : (s.drop c p).fwBusy = s.fwBusy := rfl
@[simp] theorem State.drop_fwdSlots (s : State) (c : Nat) (p : Ev → Bool) : (s.drop c p).fwdSlots = s.fwdSlots := rfl
@[simp] theorem State.drop_bootst (s : State) (c : Nat) (p : Ev → Bool) : (s.drop c p).bootst = s.bootst := rfl
@[simp] theorem State.drop_mboxIn (s : State) (c : Nat) (p : Ev → Bool) : (s.drop c p).mboxIn = s.mboxIn := rfl
@[simp] theorem State.drop_mboxWait (s : State) (c : Nat) (p : Ev → Bool) : (s.drop c p).mboxWait = s.mboxWait := rfl
@[simp] theorem State.drop_mboxOut (s : State) (c : Nat) (p : Ev → Bool) : (s.drop c p).mboxOut = s.mboxOut := rfl
@[simp] theorem State.drop_perrst (s : State) (c : Nat) (p : Ev → Bool) : (s.drop c p).perrst = s.perrst := rfl
@[simp] theorem State.drop_events (s : State) (c : Nat) (p : Ev → Bool) : (s.drop c p).events = s.events := rfl
@[simp] theorem State.drop_vectors (s : State) (c : Nat) (p : Ev → Bool) : (s.drop c p).vectors = s.vectors := rfl
@[simp] theorem State.drop_partset (s : State) (c : Nat) (p : Ev → Bool) : (s.drop c p).partset = s.partset := rfl
@[simp] theorem State.drop_quarantine (s : State) (c : Nat) (p : Ev → Bool) : (s.drop c p).quarantine = s.quarantine := rfl
@[simp] theorem State.drop_shut (s : State) (c : Nat) (p : Ev → Bool) : (s.drop c p).shut = s.shut := rfl
@[simp] theorem State.drop_preempt (s : State) (c : Nat) (p : Ev → Bool) : (s.drop c p).preempt = s.preempt := rfl
@[simp] theorem State.drop_halted (s : State) (c : Nat) (p : Ev → Bool) : (s.drop c p).halted = s.halted := rfl
@[simp] theorem State.drop_resuming (s : State) (c : Nat) (p : Ev → Bool) : (s.drop c p).resuming = s.resuming := rfl
@[simp] theorem State.drop_saved (s : State) (c : Nat) (p : Ev → Bool) : (s.drop c p).saved = s.saved := rfl
@[simp] theorem State.drop_hbmCmd (s : State) (c : Nat) (p : Ev → Bool) : (s.drop c p).hbmCmd = s.hbmCmd := rfl
@[simp] theorem State.drop_marks (s : State) (c : Nat) (p : Ev → Bool) : (s.drop c p).marks = s.marks := rfl
@[simp] theorem State.drop_forwarded (s : State) (c : Nat) (p : Ev → Bool) : (s.drop c p).forwarded = s.forwarded := rfl
@[simp] theorem State.drop_streams (s : State) (c : Nat) (p : Ev → Bool) : (s.drop c p).streams = s.streams := rfl

@[simp] theorem State.setCore_now (s : State) (c : Nat) (k : Core) : (s.setCore c k).now = s.now := rfl
@[simp] theorem State.setCore_agenda (s : State) (c : Nat) (k : Core) : (s.setCore c k).agenda = s.agenda := rfl
@[simp] theorem State.setCore_focus (s : State) (c : Nat) (k : Core) : (s.setCore c k).focus = s.focus := rfl
@[simp] theorem State.setCore_freeCtr (s : State) (c : Nat) (k : Core) : (s.setCore c k).freeCtr = s.freeCtr := rfl
@[simp] theorem State.setCore_released (s : State) (c : Nat) (k : Core) : (s.setCore c k).released = s.released := rfl
@[simp] theorem State.setCore_count (s : State) (c : Nat) (k : Core) : (s.setCore c k).count = s.count := rfl
@[simp] theorem State.setCore_phStart (s : State) (c : Nat) (k : Core) : (s.setCore c k).phStart = s.phStart := rfl
@[simp] theorem State.setCore_decided (s : State) (c : Nat) (k : Core) : (s.setCore c k).decided = s.decided := rfl
@[simp] theorem State.setCore_budget (s : State) (c : Nat) (k : Core) : (s.setCore c k).budget = s.budget := rfl
@[simp] theorem State.setCore_cad (s : State) (c : Nat) (k : Core) : (s.setCore c k).cad = s.cad := rfl
@[simp] theorem State.setCore_cadNew (s : State) (c : Nat) (k : Core) : (s.setCore c k).cadNew = s.cadNew := rfl
@[simp] theorem State.setCore_driven (s : State) (c : Nat) (k : Core) : (s.setCore c k).driven = s.driven := rfl
@[simp] theorem State.setCore_reverting (s : State) (c : Nat) (k : Core) : (s.setCore c k).reverting = s.reverting := rfl
@[simp] theorem State.setCore_needsArmtd (s : State) (c : Nat) (k : Core) : (s.setCore c k).needsArmtd = s.needsArmtd := rfl
@[simp] theorem State.setCore_tbound (s : State) (c : Nat) (k : Core) : (s.setCore c k).tbound = s.tbound := rfl
@[simp] theorem State.setCore_arming (s : State) (c : Nat) (k : Core) : (s.setCore c k).arming = s.arming := rfl
@[simp] theorem State.setCore_armed (s : State) (c : Nat) (k : Core) : (s.setCore c k).armed = s.armed := rfl
@[simp] theorem State.setCore_lqs (s : State) (c : Nat) (k : Core) : (s.setCore c k).lqs = s.lqs := rfl
@[simp] theorem State.setCore_lqTail (s : State) (c : Nat) (k : Core) : (s.setCore c k).lqTail = s.lqTail := rfl
@[simp] theorem State.setCore_lastAct (s : State) (c : Nat) (k : Core) : (s.setCore c k).lastAct = s.lastAct := rfl
@[simp] theorem State.setCore_records (s : State) (c : Nat) (k : Core) : (s.setCore c k).records = s.records := rfl
@[simp] theorem State.setCore_moves (s : State) (c : Nat) (k : Core) : (s.setCore c k).moves = s.moves := rfl
@[simp] theorem State.setCore_pages (s : State) (c : Nat) (k : Core) : (s.setCore c k).pages = s.pages := rfl
@[simp] theorem State.setCore_nextId (s : State) (c : Nat) (k : Core) : (s.setCore c k).nextId = s.nextId := rfl
@[simp] theorem State.setCore_credits (s : State) (c : Nat) (k : Core) : (s.setCore c k).credits = s.credits := rfl
@[simp] theorem State.setCore_wrrw (s : State) (c : Nat) (k : Core) : (s.setCore c k).wrrw = s.wrrw := rfl
@[simp] theorem State.setCore_pwradm (s : State) (c : Nat) (k : Core) : (s.setCore c k).pwradm = s.pwradm := rfl
@[simp] theorem State.setCore_pcwlo (s : State) (c : Nat) (k : Core) : (s.setCore c k).pcwlo = s.pcwlo := rfl
@[simp] theorem State.setCore_pcwhi (s : State) (c : Nat) (k : Core) : (s.setCore c k).pcwhi = s.pcwhi := rfl
@[simp] theorem State.setCore_pwrNew (s : State) (c : Nat) (k : Core) : (s.setCore c k).pwrNew = s.pwrNew := rfl
@[simp] theorem State.setCore_credit (s : State) (c : Nat) (k : Core) : (s.setCore c k).credit = s.credit := rfl
@[simp] theorem State.setCore_creditAt (s : State) (c : Nat) (k : Core) : (s.setCore c k).creditAt = s.creditAt := rfl
@[simp] theorem State.setCore_draw (s : State) (c : Nat) (k : Core) : (s.setCore c k).draw = s.draw := rfl
@[simp] theorem State.setCore_held (s : State) (c : Nat) (k : Core) : (s.setCore c k).held = s.held := rfl
@[simp] theorem State.setCore_alarm (s : State) (c : Nat) (k : Core) : (s.setCore c k).alarm = s.alarm := rfl
@[simp] theorem State.setCore_emergency (s : State) (c : Nat) (k : Core) : (s.setCore c k).emergency = s.emergency := rfl
@[simp] theorem State.setCore_temps (s : State) (c : Nat) (k : Core) : (s.setCore c k).temps = s.temps := rfl
@[simp] theorem State.setCore_timeBase (s : State) (c : Nat) (k : Core) : (s.setCore c k).timeBase = s.timeBase := rfl
@[simp] theorem State.setCore_timeFrom (s : State) (c : Nat) (k : Core) : (s.setCore c k).timeFrom = s.timeFrom := rfl
@[simp] theorem State.setCore_rate (s : State) (c : Nat) (k : Core) : (s.setCore c k).rate = s.rate := rfl
@[simp] theorem State.setCore_disciplined (s : State) (c : Nat) (k : Core) : (s.setCore c k).disciplined = s.disciplined := rfl
@[simp] theorem State.setCore_tstat (s : State) (c : Nat) (k : Core) : (s.setCore c k).tstat = s.tstat := rfl
@[simp] theorem State.setCore_ptp (s : State) (c : Nat) (k : Core) : (s.setCore c k).ptp = s.ptp := rfl
@[simp] theorem State.setCore_ops (s : State) (c : Nat) (k : Core) : (s.setCore c k).ops = s.ops := rfl
@[simp] theorem State.setCore_groups (s : State) (c : Nat) (k : Core) : (s.setCore c k).groups = s.groups := rfl
@[simp] theorem State.setCore_calls (s : State) (c : Nat) (k : Core) : (s.setCore c k).calls = s.calls := rfl
@[simp] theorem State.setCore_chunk (s : State) (c : Nat) (k : Core) : (s.setCore c k).chunk = s.chunk := rfl
@[simp] theorem State.setCore_device (s : State) (c : Nat) (k : Core) : (s.setCore c k).device = s.device := rfl
@[simp] theorem State.setCore_stmap (s : State) (c : Nat) (k : Core) : (s.setCore c k).stmap = s.stmap := rfl
@[simp] theorem State.setCore_fabctl (s : State) (c : Nat) (k : Core) : (s.setCore c k).fabctl = s.fabctl := rfl
@[simp] theorem State.setCore_fabNew (s : State) (c : Nat) (k : Core) : (s.setCore c k).fabNew = s.fabNew := rfl
@[simp] theorem State.setCore_retries (s : State) (c : Nat) (k : Core) : (s.setCore c k).retries = s.retries := rfl
@[simp] theorem State.setCore_trained (s : State) (c : Nat) (k : Core) : (s.setCore c k).trained = s.trained := rfl
@[simp] theorem State.setCore_cmd (s : State) (c : Nat) (k : Core) : (s.setCore c k).cmd = s.cmd := rfl
@[simp] theorem State.setCore_doorbells (s : State) (c : Nat) (k : Core) : (s.setCore c k).doorbells = s.doorbells := rfl
@[simp] theorem State.setCore_fwBusy (s : State) (c : Nat) (k : Core) : (s.setCore c k).fwBusy = s.fwBusy := rfl
@[simp] theorem State.setCore_fwdSlots (s : State) (c : Nat) (k : Core) : (s.setCore c k).fwdSlots = s.fwdSlots := rfl
@[simp] theorem State.setCore_bootst (s : State) (c : Nat) (k : Core) : (s.setCore c k).bootst = s.bootst := rfl
@[simp] theorem State.setCore_mboxIn (s : State) (c : Nat) (k : Core) : (s.setCore c k).mboxIn = s.mboxIn := rfl
@[simp] theorem State.setCore_mboxWait (s : State) (c : Nat) (k : Core) : (s.setCore c k).mboxWait = s.mboxWait := rfl
@[simp] theorem State.setCore_mboxOut (s : State) (c : Nat) (k : Core) : (s.setCore c k).mboxOut = s.mboxOut := rfl
@[simp] theorem State.setCore_perrst (s : State) (c : Nat) (k : Core) : (s.setCore c k).perrst = s.perrst := rfl
@[simp] theorem State.setCore_events (s : State) (c : Nat) (k : Core) : (s.setCore c k).events = s.events := rfl
@[simp] theorem State.setCore_vectors (s : State) (c : Nat) (k : Core) : (s.setCore c k).vectors = s.vectors := rfl
@[simp] theorem State.setCore_partset (s : State) (c : Nat) (k : Core) : (s.setCore c k).partset = s.partset := rfl
@[simp] theorem State.setCore_quarantine (s : State) (c : Nat) (k : Core) : (s.setCore c k).quarantine = s.quarantine := rfl
@[simp] theorem State.setCore_shut (s : State) (c : Nat) (k : Core) : (s.setCore c k).shut = s.shut := rfl
@[simp] theorem State.setCore_preempt (s : State) (c : Nat) (k : Core) : (s.setCore c k).preempt = s.preempt := rfl
@[simp] theorem State.setCore_halted (s : State) (c : Nat) (k : Core) : (s.setCore c k).halted = s.halted := rfl
@[simp] theorem State.setCore_resuming (s : State) (c : Nat) (k : Core) : (s.setCore c k).resuming = s.resuming := rfl
@[simp] theorem State.setCore_saved (s : State) (c : Nat) (k : Core) : (s.setCore c k).saved = s.saved := rfl
@[simp] theorem State.setCore_hbmCmd (s : State) (c : Nat) (k : Core) : (s.setCore c k).hbmCmd = s.hbmCmd := rfl
@[simp] theorem State.setCore_marks (s : State) (c : Nat) (k : Core) : (s.setCore c k).marks = s.marks := rfl
@[simp] theorem State.setCore_forwarded (s : State) (c : Nat) (k : Core) : (s.setCore c k).forwarded = s.forwarded := rfl
@[simp] theorem State.setCore_streams (s : State) (c : Nat) (k : Core) : (s.setCore c k).streams = s.streams := rfl

@[simp] theorem State.modCore_now (s : State) (c : Nat) (f : Core → Core) : (s.modCore c f).now = s.now := rfl
@[simp] theorem State.modCore_agenda (s : State) (c : Nat) (f : Core → Core) : (s.modCore c f).agenda = s.agenda := rfl
@[simp] theorem State.modCore_focus (s : State) (c : Nat) (f : Core → Core) : (s.modCore c f).focus = s.focus := rfl
@[simp] theorem State.modCore_freeCtr (s : State) (c : Nat) (f : Core → Core) : (s.modCore c f).freeCtr = s.freeCtr := rfl
@[simp] theorem State.modCore_released (s : State) (c : Nat) (f : Core → Core) : (s.modCore c f).released = s.released := rfl
@[simp] theorem State.modCore_count (s : State) (c : Nat) (f : Core → Core) : (s.modCore c f).count = s.count := rfl
@[simp] theorem State.modCore_phStart (s : State) (c : Nat) (f : Core → Core) : (s.modCore c f).phStart = s.phStart := rfl
@[simp] theorem State.modCore_decided (s : State) (c : Nat) (f : Core → Core) : (s.modCore c f).decided = s.decided := rfl
@[simp] theorem State.modCore_budget (s : State) (c : Nat) (f : Core → Core) : (s.modCore c f).budget = s.budget := rfl
@[simp] theorem State.modCore_cad (s : State) (c : Nat) (f : Core → Core) : (s.modCore c f).cad = s.cad := rfl
@[simp] theorem State.modCore_cadNew (s : State) (c : Nat) (f : Core → Core) : (s.modCore c f).cadNew = s.cadNew := rfl
@[simp] theorem State.modCore_driven (s : State) (c : Nat) (f : Core → Core) : (s.modCore c f).driven = s.driven := rfl
@[simp] theorem State.modCore_reverting (s : State) (c : Nat) (f : Core → Core) : (s.modCore c f).reverting = s.reverting := rfl
@[simp] theorem State.modCore_needsArmtd (s : State) (c : Nat) (f : Core → Core) : (s.modCore c f).needsArmtd = s.needsArmtd := rfl
@[simp] theorem State.modCore_tbound (s : State) (c : Nat) (f : Core → Core) : (s.modCore c f).tbound = s.tbound := rfl
@[simp] theorem State.modCore_arming (s : State) (c : Nat) (f : Core → Core) : (s.modCore c f).arming = s.arming := rfl
@[simp] theorem State.modCore_armed (s : State) (c : Nat) (f : Core → Core) : (s.modCore c f).armed = s.armed := rfl
@[simp] theorem State.modCore_lqs (s : State) (c : Nat) (f : Core → Core) : (s.modCore c f).lqs = s.lqs := rfl
@[simp] theorem State.modCore_lqTail (s : State) (c : Nat) (f : Core → Core) : (s.modCore c f).lqTail = s.lqTail := rfl
@[simp] theorem State.modCore_lastAct (s : State) (c : Nat) (f : Core → Core) : (s.modCore c f).lastAct = s.lastAct := rfl
@[simp] theorem State.modCore_records (s : State) (c : Nat) (f : Core → Core) : (s.modCore c f).records = s.records := rfl
@[simp] theorem State.modCore_moves (s : State) (c : Nat) (f : Core → Core) : (s.modCore c f).moves = s.moves := rfl
@[simp] theorem State.modCore_pages (s : State) (c : Nat) (f : Core → Core) : (s.modCore c f).pages = s.pages := rfl
@[simp] theorem State.modCore_nextId (s : State) (c : Nat) (f : Core → Core) : (s.modCore c f).nextId = s.nextId := rfl
@[simp] theorem State.modCore_credits (s : State) (c : Nat) (f : Core → Core) : (s.modCore c f).credits = s.credits := rfl
@[simp] theorem State.modCore_wrrw (s : State) (c : Nat) (f : Core → Core) : (s.modCore c f).wrrw = s.wrrw := rfl
@[simp] theorem State.modCore_pwradm (s : State) (c : Nat) (f : Core → Core) : (s.modCore c f).pwradm = s.pwradm := rfl
@[simp] theorem State.modCore_pcwlo (s : State) (c : Nat) (f : Core → Core) : (s.modCore c f).pcwlo = s.pcwlo := rfl
@[simp] theorem State.modCore_pcwhi (s : State) (c : Nat) (f : Core → Core) : (s.modCore c f).pcwhi = s.pcwhi := rfl
@[simp] theorem State.modCore_pwrNew (s : State) (c : Nat) (f : Core → Core) : (s.modCore c f).pwrNew = s.pwrNew := rfl
@[simp] theorem State.modCore_credit (s : State) (c : Nat) (f : Core → Core) : (s.modCore c f).credit = s.credit := rfl
@[simp] theorem State.modCore_creditAt (s : State) (c : Nat) (f : Core → Core) : (s.modCore c f).creditAt = s.creditAt := rfl
@[simp] theorem State.modCore_draw (s : State) (c : Nat) (f : Core → Core) : (s.modCore c f).draw = s.draw := rfl
@[simp] theorem State.modCore_held (s : State) (c : Nat) (f : Core → Core) : (s.modCore c f).held = s.held := rfl
@[simp] theorem State.modCore_alarm (s : State) (c : Nat) (f : Core → Core) : (s.modCore c f).alarm = s.alarm := rfl
@[simp] theorem State.modCore_emergency (s : State) (c : Nat) (f : Core → Core) : (s.modCore c f).emergency = s.emergency := rfl
@[simp] theorem State.modCore_temps (s : State) (c : Nat) (f : Core → Core) : (s.modCore c f).temps = s.temps := rfl
@[simp] theorem State.modCore_timeBase (s : State) (c : Nat) (f : Core → Core) : (s.modCore c f).timeBase = s.timeBase := rfl
@[simp] theorem State.modCore_timeFrom (s : State) (c : Nat) (f : Core → Core) : (s.modCore c f).timeFrom = s.timeFrom := rfl
@[simp] theorem State.modCore_rate (s : State) (c : Nat) (f : Core → Core) : (s.modCore c f).rate = s.rate := rfl
@[simp] theorem State.modCore_disciplined (s : State) (c : Nat) (f : Core → Core) : (s.modCore c f).disciplined = s.disciplined := rfl
@[simp] theorem State.modCore_tstat (s : State) (c : Nat) (f : Core → Core) : (s.modCore c f).tstat = s.tstat := rfl
@[simp] theorem State.modCore_ptp (s : State) (c : Nat) (f : Core → Core) : (s.modCore c f).ptp = s.ptp := rfl
@[simp] theorem State.modCore_ops (s : State) (c : Nat) (f : Core → Core) : (s.modCore c f).ops = s.ops := rfl
@[simp] theorem State.modCore_groups (s : State) (c : Nat) (f : Core → Core) : (s.modCore c f).groups = s.groups := rfl
@[simp] theorem State.modCore_calls (s : State) (c : Nat) (f : Core → Core) : (s.modCore c f).calls = s.calls := rfl
@[simp] theorem State.modCore_chunk (s : State) (c : Nat) (f : Core → Core) : (s.modCore c f).chunk = s.chunk := rfl
@[simp] theorem State.modCore_device (s : State) (c : Nat) (f : Core → Core) : (s.modCore c f).device = s.device := rfl
@[simp] theorem State.modCore_stmap (s : State) (c : Nat) (f : Core → Core) : (s.modCore c f).stmap = s.stmap := rfl
@[simp] theorem State.modCore_fabctl (s : State) (c : Nat) (f : Core → Core) : (s.modCore c f).fabctl = s.fabctl := rfl
@[simp] theorem State.modCore_fabNew (s : State) (c : Nat) (f : Core → Core) : (s.modCore c f).fabNew = s.fabNew := rfl
@[simp] theorem State.modCore_retries (s : State) (c : Nat) (f : Core → Core) : (s.modCore c f).retries = s.retries := rfl
@[simp] theorem State.modCore_trained (s : State) (c : Nat) (f : Core → Core) : (s.modCore c f).trained = s.trained := rfl
@[simp] theorem State.modCore_cmd (s : State) (c : Nat) (f : Core → Core) : (s.modCore c f).cmd = s.cmd := rfl
@[simp] theorem State.modCore_doorbells (s : State) (c : Nat) (f : Core → Core) : (s.modCore c f).doorbells = s.doorbells := rfl
@[simp] theorem State.modCore_fwBusy (s : State) (c : Nat) (f : Core → Core) : (s.modCore c f).fwBusy = s.fwBusy := rfl
@[simp] theorem State.modCore_fwdSlots (s : State) (c : Nat) (f : Core → Core) : (s.modCore c f).fwdSlots = s.fwdSlots := rfl
@[simp] theorem State.modCore_bootst (s : State) (c : Nat) (f : Core → Core) : (s.modCore c f).bootst = s.bootst := rfl
@[simp] theorem State.modCore_mboxIn (s : State) (c : Nat) (f : Core → Core) : (s.modCore c f).mboxIn = s.mboxIn := rfl
@[simp] theorem State.modCore_mboxWait (s : State) (c : Nat) (f : Core → Core) : (s.modCore c f).mboxWait = s.mboxWait := rfl
@[simp] theorem State.modCore_mboxOut (s : State) (c : Nat) (f : Core → Core) : (s.modCore c f).mboxOut = s.mboxOut := rfl
@[simp] theorem State.modCore_perrst (s : State) (c : Nat) (f : Core → Core) : (s.modCore c f).perrst = s.perrst := rfl
@[simp] theorem State.modCore_events (s : State) (c : Nat) (f : Core → Core) : (s.modCore c f).events = s.events := rfl
@[simp] theorem State.modCore_vectors (s : State) (c : Nat) (f : Core → Core) : (s.modCore c f).vectors = s.vectors := rfl
@[simp] theorem State.modCore_partset (s : State) (c : Nat) (f : Core → Core) : (s.modCore c f).partset = s.partset := rfl
@[simp] theorem State.modCore_quarantine (s : State) (c : Nat) (f : Core → Core) : (s.modCore c f).quarantine = s.quarantine := rfl
@[simp] theorem State.modCore_shut (s : State) (c : Nat) (f : Core → Core) : (s.modCore c f).shut = s.shut := rfl
@[simp] theorem State.modCore_preempt (s : State) (c : Nat) (f : Core → Core) : (s.modCore c f).preempt = s.preempt := rfl
@[simp] theorem State.modCore_halted (s : State) (c : Nat) (f : Core → Core) : (s.modCore c f).halted = s.halted := rfl
@[simp] theorem State.modCore_resuming (s : State) (c : Nat) (f : Core → Core) : (s.modCore c f).resuming = s.resuming := rfl
@[simp] theorem State.modCore_saved (s : State) (c : Nat) (f : Core → Core) : (s.modCore c f).saved = s.saved := rfl
@[simp] theorem State.modCore_hbmCmd (s : State) (c : Nat) (f : Core → Core) : (s.modCore c f).hbmCmd = s.hbmCmd := rfl
@[simp] theorem State.modCore_marks (s : State) (c : Nat) (f : Core → Core) : (s.modCore c f).marks = s.marks := rfl
@[simp] theorem State.modCore_forwarded (s : State) (c : Nat) (f : Core → Core) : (s.modCore c f).forwarded = s.forwarded := rfl
@[simp] theorem State.modCore_streams (s : State) (c : Nat) (f : Core → Core) : (s.modCore c f).streams = s.streams := rfl

/-! ### A core after an update -/

@[simp] theorem State.core_post (s : State) (it : Item) (c : Nat) : (s.post it).core c = s.core c := rfl
@[simp] theorem State.core_at (s : State) (c' t p : Nat) (ev : Ev) (c : Nat) : (s.at c' t p ev).core c = s.core c := rfl
@[simp] theorem State.core_atLast (s : State) (c' t : Nat) (ev : Ev) (c : Nat) : (s.atLast c' t ev).core c = s.core c := rfl
@[simp] theorem State.core_later (s : State) (t p : Nat) (ev : Ev) (c : Nat) : (s.later t p ev).core c = s.core c := rfl
@[simp] theorem State.core_drop (s : State) (c' : Nat) (p : Ev → Bool) (c : Nat) : (s.drop c' p).core c = s.core c := rfl
@[simp] theorem State.cur_post (s : State) (it : Item) : (s.post it).cur = s.cur := rfl
@[simp] theorem State.cur_at (s : State) (c t p : Nat) (ev : Ev) : (s.at c t p ev).cur = s.cur := rfl
@[simp] theorem State.cur_later (s : State) (t p : Nat) (ev : Ev) : (s.later t p ev).cur = s.cur := rfl

@[simp] theorem State.core_setCore_same (s : State) (c : Nat) (k : Core) : (s.setCore c k).core c = k :=
  Sp.get_set_same s.cores c k
theorem State.core_setCore_other (s : State) {c c' : Nat} (k : Core) (h : c' ≠ c) : (s.setCore c k).core c' = s.core c' :=
  Sp.get_set_other s.cores k h
@[simp] theorem State.core_modCore_same (s : State) (c : Nat) (f : Core → Core) : (s.modCore c f).core c = f (s.core c) :=
  State.core_setCore_same s c _
theorem State.core_modCore_other (s : State) {c c' : Nat} (f : Core → Core) (h : c' ≠ c) :
    (s.modCore c f).core c' = s.core c' := State.core_setCore_other s _ h
theorem State.core_modCore (s : State) (c c' : Nat) (f : Core → Core) :
    (s.modCore c f).core c' = if c' = c then f (s.core c) else s.core c' := by
  split
  · subst_vars; simp
  · exact State.core_modCore_other s f ‹_›
@[simp] theorem State.cur_modCur (s : State) (f : Core → Core) : (s.modCur f).cur = f s.cur :=
  State.core_modCore_same s s.focus.core.val f

/-! ### Registers of a core after a write -/

theorem Core.readS_writeS (k : Core) (d r : Fin 32) (x : W64) :
    (k.writeS d x).readS r = if r = 0 then 0 else if r = d then x else k.readS r := by
  unfold Core.writeS Core.readS
  by_cases hr : r = 0
  · simp [hr]
  · by_cases hd : d = 0
    · simp [hr, hd]
    · by_cases h : r = d
      · subst h; simp [hr]
      · have : d.val ≠ r.val := fun e => h (Fin.ext e.symm)
        simp [hr, hd, h, Vector.getElem_set, this]

theorem Core.readQ_writeQ (k : Core) (d r : Fin 8) (x : Bool) :
    (k.writeQ d x).readQ r = if r = 0 then true else if r = d then x else k.readQ r := by
  unfold Core.writeQ Core.readQ
  by_cases hr : r = 0
  · simp [hr]
  · by_cases hd : d = 0
    · simp [hr, hd]
    · by_cases h : r = d
      · subst h; simp [hr]
      · have : d.val ≠ r.val := fun e => h (Fin.ext e.symm)
        simp [hr, hd, h, Vector.getElem_set, this]

theorem Core.readK_writeK (k : Core) (d r : Fin 8) (m x : KReg) :
    (k.writeK d m x).readK r = if r = 0 then BitVec.allOnes 1024
      else if r = d then (k.readK r &&& ~~~m) ||| (x &&& m) else k.readK r := by
  unfold Core.writeK Core.readK
  by_cases hr : r = 0
  · simp [hr]
  · by_cases hd : d = 0
    · simp [hr, hd]
    · by_cases h : r = d
      · subst h; simp [hr]
      · have : d.val ≠ r.val := fun e => h (Fin.ext e.symm)
        simp [hr, hd, h, Vector.getElem_set, this]

end Sys2Proof.Machine
end

