-- ==== Sys2Proof/Laws/Exchange.lean ====
section
/-! SUPPORT. What the shared operations of the exchange can do: reads of window entries, values of bytes that two paths touch, fences and
boundaries, the places of accumulators and the slots of propagation. -/

namespace Sys2Proof.Machine

open Sys2Proof

/-! ### Marks (R366) -/

/-- A core without soft errors corrects nothing. -/
theorem State.fixes_of_nil {s : State} {c : Nat} (h : (s.core c).marks = []) (st : Store) (us : List Nat) : s.fixes c st us = s := by
  simp [State.fixes, h]

/-- The uncorrectable units are those of a mark. -/
theorem Core.mem_badUnits {k : Core} {st : Store} {us : List Nat} {u : Nat} :
    u ∈ k.badUnits st us ↔ u ∈ us ∧ ∃ m ∈ k.marks, m.store = st ∧ m.hard = true ∧ m.unit = u := by
  simp only [Core.badUnits, List.mem_dedup, List.mem_map, List.mem_filter, Bool.and_eq_true, beq_iff_eq, List.contains_iff_mem]
  constructor
  · rintro ⟨m, ⟨hm, ⟨h1, h2⟩, h3⟩, rfl⟩
    exact ⟨h3, m, hm, h1, h2, rfl⟩
  · rintro ⟨h3, m, hm, h1, h2, rfl⟩
    exact ⟨m, ⟨hm, ⟨h1, h2⟩, h3⟩, rfl⟩

/-- A read at a core without soft errors goes on and changes nothing. -/
theorem State.meet_of_nil {s : State} {c : Nat} (h : (s.core c).marks = []) (st : Store) (reader slot addr : Nat) (us : List Nat) :
    s.meet c st reader slot addr us = (true, s) := by
  simp [State.meet, h]

/-- A read goes on where none of its units is uncorrectable. -/
theorem State.meet_fst (s : State) (c : Nat) (st : Store) (reader slot addr : Nat) (us : List Nat) :
    (s.meet c st reader slot addr us).1 = true ↔ ∀ m ∈ (s.core c).marks, m.store = st → m.hard = true → m.unit ∉ us := by
  simp only [State.meet]
  split
  · simp_all
  · simp only [List.isEmpty_iff, List.eq_nil_iff_forall_not_mem, Core.mem_badUnits]
    constructor
    · exact fun h m hm h1 h2 h3 => h m.unit ⟨h3, m, hm, h1, h2, rfl⟩
    · rintro h u ⟨h3, m, hm, h1, h2, rfl⟩
      exact h m hm h1 h2 h3

/-- Bytes land whole at a core without soft errors. -/
theorem State.landRaw_of_nil {s : State} {c : Nat} (h : (s.core c).marks = []) (spm set : Bool) (who : Option Nat) (half : List Nat)
    (bs : List (Nat × Byte)) (pre : State → State) :
    s.landRaw c spm set who half bs pre = (pre s).modCore c fun k => k.storeBytes s.cyc spm set who bs := by
  simp [State.landRaw, State.meet_of_nil h]

/-- The read of a window entry without soft errors goes on. -/
theorem State.withWin_of_nil {s : State} {c : Nat} (h : (s.core c).marks = []) (e : Fin 32) (f : State → State) : s.withWin c e f = f s := by
  simp [State.withWin, State.badWin, Core.marked, h, State.fixes_of_nil h]

/-- An uncorrectable window entry is detected, and the read goes no further (R393). -/
theorem State.withWin_of_bad {s : State} {c : Nat} {e : Fin 32} (h : s.badWin c e = true) (f : State → State) :
    s.withWin c e f = s.winErr c e := by
  simp [State.withWin, h]

/-- Only words that some byte touches are written in part. -/
theorem partWords_subset (half as : List Nat) : ∀ w ∈ partWords half as, w ∈ wordsOf as :=
  fun _ h => (List.mem_filter.1 h).1

/-! ### Values of a byte (R272, R296, R297) -/

/-- A free choice takes one of the values. -/
theorem pickByte_mem {α : Type} (free a : Nat) (xs : List α) (b : α) : pickByte free a xs b = b ∨ pickByte free a xs b ∈ xs := by
  induction xs generalizing free with
  | nil => simp [pickByte]
  | cons x r ih =>
    unfold pickByte
    split
    · simp
    · exact (ih (free + 2 ^ 22)).imp_right (List.mem_cons_of_mem _)

/-- A GET returns the value in SPM where there is no other, else one of the values that its byte has had. -/
theorem Window.getByte_mem (w : Window) (spm : Memory) (free start a : Nat) :
    (w.candidates start a = [] ∧ w.getByte spm free start a = spm.byte a) ∨ w.getByte spm free start a ∈ w.candidates start a := by
  unfold Window.getByte
  generalize hc : w.candidates start a = cs
  cases hr : cs.reverse with
  | nil => exact .inl ⟨by simpa using hr, rfl⟩
  | cons b r =>
    have hm : ∀ x, x ∈ cs ↔ x = b ∨ x ∈ r := fun x => by rw [← List.mem_reverse, hr, List.mem_cons]
    exact .inr ((hm _).2 (pickByte_mem free a r b))

/-- The prior value of a byte is the one in SPM or one that it has had. -/
theorem Window.byteOf_mem (w : Window) (spm : Memory) (free start a : Nat) :
    w.byteOf spm free start a = spm.byte a ∨ w.byteOf spm free start a ∈ w.candidates start a :=
  pickByte_mem ..

/-- A fence hides values and changes none. -/
theorem hideEarlier_map (cyc : Nat) (xs : List (Byte × Option Nat)) : (hideEarlier cyc xs).map (·.1) = xs.map (·.1) := by
  fun_induction hideEarlier cyc xs <;> simp_all [hideValue, apply_ite]

/-- The value written last stays in sight of every later fence. -/
theorem hideEarlier_getLast (cyc : Nat) (xs : List (Byte × Option Nat)) : (hideEarlier cyc xs).getLast? = xs.getLast? := by
  fun_induction hideEarlier cyc xs with
  | case1 => rfl
  | case2 => rfl
  | case3 x r hr ih =>
    obtain ⟨y, t, rfl⟩ := List.exists_cons_of_ne_nil (by simpa using hr)
    have : hideEarlier cyc (y :: t) ≠ [] := by cases t <;> simp [hideEarlier]
    rw [List.getLast?_cons, List.getLast?_cons_cons, ih]
    simp [List.getLast?_cons]

/-- An operation finds the opening value of a byte or one that a timed write has given it since. -/
theorem Opening.mem_values {o : Opening} {start : Nat} {b : Byte} (h : b ∈ o.values start) :
    b ∈ o.first.map (·.1) ∨ b ∈ o.later.map (·.1) := by
  simp only [Opening.values, List.map_append, List.mem_append, List.mem_map, Option.mem_toList, List.mem_filter] at h
  obtain ⟨x, hx, rfl⟩ | ⟨x, hx, rfl⟩ := h
  · exact .inl (List.mem_map.2 ⟨x, List.mem_of_find?_eq_some hx, rfl⟩)
  · exact .inr (List.mem_map.2 ⟨x, hx.1, rfl⟩)

/-! ### Orders (R298-R300) -/

/-- With nothing unordered and no effect of an operation, there is nothing to see. -/
theorem State.sees_of_nil {s : State} {c : Nat} (h : (s.core c).loose = []) (p : Loose → Bool) : s.sees c p [] = s := by
  simp [State.sees, h]

/-- What a core sees: the complete writes that it is told of, and the latest operation of each rank (R298, R300). -/
theorem State.core_sees (s : State) (c : Nat) (p : Loose → Bool) (ys : List (Nat × Nat)) :
    (s.sees c p ys).core c =
      { s.core c with loose := (s.core c).loose.map fun x => x.see s.cyc (p x), known := learn (s.core c).known ys } := by
  unfold State.sees
  split
  · rename_i h
    obtain ⟨h, rfl⟩ := h
    rw [h]
    generalize s.core c = k at *
    cases k
    simp_all [learn]
  · simp

/-- The other cores see nothing. -/
theorem State.core_sees_other {s : State} {c d : Nat} (h : d ≠ c) (p : Loose → Bool) (ys : List (Nat × Nat)) :
    (s.sees c p ys).core d = s.core d := by
  unfold State.sees
  split
  · rfl
  · exact State.core_modCore_other s _ h

/-- What a core has seen of a rank is the latest of what it had seen and sees now (R300). -/
theorem get_learn (known ys : List (Nat × Nat)) (r : Nat) :
    Sp.get 0 (learn known ys) r = (ys.filter (·.1 == r)).foldl (fun n y => max y.2 n) (Sp.get 0 known r) := by
  induction ys generalizing known with
  | nil => rfl
  | cons y ys ih =>
    have h : learn known (y :: ys) = learn (Sp.put y.1 (max y.2 (Sp.get 0 known y.1)) known) ys := rfl
    rw [h, ih]
    by_cases hr : y.1 = r
    · subst hr; simp [Sp.get_put_same]
    · rw [Sp.get_put_other _ _ (Ne.symm hr)]; simp [hr]

/-- A fence hides values that a GET might find and changes none. -/
theorem Opening.fenced_values (o : Opening) (cyc : Nat) (timed all : Bool) :
    (o.fenced cyc timed all).first.map (·.1) = o.first.map (·.1) ∧ (o.fenced cyc timed all).later.map (·.1) = o.later.map (·.1) := by
  have h : ∀ xs : List (Byte × Option Nat), (xs.map (hideValue cyc)).map (·.1) = xs.map (·.1) := fun xs => by
    rw [List.map_map]
    exact List.map_congr_left fun x _ => by unfold Function.comp hideValue; split <;> rfl
  unfold Opening.fenced
  split <;> split <;> simp [h, hideEarlier_map]

/-- With nothing unordered and no values kept, a fence orders nothing. -/
theorem State.fence_of_nil {s : State} {c : Nat} (h : (s.core c).loose = []) (hw : ∀ w ∈ (s.core c).win.toList, w.opened = [])
    (p q : PathClass) : s.fence c p q = s := by
  unfold State.fence
  rw [if_pos ⟨h, .inr (List.all_eq_true.2 fun w hm => beq_iff_eq.2 (hw w hm))⟩]

/-- With nothing unordered, a read returns what memory holds. -/
theorem State.settle_of_nil {s : State} {c : Nat} (h : (s.core c).loose = []) (cls : PathClass) (key : Nat) (as : List Nat)
    (bs : List Byte) : s.settle c cls key as bs = (bs, s) := by
  simp [State.settle, h]

/-- A boundary leaves unordered only untimed writes that were so and were not complete at its decision cycle (R299). -/
theorem mem_orderedLoose {d : Nat} {x : Loose} {xs : List Loose} (h : x ∈ orderedLoose d xs) :
    x ∈ xs ∧ x.writer ≠ .t ∧ x.done.any (· ≤ d + 1) = false := by
  induction xs with
  | nil => simp [orderedLoose] at h
  | cons y r ih =>
    simp only [orderedLoose] at h
    split at h
    · exact ⟨List.mem_cons_of_mem _ (ih h).1, (ih h).2⟩
    · rename_i hn
      obtain rfl | h := List.mem_cons.1 h
      · exact ⟨List.mem_cons_self, by rintro e; simp [e] at hn, by simp at hn ⊢; exact hn.1.2 hn.1.1⟩
      · exact ⟨List.mem_cons_of_mem _ (ih h).1, (ih h).2⟩

/-- With every member in its group, a call keeps them all (R329). -/
theorem State.setApart_of_all {s : State} {x : Call} {g : Group} (hg : s.group x.group = some g)
    (h : ∀ m ∈ x.members, s.inGroup g m.core = true) : s.setApart x = s := by
  simp only [State.setApart, hg, Option.elim_some]
  rw [if_pos (List.filter_eq_nil_iff.2 fun m hm => by simp [h m hm])]

/-! ### Accumulators and slots (R302, R332) -/

/-- An accumulator's place lies in the chunk store, apart from those of the other groups (R332). -/
theorem State.accPlace_fits {s : State} {group n a : Nat} {acc : Option (Nat × Nat)} (h : s.accPlace group acc n = some a) :
    a + 4 * n ≤ 2 ^ 28 ∧ ∀ x ∈ s.accumulators group, a + 4 * n ≤ x.1 ∨ x.1 + 4 * x.2 ≤ a := by
  have h := List.find?_some h
  simpa [accFits] using h

/-- What is taken of a list satisfies the test, is no more than asked for, and leaves the rest of the list as it was. -/
theorem splitFirst_spec {α : Type} (p : α → Bool) (n : Nat) (l : List α) :
    (∀ x ∈ (splitFirst p n l).1, p x = true) ∧ (splitFirst p n l).1.length ≤ n ∧
      ((splitFirst p n l).1 ++ (splitFirst p n l).2).Perm l := by
  induction l generalizing n with
  | nil => simp [splitFirst]
  | cons x r ih =>
    unfold splitFirst
    split
    · rename_i h
      obtain ⟨h1, h2, h3⟩ := ih (n - 1)
      refine ⟨by simpa [h.2] using h1, by simp; omega, by simpa using h3⟩
    · obtain ⟨h1, h2, h3⟩ := ih n
      exact ⟨h1, h2, List.perm_middle.trans (h3.cons x)⟩

/-- A slot's updates are those of one core's pseudo-channel, at most n; with the rest they are what there was to do, and die by die they are
of the die whose turn it is (R302, R304). -/
theorem Repl.slotWork_spec (r : Repl) (c p n : Nat) :
    (∀ t ∈ (r.slotWork c p n).1, t.1 = c ∧ t.2.1 / 16 % 2 = p ∧ (r.atomic = false → t.1 / 64 = r.die)) ∧
      (r.slotWork c p n).1.length ≤ n ∧ ((r.slotWork c p n).1 ++ (r.slotWork c p n).2).Perm r.todo := by
  unfold Repl.slotWork
  generalize hrun : (if r.atomic then r.todo else r.todo.takeWhile fun t => t.1 / 64 == r.die) = run
  obtain ⟨h1, h2, h3⟩ := splitFirst_spec (fun t => t.1 == c && t.2.1 / 16 % 2 == p) n run
  refine ⟨fun t ht => ?_, h2, ?_⟩
  · obtain ⟨hc, hp⟩ : t.1 = c ∧ t.2.1 / 16 % 2 = p := by simpa using h1 t ht
    refine ⟨hc, hp, fun ha => ?_⟩
    have hm : t ∈ run := h3.mem_iff.1 (List.mem_append_left _ ht)
    rw [← hrun, ha, if_neg (by simp)] at hm
    have := List.mem_takeWhile_imp hm
    exact LawfulBEq.eq_of_beq this
  · rw [← List.append_assoc]
    refine (h3.append_right _).trans (List.Perm.of_eq ?_)
    refine (List.prefix_iff_eq_append.1 ?_)
    rw [← hrun]
    split
    · exact List.prefix_refl _
    · exact List.takeWhile_prefix _

end Sys2Proof.Machine
end

