-- ==== Sys2Proof/Laws/PerInstr.lean ====
section
/-! SUPPORT. Statements made for every instruction, one lemma per constructor: the width of its encoding (R57, R216, R244). -/

namespace Sys2Proof.Laws.Encoding

open Sys2Proof

/-- The word of an instruction has 64 bits, and 32 unless it is a micro-step (R57, R216, R244). -/
def Statement (i : Instr) : Prop := encode i < 2 ^ 64 ∧ (i.space ≠ .micro → encode i < 2 ^ 32)

theorem small {i : Instr} (h : encode i < 2 ^ 32) : Statement i := ⟨by omega, fun _ => h⟩

theorem micro {i : Instr} (h : encode i < 2 ^ 64) (hm : i.space = .micro) : Statement i := ⟨h, fun x => absurd hm x⟩

theorem guard_lt (g : Guard) : g.enc < 16 := by have := g.q.isLt; unfold Guard.enc; cases g.inv <;> simp_all <;> omega

theorem sel_lt (a : Sel) : a.enc < 64 := by cases a <;> simp [Sel.enc] <;> omega

theorem psel_lt (a : PSel) : a.enc < 64 := by cases a <;> simp [PSel.enc]; omega

theorem ksel_lt (a : KSel) : a.enc < 64 := by cases a <;> simp [KSel.enc]; omega

theorem rr {i : Instr} {m : Nat} {g : Guard} {d a b mi : Nat} (h : encode i = encRR m g d a b mi) (hm : m < 64) (hd : d < 32) (ha : a < 64)
    (hb : b < 64) (hmi : mi < 32) : Statement i :=
  small (by have := guard_lt g; rw [h]; unfold encRR; omega)

theorem ri {i : Instr} {m : Nat} {g : Guard} {d a imm : Nat} (h : encode i = encRI m g d a imm) (hm : m < 64) (hd : d < 32) (ha : a < 64)
    (hi : imm < 2 ^ 11) : Statement i :=
  small (by have := guard_lt g; rw [h]; unfold encRI; omega)

theorem fi {i : Instr} {m : Nat} {d : Fin 32} {imm : BitVec 20} (h : encode i = encFI m d imm) (hm : m < 64) : Statement i :=
  small (by have := d.isLt; have := imm.isLt; rw [h]; unfold encFI; omega)

theorem brw {i : Instr} {m : Nat} {g : Guard} {off : BitVec 22} (h : encode i = encBR m g off) (hm : m < 64) : Statement i :=
  small (by have := guard_lt g; have := off.isLt; rw [h]; unfold encBR; omega)

theorem engine {i : Instr} {m : Nat} {g : Guard} {o a b : Nat} (h : encode i = encE m g o a b) (hm : m < 64) (ho : o < 2 ^ 12) (ha : a < 32)
    (hb : b < 32) : Statement i :=
  small (by have := guard_lt g; rw [h]; unfold encE; omega)

theorem chainw {i : Instr} {op x : Nat} {dt : BitVec 11} (h : encode i = encC op x dt) (hop : op < 15) (hx : x < 2 ^ 28) : Statement i :=
  small (by have := dt.isLt; rw [h]; unfold encC; omega)

theorem add (g : Guard) (d : Fin 32) (a b : Sel) : Statement (.add g d a b) := rr rfl (by decide) (Nat.lt_of_lt_of_le d.isLt (by decide)) (sel_lt a) (sel_lt b) (by decide)

theorem sub (g : Guard) (d : Fin 32) (a b : Sel) : Statement (.sub g d a b) := rr rfl (by decide) (Nat.lt_of_lt_of_le d.isLt (by decide)) (sel_lt a) (sel_lt b) (by decide)

theorem and (g : Guard) (d : Fin 32) (a b : Sel) : Statement (.and g d a b) := rr rfl (by decide) (Nat.lt_of_lt_of_le d.isLt (by decide)) (sel_lt a) (sel_lt b) (by decide)

theorem or (g : Guard) (d : Fin 32) (a b : Sel) : Statement (.or g d a b) := rr rfl (by decide) (Nat.lt_of_lt_of_le d.isLt (by decide)) (sel_lt a) (sel_lt b) (by decide)

theorem xor (g : Guard) (d : Fin 32) (a b : Sel) : Statement (.xor g d a b) := rr rfl (by decide) (Nat.lt_of_lt_of_le d.isLt (by decide)) (sel_lt a) (sel_lt b) (by decide)

theorem andn (g : Guard) (d : Fin 32) (a b : Sel) : Statement (.andn g d a b) := rr rfl (by decide) (Nat.lt_of_lt_of_le d.isLt (by decide)) (sel_lt a) (sel_lt b) (by decide)

theorem min (g : Guard) (d : Fin 32) (a b : Sel) : Statement (.min g d a b) := rr rfl (by decide) (Nat.lt_of_lt_of_le d.isLt (by decide)) (sel_lt a) (sel_lt b) (by decide)

theorem max (g : Guard) (d : Fin 32) (a b : Sel) : Statement (.max g d a b) := rr rfl (by decide) (Nat.lt_of_lt_of_le d.isLt (by decide)) (sel_lt a) (sel_lt b) (by decide)

theorem minl (g : Guard) (d : Fin 32) (a b : Sel) : Statement (.minl g d a b) := rr rfl (by decide) (Nat.lt_of_lt_of_le d.isLt (by decide)) (sel_lt a) (sel_lt b) (by decide)

theorem maxl (g : Guard) (d : Fin 32) (a b : Sel) : Statement (.maxl g d a b) := rr rfl (by decide) (Nat.lt_of_lt_of_le d.isLt (by decide)) (sel_lt a) (sel_lt b) (by decide)

theorem shl (g : Guard) (d : Fin 32) (a b : Sel) : Statement (.shl g d a b) := rr rfl (by decide) (Nat.lt_of_lt_of_le d.isLt (by decide)) (sel_lt a) (sel_lt b) (by decide)

theorem shr (g : Guard) (d : Fin 32) (a b : Sel) : Statement (.shr g d a b) := rr rfl (by decide) (Nat.lt_of_lt_of_le d.isLt (by decide)) (sel_lt a) (sel_lt b) (by decide)

theorem sra (g : Guard) (d : Fin 32) (a b : Sel) : Statement (.sra g d a b) := rr rfl (by decide) (Nat.lt_of_lt_of_le d.isLt (by decide)) (sel_lt a) (sel_lt b) (by decide)

theorem rol (g : Guard) (d : Fin 32) (a b : Sel) : Statement (.rol g d a b) := rr rfl (by decide) (Nat.lt_of_lt_of_le d.isLt (by decide)) (sel_lt a) (sel_lt b) (by decide)

theorem mul (g : Guard) (d : Fin 32) (a b : Sel) : Statement (.mul g d a b) := rr rfl (by decide) (Nat.lt_of_lt_of_le d.isLt (by decide)) (sel_lt a) (sel_lt b) (by decide)

theorem mulh (g : Guard) (d : Fin 32) (a b : Sel) : Statement (.mulh g d a b) := rr rfl (by decide) (Nat.lt_of_lt_of_le d.isLt (by decide)) (sel_lt a) (sel_lt b) (by decide)

theorem mulhl (g : Guard) (d : Fin 32) (a b : Sel) : Statement (.mulhl g d a b) := rr rfl (by decide) (Nat.lt_of_lt_of_le d.isLt (by decide)) (sel_lt a) (sel_lt b) (by decide)

theorem extr (g : Guard) (d : Fin 32) (a b : Sel) : Statement (.extr g d a b) := rr rfl (by decide) (Nat.lt_of_lt_of_le d.isLt (by decide)) (sel_lt a) (sel_lt b) (by decide)

theorem ins (g : Guard) (d : Fin 32) (a b : Sel) : Statement (.ins g d a b) := rr rfl (by decide) (Nat.lt_of_lt_of_le d.isLt (by decide)) (sel_lt a) (sel_lt b) (by decide)

theorem clz (g : Guard) (d : Fin 32) (a : Sel) : Statement (.clz g d a) := rr rfl (by decide) (Nat.lt_of_lt_of_le d.isLt (by decide)) (sel_lt a) (by decide) (by decide)

theorem ctz (g : Guard) (d : Fin 32) (a : Sel) : Statement (.ctz g d a) := rr rfl (by decide) (Nat.lt_of_lt_of_le d.isLt (by decide)) (sel_lt a) (by decide) (by decide)

theorem popc (g : Guard) (d : Fin 32) (a : Sel) : Statement (.popc g d a) := rr rfl (by decide) (Nat.lt_of_lt_of_le d.isLt (by decide)) (sel_lt a) (by decide) (by decide)

theorem brev (g : Guard) (d : Fin 32) (a : Sel) : Statement (.brev g d a) := rr rfl (by decide) (Nat.lt_of_lt_of_le d.isLt (by decide)) (sel_lt a) (by decide) (by decide)

theorem addsh (g : Guard) (d : Fin 32) (a b : Sel) (n : Fin 8) : Statement (.addsh g d a b n) := rr rfl (by decide) (Nat.lt_of_lt_of_le d.isLt (by decide)) (sel_lt a) (sel_lt b) (Nat.lt_of_lt_of_le n.isLt (by decide))

theorem addi (g : Guard) (d : Fin 32) (a : Sel) (imm : BitVec 11) : Statement (.addi g d a imm) := ri rfl (by decide) (Nat.lt_of_lt_of_le d.isLt (by decide)) (sel_lt a) (Nat.lt_of_lt_of_le imm.isLt (by decide))

theorem andi (g : Guard) (d : Fin 32) (a : Sel) (imm : BitVec 11) : Statement (.andi g d a imm) := ri rfl (by decide) (Nat.lt_of_lt_of_le d.isLt (by decide)) (sel_lt a) (Nat.lt_of_lt_of_le imm.isLt (by decide))

theorem ori (g : Guard) (d : Fin 32) (a : Sel) (imm : BitVec 11) : Statement (.ori g d a imm) := ri rfl (by decide) (Nat.lt_of_lt_of_le d.isLt (by decide)) (sel_lt a) (Nat.lt_of_lt_of_le imm.isLt (by decide))

theorem xori (g : Guard) (d : Fin 32) (a : Sel) (imm : BitVec 11) : Statement (.xori g d a imm) := ri rfl (by decide) (Nat.lt_of_lt_of_le d.isLt (by decide)) (sel_lt a) (Nat.lt_of_lt_of_le imm.isLt (by decide))

theorem shli (g : Guard) (d : Fin 32) (a : Sel) (n : Fin 64) : Statement (.shli g d a n) := ri rfl (by decide) (Nat.lt_of_lt_of_le d.isLt (by decide)) (sel_lt a) (Nat.lt_of_lt_of_le n.isLt (by decide))

theorem shri (g : Guard) (d : Fin 32) (a : Sel) (n : Fin 64) : Statement (.shri g d a n) := ri rfl (by decide) (Nat.lt_of_lt_of_le d.isLt (by decide)) (sel_lt a) (Nat.lt_of_lt_of_le n.isLt (by decide))

theorem srai (g : Guard) (d : Fin 32) (a : Sel) (n : Fin 64) : Statement (.srai g d a n) := ri rfl (by decide) (Nat.lt_of_lt_of_le d.isLt (by decide)) (sel_lt a) (Nat.lt_of_lt_of_le n.isLt (by decide))

theorem movi (d : Fin 32) (imm : BitVec 20) : Statement (.movi d imm) := fi rfl (by decide)

theorem movhi (d : Fin 32) (imm : BitVec 20) : Statement (.movhi d imm) := fi rfl (by decide)

theorem addl (d : Fin 32) (imm : BitVec 20) : Statement (.addl d imm) := fi rfl (by decide)

theorem cmpeq (g : Guard) (d : Fin 8) (a b : Sel) : Statement (.cmpeq g d a b) := rr rfl (by decide) (Nat.lt_of_lt_of_le d.isLt (by decide)) (sel_lt a) (sel_lt b) (by decide)

theorem cmpne (g : Guard) (d : Fin 8) (a b : Sel) : Statement (.cmpne g d a b) := rr rfl (by decide) (Nat.lt_of_lt_of_le d.isLt (by decide)) (sel_lt a) (sel_lt b) (by decide)

theorem cmplt (g : Guard) (d : Fin 8) (a b : Sel) : Statement (.cmplt g d a b) := rr rfl (by decide) (Nat.lt_of_lt_of_le d.isLt (by decide)) (sel_lt a) (sel_lt b) (by decide)

theorem cmple (g : Guard) (d : Fin 8) (a b : Sel) : Statement (.cmple g d a b) := rr rfl (by decide) (Nat.lt_of_lt_of_le d.isLt (by decide)) (sel_lt a) (sel_lt b) (by decide)

theorem cmplo (g : Guard) (d : Fin 8) (a b : Sel) : Statement (.cmplo g d a b) := rr rfl (by decide) (Nat.lt_of_lt_of_le d.isLt (by decide)) (sel_lt a) (sel_lt b) (by decide)

theorem cmpls (g : Guard) (d : Fin 8) (a b : Sel) : Statement (.cmpls g d a b) := rr rfl (by decide) (Nat.lt_of_lt_of_le d.isLt (by decide)) (sel_lt a) (sel_lt b) (by decide)

theorem cmpeqi (g : Guard) (d : Fin 8) (a : Sel) (imm : BitVec 11) : Statement (.cmpeqi g d a imm) := ri rfl (by decide) (Nat.lt_of_lt_of_le d.isLt (by decide)) (sel_lt a) (Nat.lt_of_lt_of_le imm.isLt (by decide))

theorem cmplti (g : Guard) (d : Fin 8) (a : Sel) (imm : BitVec 11) : Statement (.cmplti g d a imm) := ri rfl (by decide) (Nat.lt_of_lt_of_le d.isLt (by decide)) (sel_lt a) (Nat.lt_of_lt_of_le imm.isLt (by decide))

theorem cmploi (g : Guard) (d : Fin 8) (a : Sel) (imm : BitVec 11) : Statement (.cmploi g d a imm) := ri rfl (by decide) (Nat.lt_of_lt_of_le d.isLt (by decide)) (sel_lt a) (Nat.lt_of_lt_of_le imm.isLt (by decide))

theorem pand (g : Guard) (d : Fin 8) (a b : PSel) : Statement (.pand g d a b) := rr rfl (by decide) (Nat.lt_of_lt_of_le d.isLt (by decide)) (psel_lt a) (psel_lt b) (by decide)

theorem por (g : Guard) (d : Fin 8) (a b : PSel) : Statement (.por g d a b) := rr rfl (by decide) (Nat.lt_of_lt_of_le d.isLt (by decide)) (psel_lt a) (psel_lt b) (by decide)

theorem pxor (g : Guard) (d : Fin 8) (a b : PSel) : Statement (.pxor g d a b) := rr rfl (by decide) (Nat.lt_of_lt_of_le d.isLt (by decide)) (psel_lt a) (psel_lt b) (by decide)

theorem pandn (g : Guard) (d : Fin 8) (a b : PSel) : Statement (.pandn g d a b) := rr rfl (by decide) (Nat.lt_of_lt_of_le d.isLt (by decide)) (psel_lt a) (psel_lt b) (by decide)

theorem mov (g : Guard) (d : Fin 32) (a : Sel) : Statement (.mov g d a) := rr rfl (by decide) (Nat.lt_of_lt_of_le d.isLt (by decide)) (sel_lt a) (by decide) (by decide)

theorem pkq (g : Guard) (d : Fin 32) : Statement (.pkq g d) := rr rfl (by decide) (Nat.lt_of_lt_of_le d.isLt (by decide)) (by decide) (by decide) (by decide)

theorem upkq (g : Guard) (a : Sel) : Statement (.upkq g a) := rr rfl (by decide) (by decide) (sel_lt a) (by decide) (by decide)

theorem fadd (g : Guard) (d : Fin 32) (a b : Sel) : Statement (.fadd g d a b) := rr rfl (by decide) (Nat.lt_of_lt_of_le d.isLt (by decide)) (sel_lt a) (sel_lt b) (by decide)

theorem fsub (g : Guard) (d : Fin 32) (a b : Sel) : Statement (.fsub g d a b) := rr rfl (by decide) (Nat.lt_of_lt_of_le d.isLt (by decide)) (sel_lt a) (sel_lt b) (by decide)

theorem fmul (g : Guard) (d : Fin 32) (a b : Sel) : Statement (.fmul g d a b) := rr rfl (by decide) (Nat.lt_of_lt_of_le d.isLt (by decide)) (sel_lt a) (sel_lt b) (by decide)

theorem fmin (g : Guard) (d : Fin 32) (a b : Sel) : Statement (.fmin g d a b) := rr rfl (by decide) (Nat.lt_of_lt_of_le d.isLt (by decide)) (sel_lt a) (sel_lt b) (by decide)

theorem fmax (g : Guard) (d : Fin 32) (a b : Sel) : Statement (.fmax g d a b) := rr rfl (by decide) (Nat.lt_of_lt_of_le d.isLt (by decide)) (sel_lt a) (sel_lt b) (by decide)

theorem fabs (g : Guard) (d : Fin 32) (a : Sel) : Statement (.fabs g d a) := rr rfl (by decide) (Nat.lt_of_lt_of_le d.isLt (by decide)) (sel_lt a) (by decide) (by decide)

theorem fneg (g : Guard) (d : Fin 32) (a : Sel) : Statement (.fneg g d a) := rr rfl (by decide) (Nat.lt_of_lt_of_le d.isLt (by decide)) (sel_lt a) (by decide) (by decide)

theorem fma (g : Guard) (d : Fin 32) (a b : Sel) : Statement (.fma g d a b) := rr rfl (by decide) (Nat.lt_of_lt_of_le d.isLt (by decide)) (sel_lt a) (sel_lt b) (by decide)

theorem fmaD (g : Guard) (d : Fin 32) (a b : Sel) : Statement (.fmaD g d a b) := rr rfl (by decide) (Nat.lt_of_lt_of_le d.isLt (by decide)) (sel_lt a) (sel_lt b) (by decide)

theorem fcmpeq (g : Guard) (d : Fin 8) (a b : Sel) : Statement (.fcmpeq g d a b) := rr rfl (by decide) (Nat.lt_of_lt_of_le d.isLt (by decide)) (sel_lt a) (sel_lt b) (by decide)

theorem fcmplt (g : Guard) (d : Fin 8) (a b : Sel) : Statement (.fcmplt g d a b) := rr rfl (by decide) (Nat.lt_of_lt_of_le d.isLt (by decide)) (sel_lt a) (sel_lt b) (by decide)

theorem fcmple (g : Guard) (d : Fin 8) (a b : Sel) : Statement (.fcmple g d a b) := rr rfl (by decide) (Nat.lt_of_lt_of_le d.isLt (by decide)) (sel_lt a) (sel_lt b) (by decide)

theorem fcmpun (g : Guard) (d : Fin 8) (a b : Sel) : Statement (.fcmpun g d a b) := rr rfl (by decide) (Nat.lt_of_lt_of_le d.isLt (by decide)) (sel_lt a) (sel_lt b) (by decide)

theorem fcvtI64F32 (g : Guard) (d : Fin 32) (a c : Sel) : Statement (.fcvtI64F32 g d a c) := rr rfl (by decide) (Nat.lt_of_lt_of_le d.isLt (by decide)) (sel_lt a) (sel_lt c) (by decide)

theorem fcvtF32I64 (g : Guard) (d : Fin 32) (a c : Sel) : Statement (.fcvtF32I64 g d a c) := rr rfl (by decide) (Nat.lt_of_lt_of_le d.isLt (by decide)) (sel_lt a) (sel_lt c) (by decide)

theorem fcvtF16F32 (g : Guard) (d : Fin 32) (a c : Sel) : Statement (.fcvtF16F32 g d a c) := rr rfl (by decide) (Nat.lt_of_lt_of_le d.isLt (by decide)) (sel_lt a) (sel_lt c) (by decide)

theorem fcvtBf16F32 (g : Guard) (d : Fin 32) (a c : Sel) : Statement (.fcvtBf16F32 g d a c) := rr rfl (by decide) (Nat.lt_of_lt_of_le d.isLt (by decide)) (sel_lt a) (sel_lt c) (by decide)

theorem fcvtF32F16 (g : Guard) (d : Fin 32) (a c : Sel) : Statement (.fcvtF32F16 g d a c) := rr rfl (by decide) (Nat.lt_of_lt_of_le d.isLt (by decide)) (sel_lt a) (sel_lt c) (by decide)

theorem fcvtF32Bf16 (g : Guard) (d : Fin 32) (a c : Sel) : Statement (.fcvtF32Bf16 g d a c) := rr rfl (by decide) (Nat.lt_of_lt_of_le d.isLt (by decide)) (sel_lt a) (sel_lt c) (by decide)

theorem fmovi (d : Fin 32) (imm : BitVec 20) : Statement (.fmovi d imm) := fi rfl (by decide)

theorem faddi (d : Fin 32) (imm : BitVec 20) : Statement (.faddi d imm) := fi rfl (by decide)

theorem fmuli (d : Fin 32) (imm : BitVec 20) : Statement (.fmuli d imm) := fi rfl (by decide)

theorem br (g : Guard) (off : BitVec 22) : Statement (.br g off) := brw rfl (by decide)

theorem call (g : Guard) (off : BitVec 22) : Statement (.call g off) := brw rfl (by decide)

theorem jr (g : Guard) (a : Sel) : Statement (.jr g a) := rr rfl (by decide) (by decide) (sel_lt a) (by decide) (by decide)

theorem jalr (g : Guard) (d : Fin 32) (a : Sel) : Statement (.jalr g d a) := rr rfl (by decide) (Nat.lt_of_lt_of_le d.isLt (by decide)) (sel_lt a) (by decide) (by decide)

theorem lcset (g : Guard) (a : Sel) (e : Fin 4) : Statement (.lcset g a e) := ri rfl (by decide) (by decide) (sel_lt a) (Nat.lt_of_lt_of_le e.isLt (by decide))

theorem loop (g : Guard) (off : BitVec 22) : Statement (.loop g off) := brw rfl (by decide)

theorem nopw (g : Guard) (a : Sel) (imm : BitVec 11) : Statement (.nopw g a imm) := ri rfl (by decide) (by decide) (sel_lt a) (Nat.lt_of_lt_of_le imm.isLt (by decide))

theorem waitt (g : Guard) (a b : Sel) : Statement (.waitt g a b) := rr rfl (by decide) (by decide) (sel_lt a) (sel_lt b) (by decide)

theorem rdtime (g : Guard) (d : Fin 32) : Statement (.rdtime g d) := rr rfl (by decide) (Nat.lt_of_lt_of_le d.isLt (by decide)) (by decide) (by decide) (by decide)

theorem rdtimeFrac (g : Guard) (d : Fin 32) : Statement (.rdtimeFrac g d) := rr rfl (by decide) (Nat.lt_of_lt_of_le d.isLt (by decide)) (by decide) (by decide) (by decide)

theorem rdcad (g : Guard) (d : Fin 32) : Statement (.rdcad g d) := rr rfl (by decide) (Nat.lt_of_lt_of_le d.isLt (by decide)) (by decide) (by decide) (by decide)

theorem rdpcyc (g : Guard) (d : Fin 32) : Statement (.rdpcyc g d) := rr rfl (by decide) (Nat.lt_of_lt_of_le d.isLt (by decide)) (by decide) (by decide) (by decide)

theorem rdcore (g : Guard) (d : Fin 32) : Statement (.rdcore g d) := rr rfl (by decide) (Nat.lt_of_lt_of_le d.isLt (by decide)) (by decide) (by decide) (by decide)

theorem flog (g : Guard) (d : Fin 32) : Statement (.flog g d) := rr rfl (by decide) (Nat.lt_of_lt_of_le d.isLt (by decide)) (by decide) (by decide) (by decide)

theorem setcb (g : Guard) (a : Sel) : Statement (.setcb g a) := rr rfl (by decide) (by decide) (sel_lt a) (by decide) (by decide)

theorem cbwr (g : Guard) (a b : Sel) : Statement (.cbwr g a b) := rr rfl (by decide) (by decide) (sel_lt a) (sel_lt b) (by decide)

theorem trap (g : Guard) (imm : BitVec 11) : Statement (.trap g imm) := ri rfl (by decide) (by decide) (by decide) (Nat.lt_of_lt_of_le imm.isLt (by decide))

theorem rfd (g : Guard) : Statement (.rfd g) := rr rfl (by decide) (by decide) (by decide) (by decide) (by decide)

theorem rdtrap (g : Guard) (d : Fin 32) (n : Fin 3) : Statement (.rdtrap g d n) := rr rfl (by decide) (Nat.lt_of_lt_of_le d.isLt (by decide)) (by decide) (by decide) (by have := n.isLt; omega)

theorem settv (g : Guard) (a : Sel) : Statement (.settv g a) := rr rfl (by decide) (by decide) (sel_lt a) (by decide) (by decide)

theorem xfence (g : Guard) (p q : PathClass) : Statement (.xfence g p q) := rr rfl (by decide) (by decide) (by decide) (by decide) (by have : p.code < 4 := (by cases p <;> decide); have : q.code < 4 := (by cases q <;> decide); omega)

theorem vadd (g : Guard) (d : Fin 32) (a b : Sel) (k : Fin 8) (t : IType) : Statement (.vadd g d a b k t) := rr rfl (by decide) (Nat.lt_of_lt_of_le d.isLt (by decide)) (sel_lt a) (sel_lt b) (by have := k.isLt; have : t.code < 4 := (by cases t <;> decide); omega)

theorem vsub (g : Guard) (d : Fin 32) (a b : Sel) (k : Fin 8) (t : IType) : Statement (.vsub g d a b k t) := rr rfl (by decide) (Nat.lt_of_lt_of_le d.isLt (by decide)) (sel_lt a) (sel_lt b) (by have := k.isLt; have : t.code < 4 := (by cases t <;> decide); omega)

theorem vmul (g : Guard) (d : Fin 32) (a b : Sel) (k : Fin 8) (t : IType) : Statement (.vmul g d a b k t) := rr rfl (by decide) (Nat.lt_of_lt_of_le d.isLt (by decide)) (sel_lt a) (sel_lt b) (by have := k.isLt; have : t.code < 4 := (by cases t <;> decide); omega)

theorem vmin (g : Guard) (d : Fin 32) (a b : Sel) (k : Fin 8) (t : IType) : Statement (.vmin g d a b k t) := rr rfl (by decide) (Nat.lt_of_lt_of_le d.isLt (by decide)) (sel_lt a) (sel_lt b) (by have := k.isLt; have : t.code < 4 := (by cases t <;> decide); omega)

theorem vmax (g : Guard) (d : Fin 32) (a b : Sel) (k : Fin 8) (t : IType) : Statement (.vmax g d a b k t) := rr rfl (by decide) (Nat.lt_of_lt_of_le d.isLt (by decide)) (sel_lt a) (sel_lt b) (by have := k.isLt; have : t.code < 4 := (by cases t <;> decide); omega)

theorem vminl (g : Guard) (d : Fin 32) (a b : Sel) (k : Fin 8) (t : IType) : Statement (.vminl g d a b k t) := rr rfl (by decide) (Nat.lt_of_lt_of_le d.isLt (by decide)) (sel_lt a) (sel_lt b) (by have := k.isLt; have : t.code < 4 := (by cases t <;> decide); omega)

theorem vmaxl (g : Guard) (d : Fin 32) (a b : Sel) (k : Fin 8) (t : IType) : Statement (.vmaxl g d a b k t) := rr rfl (by decide) (Nat.lt_of_lt_of_le d.isLt (by decide)) (sel_lt a) (sel_lt b) (by have := k.isLt; have : t.code < 4 := (by cases t <;> decide); omega)

theorem vand (g : Guard) (d : Fin 32) (a b : Sel) (k : Fin 8) (t : IType) : Statement (.vand g d a b k t) := rr rfl (by decide) (Nat.lt_of_lt_of_le d.isLt (by decide)) (sel_lt a) (sel_lt b) (by have := k.isLt; have : t.code < 4 := (by cases t <;> decide); omega)

theorem vor (g : Guard) (d : Fin 32) (a b : Sel) (k : Fin 8) (t : IType) : Statement (.vor g d a b k t) := rr rfl (by decide) (Nat.lt_of_lt_of_le d.isLt (by decide)) (sel_lt a) (sel_lt b) (by have := k.isLt; have : t.code < 4 := (by cases t <;> decide); omega)

theorem vxor (g : Guard) (d : Fin 32) (a b : Sel) (k : Fin 8) (t : IType) : Statement (.vxor g d a b k t) := rr rfl (by decide) (Nat.lt_of_lt_of_le d.isLt (by decide)) (sel_lt a) (sel_lt b) (by have := k.isLt; have : t.code < 4 := (by cases t <;> decide); omega)

theorem vshl (g : Guard) (d : Fin 32) (a b : Sel) (k : Fin 8) (t : IType) : Statement (.vshl g d a b k t) := rr rfl (by decide) (Nat.lt_of_lt_of_le d.isLt (by decide)) (sel_lt a) (sel_lt b) (by have := k.isLt; have : t.code < 4 := (by cases t <;> decide); omega)

theorem vshr (g : Guard) (d : Fin 32) (a b : Sel) (k : Fin 8) (t : IType) : Statement (.vshr g d a b k t) := rr rfl (by decide) (Nat.lt_of_lt_of_le d.isLt (by decide)) (sel_lt a) (sel_lt b) (by have := k.isLt; have : t.code < 4 := (by cases t <;> decide); omega)

theorem vsra (g : Guard) (d : Fin 32) (a b : Sel) (k : Fin 8) (t : IType) : Statement (.vsra g d a b k t) := rr rfl (by decide) (Nat.lt_of_lt_of_le d.isLt (by decide)) (sel_lt a) (sel_lt b) (by have := k.isLt; have : t.code < 4 := (by cases t <;> decide); omega)

theorem vadds (g : Guard) (d : Fin 32) (a b : Sel) (k : Fin 8) (t : IType) : Statement (.vadds g d a b k t) := rr rfl (by decide) (Nat.lt_of_lt_of_le d.isLt (by decide)) (sel_lt a) (sel_lt b) (by have := k.isLt; have : t.code < 4 := (by cases t <;> decide); omega)

theorem vsubs (g : Guard) (d : Fin 32) (a b : Sel) (k : Fin 8) (t : IType) : Statement (.vsubs g d a b k t) := rr rfl (by decide) (Nat.lt_of_lt_of_le d.isLt (by decide)) (sel_lt a) (sel_lt b) (by have := k.isLt; have : t.code < 4 := (by cases t <;> decide); omega)

theorem vfadd (g : Guard) (d : Fin 32) (a b : Sel) (k : Fin 8) (t : FType) : Statement (.vfadd g d a b k t) := rr rfl (by decide) (Nat.lt_of_lt_of_le d.isLt (by decide)) (sel_lt a) (sel_lt b) (by have := k.isLt; have : t.code < 4 := (by cases t <;> decide); omega)

theorem vfsub (g : Guard) (d : Fin 32) (a b : Sel) (k : Fin 8) (t : FType) : Statement (.vfsub g d a b k t) := rr rfl (by decide) (Nat.lt_of_lt_of_le d.isLt (by decide)) (sel_lt a) (sel_lt b) (by have := k.isLt; have : t.code < 4 := (by cases t <;> decide); omega)

theorem vfmul (g : Guard) (d : Fin 32) (a b : Sel) (k : Fin 8) (t : FType) : Statement (.vfmul g d a b k t) := rr rfl (by decide) (Nat.lt_of_lt_of_le d.isLt (by decide)) (sel_lt a) (sel_lt b) (by have := k.isLt; have : t.code < 4 := (by cases t <;> decide); omega)

theorem vfma (g : Guard) (d : Fin 32) (a b : Sel) (k : Fin 8) (t : FType) : Statement (.vfma g d a b k t) := rr rfl (by decide) (Nat.lt_of_lt_of_le d.isLt (by decide)) (sel_lt a) (sel_lt b) (by have := k.isLt; have : t.code < 4 := (by cases t <;> decide); omega)

theorem vfmad (g : Guard) (d : Fin 32) (a b : Sel) (k : Fin 8) (t : FType) : Statement (.vfmad g d a b k t) := rr rfl (by decide) (Nat.lt_of_lt_of_le d.isLt (by decide)) (sel_lt a) (sel_lt b) (by have := k.isLt; have : t.code < 4 := (by cases t <;> decide); omega)

theorem vfmin (g : Guard) (d : Fin 32) (a b : Sel) (k : Fin 8) (t : FType) : Statement (.vfmin g d a b k t) := rr rfl (by decide) (Nat.lt_of_lt_of_le d.isLt (by decide)) (sel_lt a) (sel_lt b) (by have := k.isLt; have : t.code < 4 := (by cases t <;> decide); omega)

theorem vfmax (g : Guard) (d : Fin 32) (a b : Sel) (k : Fin 8) (t : FType) : Statement (.vfmax g d a b k t) := rr rfl (by decide) (Nat.lt_of_lt_of_le d.isLt (by decide)) (sel_lt a) (sel_lt b) (by have := k.isLt; have : t.code < 4 := (by cases t <;> decide); omega)

theorem vfabs (g : Guard) (d : Fin 32) (a : Sel) (k : Fin 8) (t : FType) : Statement (.vfabs g d a k t) := rr rfl (by decide) (Nat.lt_of_lt_of_le d.isLt (by decide)) (sel_lt a) (by decide) (by have := k.isLt; have : t.code < 4 := (by cases t <;> decide); omega)

theorem vfneg (g : Guard) (d : Fin 32) (a : Sel) (k : Fin 8) (t : FType) : Statement (.vfneg g d a k t) := rr rfl (by decide) (Nat.lt_of_lt_of_le d.isLt (by decide)) (sel_lt a) (by decide) (by have := k.isLt; have : t.code < 4 := (by cases t <;> decide); omega)

theorem vaddi (g : Guard) (d : Fin 32) (a : Sel) (imm : BitVec 11) : Statement (.vaddi g d a imm) := ri rfl (by decide) (Nat.lt_of_lt_of_le d.isLt (by decide)) (sel_lt a) (Nat.lt_of_lt_of_le imm.isLt (by decide))

theorem vshli (g : Guard) (d : Fin 32) (a : Sel) (n : Fin 32) : Statement (.vshli g d a n) := ri rfl (by decide) (Nat.lt_of_lt_of_le d.isLt (by decide)) (sel_lt a) (Nat.lt_of_lt_of_le n.isLt (by decide))

theorem vshri (g : Guard) (d : Fin 32) (a : Sel) (n : Fin 32) : Statement (.vshri g d a n) := ri rfl (by decide) (Nat.lt_of_lt_of_le d.isLt (by decide)) (sel_lt a) (Nat.lt_of_lt_of_le n.isLt (by decide))

theorem vsrai (g : Guard) (d : Fin 32) (a : Sel) (n : Fin 32) : Statement (.vsrai g d a n) := ri rfl (by decide) (Nat.lt_of_lt_of_le d.isLt (by decide)) (sel_lt a) (Nat.lt_of_lt_of_le n.isLt (by decide))

theorem vandi (g : Guard) (d : Fin 32) (a : Sel) (imm : BitVec 11) : Statement (.vandi g d a imm) := ri rfl (by decide) (Nat.lt_of_lt_of_le d.isLt (by decide)) (sel_lt a) (Nat.lt_of_lt_of_le imm.isLt (by decide))

theorem vfmovi (d : Fin 32) (imm : BitVec 20) : Statement (.vfmovi d imm) := fi rfl (by decide)

theorem vfaddi (d : Fin 32) (imm : BitVec 20) : Statement (.vfaddi d imm) := fi rfl (by decide)

theorem vfmuli (d : Fin 32) (imm : BitVec 20) : Statement (.vfmuli d imm) := fi rfl (by decide)

theorem vmovi (d : Fin 32) (imm : BitVec 20) : Statement (.vmovi d imm) := fi rfl (by decide)

theorem vcmpeq (g : Guard) (d : Fin 8) (a b : Sel) (k : Fin 8) (t : IType) : Statement (.vcmpeq g d a b k t) := rr rfl (by decide) (Nat.lt_of_lt_of_le d.isLt (by decide)) (sel_lt a) (sel_lt b) (by have := k.isLt; have : t.code < 4 := (by cases t <;> decide); omega)

theorem vcmplt (g : Guard) (d : Fin 8) (a b : Sel) (k : Fin 8) (t : IType) : Statement (.vcmplt g d a b k t) := rr rfl (by decide) (Nat.lt_of_lt_of_le d.isLt (by decide)) (sel_lt a) (sel_lt b) (by have := k.isLt; have : t.code < 4 := (by cases t <;> decide); omega)

theorem vcmple (g : Guard) (d : Fin 8) (a b : Sel) (k : Fin 8) (t : IType) : Statement (.vcmple g d a b k t) := rr rfl (by decide) (Nat.lt_of_lt_of_le d.isLt (by decide)) (sel_lt a) (sel_lt b) (by have := k.isLt; have : t.code < 4 := (by cases t <;> decide); omega)

theorem vfcmpeq (g : Guard) (d : Fin 8) (a b : Sel) (k : Fin 8) (t : FType) : Statement (.vfcmpeq g d a b k t) := rr rfl (by decide) (Nat.lt_of_lt_of_le d.isLt (by decide)) (sel_lt a) (sel_lt b) (by have := k.isLt; have : t.code < 4 := (by cases t <;> decide); omega)

theorem vfcmplt (g : Guard) (d : Fin 8) (a b : Sel) (k : Fin 8) (t : FType) : Statement (.vfcmplt g d a b k t) := rr rfl (by decide) (Nat.lt_of_lt_of_le d.isLt (by decide)) (sel_lt a) (sel_lt b) (by have := k.isLt; have : t.code < 4 := (by cases t <;> decide); omega)

theorem vfcmple (g : Guard) (d : Fin 8) (a b : Sel) (k : Fin 8) (t : FType) : Statement (.vfcmple g d a b k t) := rr rfl (by decide) (Nat.lt_of_lt_of_le d.isLt (by decide)) (sel_lt a) (sel_lt b) (by have := k.isLt; have : t.code < 4 := (by cases t <;> decide); omega)

theorem vfcmpun (g : Guard) (d : Fin 8) (a b : Sel) (k : Fin 8) (t : FType) : Statement (.vfcmpun g d a b k t) := rr rfl (by decide) (Nat.lt_of_lt_of_le d.isLt (by decide)) (sel_lt a) (sel_lt b) (by have := k.isLt; have : t.code < 4 := (by cases t <;> decide); omega)

theorem vsel (g : Guard) (d : Fin 32) (a b : Sel) (k : Fin 8) (w : Width) : Statement (.vsel g d a b k w) := rr rfl (by decide) (Nat.lt_of_lt_of_le d.isLt (by decide)) (sel_lt a) (sel_lt b) (by have := k.isLt; have : w.code < 4 := (by cases w <;> decide); omega)

theorem vmov (g : Guard) (d : Fin 32) (a : Sel) (k : Fin 8) (w : Width) : Statement (.vmov g d a k w) := rr rfl (by decide) (Nat.lt_of_lt_of_le d.isLt (by decide)) (sel_lt a) (by decide) (by have := k.isLt; have : w.code < 4 := (by cases w <;> decide); omega)

theorem vcvtf (g : Guard) (d : Fin 32) (a c : Sel) (k : Fin 8) : Statement (.vcvtf g d a c k) := rr rfl (by decide) (Nat.lt_of_lt_of_le d.isLt (by decide)) (sel_lt a) (sel_lt c) (by have := k.isLt; omega)

theorem vcvti (g : Guard) (d : Fin 32) (a c : Sel) (k : Fin 8) : Statement (.vcvti g d a c k) := rr rfl (by decide) (Nat.lt_of_lt_of_le d.isLt (by decide)) (sel_lt a) (sel_lt c) (by have := k.isLt; omega)

theorem vcvtif (g : Guard) (d : Fin 32) (a c : Sel) (k : Fin 8) : Statement (.vcvtif g d a c k) := rr rfl (by decide) (Nat.lt_of_lt_of_le d.isLt (by decide)) (sel_lt a) (sel_lt c) (by have := k.isLt; omega)

theorem vwiden (g : Guard) (d : Fin 32) (a c : Sel) (k : Fin 8) : Statement (.vwiden g d a c k) := rr rfl (by decide) (Nat.lt_of_lt_of_le d.isLt (by decide)) (sel_lt a) (sel_lt c) (by have := k.isLt; omega)

theorem vnarrow (g : Guard) (d : Fin 32) (a c : Sel) (k : Fin 8) : Statement (.vnarrow g d a c k) := rr rfl (by decide) (Nat.lt_of_lt_of_le d.isLt (by decide)) (sel_lt a) (sel_lt c) (by have := k.isLt; omega)

theorem kand (g : Guard) (d : Fin 8) (a b : KSel) : Statement (.kand g d a b) := rr rfl (by decide) (Nat.lt_of_lt_of_le d.isLt (by decide)) (ksel_lt a) (ksel_lt b) (by decide)

theorem kor (g : Guard) (d : Fin 8) (a b : KSel) : Statement (.kor g d a b) := rr rfl (by decide) (Nat.lt_of_lt_of_le d.isLt (by decide)) (ksel_lt a) (ksel_lt b) (by decide)

theorem kxor (g : Guard) (d : Fin 8) (a b : KSel) : Statement (.kxor g d a b) := rr rfl (by decide) (Nat.lt_of_lt_of_le d.isLt (by decide)) (ksel_lt a) (ksel_lt b) (by decide)

theorem kandn (g : Guard) (d : Fin 8) (a b : KSel) : Statement (.kandn g d a b) := rr rfl (by decide) (Nat.lt_of_lt_of_le d.isLt (by decide)) (ksel_lt a) (ksel_lt b) (by decide)

theorem ksetFirst (g : Guard) (d : Fin 8) (a : Sel) (w : Width) : Statement (.ksetFirst g d a w) := rr rfl (by decide) (Nat.lt_of_lt_of_le d.isLt (by decide)) (sel_lt a) (by decide) (by have : w.code < 4 := (by cases w <;> decide); omega)

theorem ksetNz (g : Guard) (d : Fin 8) (a : Sel) (w : Width) : Statement (.ksetNz g d a w) := rr rfl (by decide) (Nat.lt_of_lt_of_le d.isLt (by decide)) (sel_lt a) (by decide) (by have : w.code < 4 := (by cases w <;> decide); omega)

theorem ksetNeg (g : Guard) (d : Fin 8) (a : Sel) (w : Width) : Statement (.ksetNeg g d a w) := rr rfl (by decide) (Nat.lt_of_lt_of_le d.isLt (by decide)) (sel_lt a) (by decide) (by have : w.code < 4 := (by cases w <;> decide); omega)

theorem vperm (g : Guard) (d : Fin 32) (a b : Sel) (k : Fin 8) (w : Width) : Statement (.vperm g d a b k w) := rr rfl (by decide) (Nat.lt_of_lt_of_le d.isLt (by decide)) (sel_lt a) (sel_lt b) (by have := k.isLt; have : w.code < 4 := (by cases w <;> decide); omega)

theorem vshuf (g : Guard) (d : Fin 32) (a c : Sel) (k : Fin 8) (w : Width) : Statement (.vshuf g d a c k w) := rr rfl (by decide) (Nat.lt_of_lt_of_le d.isLt (by decide)) (sel_lt a) (sel_lt c) (by have := k.isLt; have : w.code < 4 := (by cases w <;> decide); omega)

theorem vrot (g : Guard) (d : Fin 32) (a c : Sel) (k : Fin 8) (w : Width) : Statement (.vrot g d a c k w) := rr rfl (by decide) (Nat.lt_of_lt_of_le d.isLt (by decide)) (sel_lt a) (sel_lt c) (by have := k.isLt; have : w.code < 4 := (by cases w <;> decide); omega)

theorem vbcst (g : Guard) (d : Fin 32) (a c : Sel) (k : Fin 8) (w : Width) : Statement (.vbcst g d a c k w) := rr rfl (by decide) (Nat.lt_of_lt_of_le d.isLt (by decide)) (sel_lt a) (sel_lt c) (by have := k.isLt; have : w.code < 4 := (by cases w <;> decide); omega)

theorem vscan (g : Guard) (d : Fin 32) (a c : Sel) (k : Fin 8) (v : Fin 3) : Statement (.vscan g d a c k v) := rr rfl (by decide) (Nat.lt_of_lt_of_le d.isLt (by decide)) (sel_lt a) (sel_lt c) (by have := k.isLt; have := v.isLt; omega)

theorem vredf (g : Guard) (d : Fin 32) (a c : Sel) (k : Fin 8) (t : FType) : Statement (.vredf g d a c k t) := rr rfl (by decide) (Nat.lt_of_lt_of_le d.isLt (by decide)) (sel_lt a) (sel_lt c) (by have := k.isLt; have : t.code < 4 := (by cases t <;> decide); omega)

theorem vredi (g : Guard) (d : Fin 32) (a c : Sel) (k : Fin 8) (t : IType) : Statement (.vredi g d a c k t) := rr rfl (by decide) (Nat.lt_of_lt_of_le d.isLt (by decide)) (sel_lt a) (sel_lt c) (by have := k.isLt; have : t.code < 4 := (by cases t <;> decide); omega)

theorem exp2 (g : Guard) (d : Fin 32) (a : Sel) (k : Fin 8) : Statement (.exp2 g d a k) := rr rfl (by decide) (Nat.lt_of_lt_of_le d.isLt (by decide)) (sel_lt a) (by decide) (by have := k.isLt; omega)

theorem log2 (g : Guard) (d : Fin 32) (a : Sel) (k : Fin 8) : Statement (.log2 g d a k) := rr rfl (by decide) (Nat.lt_of_lt_of_le d.isLt (by decide)) (sel_lt a) (by decide) (by have := k.isLt; omega)

theorem sqrt (g : Guard) (d : Fin 32) (a : Sel) (k : Fin 8) : Statement (.sqrt g d a k) := rr rfl (by decide) (Nat.lt_of_lt_of_le d.isLt (by decide)) (sel_lt a) (by decide) (by have := k.isLt; omega)

theorem sin (g : Guard) (d : Fin 32) (a : Sel) (k : Fin 8) : Statement (.sin g d a k) := rr rfl (by decide) (Nat.lt_of_lt_of_le d.isLt (by decide)) (sel_lt a) (by decide) (by have := k.isLt; omega)

theorem cos (g : Guard) (d : Fin 32) (a : Sel) (k : Fin 8) : Statement (.cos g d a k) := rr rfl (by decide) (Nat.lt_of_lt_of_le d.isLt (by decide)) (sel_lt a) (by decide) (by have := k.isLt; omega)

theorem tanh (g : Guard) (d : Fin 32) (a : Sel) (k : Fin 8) : Statement (.tanh g d a k) := rr rfl (by decide) (Nat.lt_of_lt_of_le d.isLt (by decide)) (sel_lt a) (by decide) (by have := k.isLt; omega)

theorem sigm (g : Guard) (d : Fin 32) (a : Sel) (k : Fin 8) : Statement (.sigm g d a k) := rr rfl (by decide) (Nat.lt_of_lt_of_le d.isLt (by decide)) (sel_lt a) (by decide) (by have := k.isLt; omega)

theorem rcp (g : Guard) (d : Fin 32) (a : Sel) (k : Fin 8) : Statement (.rcp g d a k) := rr rfl (by decide) (Nat.lt_of_lt_of_le d.isLt (by decide)) (sel_lt a) (by decide) (by have := k.isLt; omega)

theorem rsq (g : Guard) (d : Fin 32) (a : Sel) (k : Fin 8) : Statement (.rsq g d a k) := rr rfl (by decide) (Nat.lt_of_lt_of_le d.isLt (by decide)) (sel_lt a) (by decide) (by have := k.isLt; omega)

theorem rcpnr (g : Guard) (d : Fin 32) (a b : Sel) (k : Fin 8) : Statement (.rcpnr g d a b k) := rr rfl (by decide) (Nat.lt_of_lt_of_le d.isLt (by decide)) (sel_lt a) (sel_lt b) (by have := k.isLt; omega)

theorem rsqnr (g : Guard) (d : Fin 32) (a b : Sel) (k : Fin 8) : Statement (.rsqnr g d a b k) := rr rfl (by decide) (Nat.lt_of_lt_of_le d.isLt (by decide)) (sel_lt a) (sel_lt b) (by have := k.isLt; omega)

theorem vrand (g : Guard) (d : Fin 32) (k : Fin 8) : Statement (.vrand g d k) := rr rfl (by decide) (Nat.lt_of_lt_of_le d.isLt (by decide)) (by decide) (by decide) (by have := k.isLt; omega)

theorem vrandSeed (g : Guard) (a : Fin 32) : Statement (.vrandSeed g a) := rr rfl (by decide) (by decide) (Nat.lt_of_lt_of_le a.isLt (by decide)) (by decide) (by decide)

theorem ld (g : Guard) (d : Fin 32) (a b : Sel) (t : LdType) : Statement (.ld g d a b t) := rr rfl (by decide) (Nat.lt_of_lt_of_le d.isLt (by decide)) (sel_lt a) (sel_lt b) (by have : t.code < 8 := (by cases t <;> decide); omega)

theorem st (g : Guard) (d : Fin 32) (a b : Sel) (t : StType) : Statement (.st g d a b t) := rr rfl (by decide) (Nat.lt_of_lt_of_le d.isLt (by decide)) (sel_lt a) (sel_lt b) (by have : t.code < 8 := (by cases t <;> decide); omega)

theorem ldi (g : Guard) (d : Fin 32) (a : Sel) (imm : BitVec 11) : Statement (.ldi g d a imm) := ri rfl (by decide) (Nat.lt_of_lt_of_le d.isLt (by decide)) (sel_lt a) (Nat.lt_of_lt_of_le imm.isLt (by decide))

theorem sti (g : Guard) (d : Fin 32) (a : Sel) (imm : BitVec 11) : Statement (.sti g d a imm) := ri rfl (by decide) (Nat.lt_of_lt_of_le d.isLt (by decide)) (sel_lt a) (Nat.lt_of_lt_of_le imm.isLt (by decide))

theorem vld (g : Guard) (d : Fin 32) (a b : Sel) (k : Fin 8) (w : Width) : Statement (.vld g d a b k w) := rr rfl (by decide) (Nat.lt_of_lt_of_le d.isLt (by decide)) (sel_lt a) (sel_lt b) (by have := k.isLt; have : w.code < 4 := (by cases w <;> decide); omega)

theorem vst (g : Guard) (d : Fin 32) (a b : Sel) (k : Fin 8) (w : Width) : Statement (.vst g d a b k w) := rr rfl (by decide) (Nat.lt_of_lt_of_le d.isLt (by decide)) (sel_lt a) (sel_lt b) (by have := k.isLt; have : w.code < 4 := (by cases w <;> decide); omega)

theorem vldi (g : Guard) (d : Fin 32) (a : Sel) (imm : BitVec 11) : Statement (.vldi g d a imm) := ri rfl (by decide) (Nat.lt_of_lt_of_le d.isLt (by decide)) (sel_lt a) (Nat.lt_of_lt_of_le imm.isLt (by decide))

theorem vsti (g : Guard) (d : Fin 32) (a : Sel) (imm : BitVec 11) : Statement (.vsti g d a imm) := ri rfl (by decide) (Nat.lt_of_lt_of_le d.isLt (by decide)) (sel_lt a) (Nat.lt_of_lt_of_le imm.isLt (by decide))

theorem kld (g : Guard) (d : Fin 8) (a b : Sel) (w : Width) : Statement (.kld g d a b w) := rr rfl (by decide) (Nat.lt_of_lt_of_le d.isLt (by decide)) (sel_lt a) (sel_lt b) (by have : w.code < 4 := (by cases w <;> decide); omega)

theorem kst (g : Guard) (d : Fin 8) (a b : Sel) (w : Width) : Statement (.kst g d a b w) := rr rfl (by decide) (Nat.lt_of_lt_of_le d.isLt (by decide)) (sel_lt a) (sel_lt b) (by have : w.code < 4 := (by cases w <;> decide); omega)

theorem vlds (g : Guard) (d : Fin 32) (a b : Sel) (k : Fin 8) (p : Fin 4) : Statement (.vlds g d a b k p) := rr rfl (by decide) (Nat.lt_of_lt_of_le d.isLt (by decide)) (sel_lt a) (sel_lt b) (by have := k.isLt; have := p.isLt; omega)

theorem vsts (g : Guard) (d : Fin 32) (a b : Sel) (k : Fin 8) (p : Fin 4) : Statement (.vsts g d a b k p) := rr rfl (by decide) (Nat.lt_of_lt_of_le d.isLt (by decide)) (sel_lt a) (sel_lt b) (by have := k.isLt; have := p.isLt; omega)

theorem vldx (g : Guard) (d : Fin 32) (a : Sel) (b : Fin 32) (k : Fin 8) (p : Fin 4) : Statement (.vldx g d a b k p) := rr rfl (by decide) (Nat.lt_of_lt_of_le d.isLt (by decide)) (sel_lt a) (Nat.lt_of_lt_of_le b.isLt (by decide)) (by have := k.isLt; have := p.isLt; omega)

theorem vstx (g : Guard) (d : Fin 32) (a : Sel) (b : Fin 32) (k : Fin 8) (p : Fin 4) : Statement (.vstx g d a b k p) := rr rfl (by decide) (Nat.lt_of_lt_of_le d.isLt (by decide)) (sel_lt a) (Nat.lt_of_lt_of_le b.isLt (by decide)) (by have := k.isLt; have := p.isLt; omega)

theorem vldb (g : Guard) (d : Fin 32) (a b : Sel) (k : Fin 8) (int : Bool) : Statement (.vldb g d a b k int) := rr rfl (by decide) (Nat.lt_of_lt_of_le d.isLt (by decide)) (sel_lt a) (sel_lt b) (by have := k.isLt; have := Bool.toNat_lt int; omega)

theorem mset (g : Guard) (o : BitVec 12) (a : Fin 32) (k : Fin 8) : Statement (.mset g o a k) := engine rfl (by decide) (Nat.lt_of_lt_of_le o.isLt (by decide)) (Nat.lt_of_lt_of_le a.isLt (by decide)) (Nat.lt_of_lt_of_le k.isLt (by decide))

theorem mcall (g : Guard) (o : BitVec 12) (a b : Fin 32) : Statement (.mcall g o a b) := engine rfl (by decide) (Nat.lt_of_lt_of_le o.isLt (by decide)) (Nat.lt_of_lt_of_le a.isLt (by decide)) (Nat.lt_of_lt_of_le b.isLt (by decide))

theorem mload (g : Guard) (o : BitVec 12) (a b : Fin 32) : Statement (.mload g o a b) := engine rfl (by decide) (Nat.lt_of_lt_of_le o.isLt (by decide)) (Nat.lt_of_lt_of_le a.isLt (by decide)) (Nat.lt_of_lt_of_le b.isLt (by decide))

theorem cpyaSpm (g : Guard) (o : BitVec 12) (a b : Fin 32) : Statement (.cpyaSpm g o a b) := engine rfl (by decide) (Nat.lt_of_lt_of_le o.isLt (by decide)) (Nat.lt_of_lt_of_le a.isLt (by decide)) (Nat.lt_of_lt_of_le b.isLt (by decide))

theorem cpyaAcc (g : Guard) (o : BitVec 12) (a b : Fin 32) : Statement (.cpyaAcc g o a b) := engine rfl (by decide) (Nat.lt_of_lt_of_le o.isLt (by decide)) (Nat.lt_of_lt_of_le a.isLt (by decide)) (Nat.lt_of_lt_of_le b.isLt (by decide))

theorem tlgo (g : Guard) (o : BitVec 12) (a b : Fin 32) : Statement (.tlgo g o a b) := engine rfl (by decide) (Nat.lt_of_lt_of_le o.isLt (by decide)) (Nat.lt_of_lt_of_le a.isLt (by decide)) (Nat.lt_of_lt_of_le b.isLt (by decide))

theorem get (g : Guard) (o : BitVec 12) (a b : Fin 32) : Statement (.get g o a b) := engine rfl (by decide) (Nat.lt_of_lt_of_le o.isLt (by decide)) (Nat.lt_of_lt_of_le a.isLt (by decide)) (Nat.lt_of_lt_of_le b.isLt (by decide))

theorem put (g : Guard) (o : BitVec 12) (a b : Fin 32) : Statement (.put g o a b) := engine rfl (by decide) (Nat.lt_of_lt_of_le o.isLt (by decide)) (Nat.lt_of_lt_of_le a.isLt (by decide)) (Nat.lt_of_lt_of_le b.isLt (by decide))

theorem putMc (g : Guard) (o : BitVec 12) (a b : Fin 32) : Statement (.putMc g o a b) := engine rfl (by decide) (Nat.lt_of_lt_of_le o.isLt (by decide)) (Nat.lt_of_lt_of_le a.isLt (by decide)) (Nat.lt_of_lt_of_le b.isLt (by decide))

theorem racc (g : Guard) (o : BitVec 12) (a b : Fin 32) : Statement (.racc g o a b) := engine rfl (by decide) (Nat.lt_of_lt_of_le o.isLt (by decide)) (Nat.lt_of_lt_of_le a.isLt (by decide)) (Nat.lt_of_lt_of_le b.isLt (by decide))

theorem wpost (g : Guard) (a : Fin 32) : Statement (.wpost g a) := engine rfl (by decide) (by decide) (Nat.lt_of_lt_of_le a.isLt (by decide)) (by decide)

theorem wstart (g : Guard) (o : BitVec 12) (a b : Fin 32) : Statement (.wstart g o a b) := engine rfl (by decide) (Nat.lt_of_lt_of_le o.isLt (by decide)) (Nat.lt_of_lt_of_le a.isLt (by decide)) (Nat.lt_of_lt_of_le b.isLt (by decide))

theorem wcompl (g : Guard) (o : BitVec 12) (a b : Fin 32) : Statement (.wcompl g o a b) := engine rfl (by decide) (Nat.lt_of_lt_of_le o.isLt (by decide)) (Nat.lt_of_lt_of_le a.isLt (by decide)) (Nat.lt_of_lt_of_le b.isLt (by decide))

theorem wwait (g : Guard) (a : Fin 32) : Statement (.wwait g a) := engine rfl (by decide) (by decide) (Nat.lt_of_lt_of_le a.isLt (by decide)) (by decide)

theorem wlock (g : Guard) (o : BitVec 12) (a b : Fin 32) : Statement (.wlock g o a b) := engine rfl (by decide) (Nat.lt_of_lt_of_le o.isLt (by decide)) (Nat.lt_of_lt_of_le a.isLt (by decide)) (Nat.lt_of_lt_of_le b.isLt (by decide))

theorem wunlock (g : Guard) (o : BitVec 12) (a b : Fin 32) : Statement (.wunlock g o a b) := engine rfl (by decide) (Nat.lt_of_lt_of_le o.isLt (by decide)) (Nat.lt_of_lt_of_le a.isLt (by decide)) (Nat.lt_of_lt_of_le b.isLt (by decide))

theorem hwait (g : Guard) (h : Fin 16) (vis : Bool) : Statement (.hwait g h vis) := engine rfl (by decide) (by decide) (by decide) (by have := h.isLt; have := Bool.toNat_lt vis; omega)

theorem htest (g : Guard) (d : Fin 32) (h : Fin 16) (clr : Bool) : Statement (.htest g d h clr) := engine rfl (by decide) (by decide) (Nat.lt_of_lt_of_le d.isLt (by decide)) (by have := h.isLt; have := Bool.toNat_lt clr; omega)

theorem coll (g : Guard) (o : BitVec 12) (a : Fin 32) (h : Fin 16) : Statement (.coll g o a h) := engine rfl (by decide) (Nat.lt_of_lt_of_le o.isLt (by decide)) (Nat.lt_of_lt_of_le a.isLt (by decide)) (Nat.lt_of_lt_of_le h.isLt (by decide))

theorem launch (g : Guard) (a d : Fin 32) : Statement (.launch g a d) := engine rfl (by decide) (by decide) (Nat.lt_of_lt_of_le a.isLt (by decide)) (Nat.lt_of_lt_of_le d.isLt (by decide))

theorem cadv (g : Guard) (a b : Fin 32) : Statement (.cadv g a b) := engine rfl (by decide) (by decide) (Nat.lt_of_lt_of_le a.isLt (by decide)) (Nat.lt_of_lt_of_le b.isLt (by decide))

theorem cadvEnd (g : Guard) (a b : Fin 32) : Statement (.cadvEnd g a b) := engine rfl (by decide) (by decide) (Nat.lt_of_lt_of_le a.isLt (by decide)) (Nat.lt_of_lt_of_le b.isLt (by decide))

theorem barQuad (g : Guard) : Statement (.barQuad g) := engine rfl (by decide) (by decide) (by decide) (by decide)

theorem barDie (g : Guard) : Statement (.barDie g) := engine rfl (by decide) (by decide) (by decide) (by decide)

theorem mnop (n : BitVec 16) : Statement (.mnop n) := micro (show 0x02 * 2 ^ 58 + n.toNat < 2 ^ 64 from (by have := n.isLt; omega)) rfl

theorem mseta (k : Fin 8) (imm : BitVec 32) : Statement (.mseta k imm) := micro (show 0x03 * 2 ^ 58 + k.val * 2 ^ 55 + imm.toNat < 2 ^ 64 from (by have := k.isLt; have := imm.isLt; omega)) rfl

theorem madda (k : Fin 8) (imm : BitVec 32) : Statement (.madda k imm) := micro (show 0x04 * 2 ^ 58 + k.val * 2 ^ 55 + imm.toNat < 2 ^ 64 from (by have := k.isLt; have := imm.isLt; omega)) rfl

theorem msetc (k : Fin 4) (imm : BitVec 32) : Statement (.msetc k imm) := micro (show 0x05 * 2 ^ 58 + k.val * 2 ^ 56 + imm.toNat < 2 ^ 64 from (by have := k.isLt; have := imm.isLt; omega)) rfl

theorem mloop (k : Fin 4) (target : BitVec 13) : Statement (.mloop k target) := micro (show 0x06 * 2 ^ 58 + k.val * 2 ^ 56 + target.toNat < 2 ^ 64 from (by have := k.isLt; have := target.isLt; omega)) rfl

theorem msync (mask : BitVec 4) : Statement (.msync mask) := micro (show 0x07 * 2 ^ 58 + mask.toNat < 2 ^ 64 from (by have := mask.isLt; omega)) rfl

theorem agath (s i : Fin 8) (wd : Fin 4) (stride : Bool) (a : Fin 8) (aoff : BitVec 11) (nm : BitVec 11) : Statement (.agath s i wd stride a aoff nm) := micro (show 0x08 * 2 ^ 58 + s.val * 2 ^ 55 + i.val * 2 ^ 52 + wd.val * 2 ^ 50 + stride.toNat * 2 ^ 49 + a.val * 2 ^ 46 + aoff.toNat * 2 ^ 35 + nm.toNat < 2 ^ 64 from (by have := s.isLt; have := i.isLt; have := wd.isLt; have := Bool.toNat_lt stride; have := a.isLt; have := aoff.isLt; have := nm.isLt; omega)) rfl

theorem wld (d : Fin 8) (j : BitVec 16) (int : Bool) (h : Bool) : Statement (.wld d j int h) := micro (show 0x09 * 2 ^ 58 + d.val * 2 ^ 55 + j.toNat * 2 ^ 39 + int.toNat * 2 + h.toNat < 2 ^ 64 from (by have := d.isLt; have := j.isLt; have := Bool.toNat_lt int; have := Bool.toNat_lt h; omega)) rfl

theorem wldp (d : Fin 8) (fmt : Fin 16) (h : Bool) : Statement (.wldp d fmt h) := micro (show 0x0A * 2 ^ 58 + d.val * 2 ^ 55 + fmt.val * 4 + h.toNat < 2 ^ 64 from (by have := d.isLt; have := fmt.isLt; have := Bool.toNat_lt h; omega)) rfl

theorem aclr (c : Fin 8) (coff : BitVec 11) (nm : BitVec 11) : Statement (.aclr c coff nm) := micro (show 0x0B * 2 ^ 58 + c.val * 2 ^ 55 + coff.toNat * 2 ^ 44 + nm.toNat < 2 ^ 64 from (by have := c.isLt; have := coff.isLt; have := nm.isLt; omega)) rfl

theorem mma (c : Fin 8) (coff : BitVec 11) (a : Fin 8) (aoff : BitVec 11) (afmt : Fin 16) (x2 h : Bool) (nm : BitVec 11) : Statement (.mma c coff a aoff afmt x2 h nm) := micro (show 0x0C * 2 ^ 58 + c.val * 2 ^ 55 + coff.toNat * 2 ^ 44 + a.val * 2 ^ 41 + aoff.toNat * 2 ^ 30 + afmt.val * 2 ^ 26 + x2.toNat * 2 ^ 25 + h.toNat * 2 ^ 24 + nm.toNat < 2 ^ 64 from (by have := c.isLt; have := coff.isLt; have := a.isLt; have := aoff.isLt; have := afmt.isLt; have := Bool.toNat_lt x2; have := Bool.toNat_lt h; have := nm.isLt; omega)) rfl

theorem act (k : Fin 4) (off : BitVec 15) (dt : BitVec 11) : Statement (.act k off dt) := chainw rfl (by decide) (by have := k.isLt; have := off.isLt; omega)

theorem rd (ba : BitVec 7) (col : BitVec 4) (dt : BitVec 11) : Statement (.rd ba col dt) := chainw rfl (by decide) (by have := ba.isLt; have := col.isLt; omega)

theorem wr (ba : BitVec 7) (col : BitVec 4) (dt : BitVec 11) : Statement (.wr ba col dt) := chainw rfl (by decide) (by have := ba.isLt; have := col.isLt; omega)

theorem pre (ba : BitVec 7) (dt : BitVec 11) : Statement (.pre ba dt) := chainw rfl (by decide) (by have := ba.isLt; omega)

theorem prea (pc : Fin 2) (dt : BitVec 11) : Statement (.prea pc dt) := chainw rfl (by decide) (by have := pc.isLt; omega)

theorem refab (pc : Fin 2) (dt : BitVec 11) : Statement (.refab pc dt) := chainw rfl (by decide) (by have := pc.isLt; omega)

theorem refpb (ba : BitVec 7) (dt : BitVec 11) : Statement (.refpb ba dt) := chainw rfl (by decide) (by have := ba.isLt; omega)

theorem maint (pc : Fin 2) (dt : BitVec 11) : Statement (.maint pc dt) := chainw rfl (by decide) (by have := pc.isLt; omega)

theorem chainWaitt (next : Bool) (n : BitVec 16) (dt : BitVec 11) : Statement (.chainWaitt next n dt) := chainw rfl (by decide) (by have := Bool.toNat_lt next; have := n.isLt; omega)

theorem ptr (p : Fin 2) (v : BitVec 16) (dt : BitVec 11) : Statement (.ptr p v dt) := chainw rfl (by decide) (by have := p.isLt; have := v.isLt; omega)

theorem rowb (k : Fin 4) (v : BitVec 15) (dt : BitVec 11) : Statement (.rowb k v dt) := chainw rfl (by decide) (by have := k.isLt; have := v.isLt; omega)

theorem lcnt (j : Fin 2) (v : BitVec 14) (dt : BitVec 11) : Statement (.lcnt j v dt) := chainw rfl (by decide) (by have := j.isLt; have := v.isLt; omega)

theorem chainLoop (j : Fin 2) (v : BitVec 14) (dt : BitVec 11) : Statement (.chainLoop j v dt) := chainw rfl (by decide) (by have := j.isLt; have := v.isLt; omega)

theorem chainEnd (dt : BitVec 11) : Statement (.chainEnd dt) := chainw rfl (by decide) (by decide)

theorem chainRdLanding (addr : BitVec 22) (pa : BitVec 31) (idx : BitVec 14) (data : BitVec 512) (mark : Fin 3) : Statement (.chainRdLanding addr pa idx data mark) := small (Nat.lt_of_le_of_lt (Nat.le_of_eq (rfl : encode _ = 0)) (by decide))

theorem visibilityEvent (code : BitVec 4) : Statement (.visibilityEvent code) := small (Nat.lt_of_le_of_lt (Nat.le_of_eq (rfl : encode _ = 0)) (by decide))

theorem engineCommandStart (q : QueueId) : Statement (.engineCommandStart q) := small (Nat.lt_of_le_of_lt (Nat.le_of_eq (rfl : encode _ = 0)) (by decide))

theorem barrierRelease (die : Bool) : Statement (.barrierRelease die) := small (Nat.lt_of_le_of_lt (Nat.le_of_eq (rfl : encode _ = 0)) (by decide))

theorem flitReceipt (ok : Bool) : Statement (.flitReceipt ok) := small (Nat.lt_of_le_of_lt (Nat.le_of_eq (rfl : encode _ = 0)) (by decide))

theorem cmddb (v : W32) : Statement (.cmddb v) := small (Nat.lt_of_le_of_lt (Nat.le_of_eq (rfl : encode _ = 0)) (by decide))

theorem scrubRange (chan : Fin 32) (pa len : W32) : Statement (.scrubRange chan pa len) := small (Nat.lt_of_le_of_lt (Nat.le_of_eq (rfl : encode _ = 0)) (by decide))

theorem repairLane (chan : Fin 32) (pc : Fin 2) (lane spare : Byte) : Statement (.repairLane chan pc lane spare) := small (Nat.lt_of_le_of_lt (Nat.le_of_eq (rfl : encode _ = 0)) (by decide))

theorem correctedErrorCount (chan : Fin 32) (ce ue first : W32) : Statement (.correctedErrorCount chan ce ue first) := small (Nat.lt_of_le_of_lt (Nat.le_of_eq (rfl : encode _ = 0)) (by decide))

theorem repairDone (chan : Fin 32) (status : Byte) : Statement (.repairDone chan status) := small (Nat.lt_of_le_of_lt (Nat.le_of_eq (rfl : encode _ = 0)) (by decide))

theorem stackTemperature (deg : Byte) : Statement (.stackTemperature deg) := small (Nat.lt_of_le_of_lt (Nat.le_of_eq (rfl : encode _ = 0)) (by decide))

theorem ptpMessageReceipt (ns : W64) : Statement (.ptpMessageReceipt ns) := small (Nat.lt_of_le_of_lt (Nat.le_of_eq (rfl : encode _ = 0)) (by decide))

theorem forwardedEventRecordReceipt (part : Fin 8) (r : W64) : Statement (.forwardedEventRecordReceipt part r) := small (Nat.lt_of_le_of_lt (Nat.le_of_eq (rfl : encode _ = 0)) (by decide))

theorem forwardedStatusReceipt : Statement (.forwardedStatusReceipt) := small (by decide)

theorem mend : Statement (.mend) := micro (show 0x01 * 2 ^ 58 < 2 ^ 64 from (by omega)) rfl

theorem resetRelease : Statement (.resetRelease) := small (by decide)

theorem phaseBoundary : Statement (.phaseBoundary) := small (by decide)

theorem stragglerBudgetExpiry : Statement (.stragglerBudgetExpiry) := small (by decide)

theorem timeDrivenBoundary : Statement (.timeDrivenBoundary) := small (by decide)

theorem powerAdmission : Statement (.powerAdmission) := small (by decide)

theorem arrivalCount : Statement (.arrivalCount) := small (by decide)

theorem daymark : Statement (.daymark) := small (by decide)

theorem routineEnd : Statement (.routineEnd) := small (by decide)

theorem idleChainCommand : Statement (.idleChainCommand) := small (by decide)

theorem refreshDebtIncrement : Statement (.refreshDebtIncrement) := small (by decide)

theorem maintenanceDebtIncrement : Statement (.maintenanceDebtIncrement) := small (by decide)

theorem maintSlotEnd : Statement (.maintSlotEnd) := small (by decide)

theorem leaseGrant : Statement (.leaseGrant) := small (by decide)

theorem translationInvalidate : Statement (.translationInvalidate) := small (by decide)

theorem invalidateWatchdogExpiry : Statement (.invalidateWatchdogExpiry) := small (by decide)

theorem remoteOperationReceipt : Statement (.remoteOperationReceipt) := small (by decide)

theorem localReuseEvent : Statement (.localReuseEvent) := small (by decide)

theorem remoteTimeout : Statement (.remoteTimeout) := small (by decide)

theorem collectiveSequenceStart : Statement (.collectiveSequenceStart) := small (by decide)

theorem collectiveCompletion : Statement (.collectiveCompletion) := small (by decide)

theorem collectiveTimeout : Statement (.collectiveTimeout) := small (by decide)

theorem trapDrainCompletion : Statement (.trapDrainCompletion) := small (by decide)

theorem rerunVerification : Statement (.rerunVerification) := small (by decide)

theorem contextSave : Statement (.contextSave) := small (by decide)

theorem contextRestore : Statement (.contextRestore) := small (by decide)

theorem recordCompletion : Statement (.recordCompletion) := small (by decide)

theorem stationDown : Statement (.stationDown) := small (by decide)

theorem stationRetrained : Statement (.stationRetrained) := small (by decide)

theorem timeLockLoss : Statement (.timeLockLoss) := small (by decide)

theorem powerAlarm : Statement (.powerAlarm) := small (by decide)

theorem powerAlarmRelease : Statement (.powerAlarmRelease) := small (by decide)

theorem attest : Statement (.attest) := small (by decide)

theorem wrreg : Statement (.wrreg) := small (by decide)

theorem rdreg : Statement (.rdreg) := small (by decide)

theorem armtd : Statement (.armtd) := small (by decide)

theorem cadctlDriveArm : Statement (.cadctlDriveArm) := small (by decide)

theorem enqueue : Statement (.enqueue) := small (by decide)

theorem memwr : Statement (.memwr) := small (by decide)

theorem memrd : Statement (.memrd) := small (by decide)

theorem groupdef : Statement (.groupdef) := small (by decide)

theorem partset : Statement (.partset) := small (by decide)

theorem preempt : Statement (.preempt) := small (by decide)

theorem mboxsend : Statement (.mboxsend) := small (by decide)

theorem armingCheck : Statement (.armingCheck) := small (by decide)

theorem werrRead : Statement (.werrRead) := small (by decide)

theorem cerrstRead : Statement (.cerrstRead) := small (by decide)

theorem perrstRead : Statement (.perrstRead) := small (by decide)

theorem eventQueueRead : Statement (.eventQueueRead) := small (by decide)

theorem wrrwWrite : Statement (.wrrwWrite) := small (by decide)

theorem phyctlClr : Statement (.phyctlClr) := small (by decide)

theorem forwardedCommandReceipt : Statement (.forwardedCommandReceipt) := small (by decide)

end Sys2Proof.Laws.Encoding
end

