-- ==== Sys2Proof/Laws/Reports.lean ====
section
/-! SUPPORT. What the reports of the machine change: interrupts, event records, completions of commands and the mailbox touch no core, and
the operations that they post stay behind. -/

namespace Sys2Proof.Machine

open Sys2Proof

/-! ### The agenda -/

/-- What is posted is pending, and what was pending stays. -/
theorem mem_insertItem {x it : Item} {as : List Item} : x ∈ insertItem it as ↔ x = it ∨ x ∈ as := by
  induction as with
  | nil => simp [insertItem]
  | cons y ys ih =>
    unfold insertItem
    split <;> simp [ih, or_left_comm]

/-- The operations that posting leaves pending. -/
theorem State.mem_post_agenda {x it : Item} (s : State) : x ∈ (s.post it).agenda ↔ x = it ∨ x ∈ s.agenda := mem_insertItem

/-! ### Interrupts and event records (R337, R358, R359) -/

/-- An MSI-X interrupt is raised on the bridge alone (R18); nothing else changes. -/
theorem State.msi_eq (s : State) (v : Msi) : s.msi v = { s with vectors := if Config.isBridge then s.vectors ++ [v] else s.vectors } := by
  unfold State.msi
  split <;> rfl

@[simp] theorem State.msi_cores (s : State) (v : Msi) : (s.msi v).cores = s.cores := by rw [s.msi_eq]
@[simp] theorem State.msi_agenda (s : State) (v : Msi) : (s.msi v).agenda = s.agenda := by rw [s.msi_eq]
@[simp] theorem State.eventMsi_cores (s : State) (p c a : Nat) : (s.eventMsi p c a).cores = s.cores := by
  unfold State.eventMsi State.vector; split <;> simp
@[simp] theorem State.eventMsi_agenda (s : State) (p c a : Nat) : (s.eventMsi p c a).agenda = s.agenda := by
  unfold State.eventMsi State.vector; split <;> simp
@[simp] theorem State.pushEvent_cores (s : State) (p : Nat) (r : W64) : (s.pushEvent p r).cores = s.cores := by
  unfold State.pushEvent; dsimp only; split <;> rfl
@[simp] theorem State.pushEvent_agenda (s : State) (p : Nat) (r : W64) : (s.pushEvent p r).agenda = s.agenda := by
  unfold State.pushEvent; dsimp only; split <;> rfl

/-- A queue with room takes the record as its last, and the other queues stay. -/
theorem State.pushEvent_events (s : State) (p q : Nat) (r : W64) (h : (Sp.get [] s.events p).length < 64) :
    Sp.get [] (s.pushEvent p r).events q = if q = p then Sp.get [] s.events p ++ [r] else Sp.get [] s.events q := by
  unfold State.pushEvent
  simp only [show ¬ 64 ≤ (Sp.get [] s.events p).length by omega, if_false]
  split
  · subst_vars; exact Sp.get_set_same ..
  · exact Sp.get_set_other s.events _ ‹_›

@[simp] theorem State.postAt_cores (s : State) (p c n : Nat) (a : Recovery) (k : Nat) : (s.postAt p c n a k).cores = s.cores := by
  unfold State.postAt; dsimp only; split <;> simp
@[simp] theorem State.postAt_agenda (s : State) (p c n : Nat) (a : Recovery) (k : Nat) : (s.postAt p c n a k).agenda = s.agenda := by
  unfold State.postAt; dsimp only; split <;> simp
@[simp] theorem State.postEvent_cores (s : State) (p c n : Nat) (a : Recovery) : (s.postEvent p c n a).cores = s.cores := s.postAt_cores ..
@[simp] theorem State.postEvent_agenda (s : State) (p c n : Nat) (a : Recovery) : (s.postEvent p c n a).agenda = s.agenda := s.postAt_agenda ..

/-- A package event touches no core and posts nothing. -/
theorem State.postPackage_keeps (s : State) (n : Nat) : (s.postPackage n).cores = s.cores ∧ (s.postPackage n).agenda = s.agenda := by
  have h : ∀ (ps : List Nat) (t : State), (ps.foldl (fun (t : State) p => t.postAt p 0 n .n t.count.toNat) t).cores = t.cores ∧
      (ps.foldl (fun (t : State) p => t.postAt p 0 n .n t.count.toNat) t).agenda = t.agenda := by
    intro ps
    induction ps with
    | nil => exact fun _ => ⟨rfl, rfl⟩
    | cons p ps ih => intro t; simpa using ih (t.postAt p 0 n .n t.count.toNat)
  exact h (List.range 8) s

/-! ### Completions (R338) -/

@[simp] theorem State.complete_cores (s : State) (slot code : Nat) : (s.complete slot code).cores = s.cores := by
  unfold State.complete State.vector; dsimp only; split <;> simp [State.setStatus]
@[simp] theorem State.complete_cmd (s : State) (slot code : Nat) :
    (s.complete slot code).cmd = s.cmd.store (4096 * slot + 10) (BitVec.ofNat 8 code) := by
  unfold State.complete State.vector; dsimp only; split
  · rfl
  · rw [State.msi_eq]; rfl
@[simp] theorem State.nextCommand_cores (s : State) : s.nextCommand.cores = s.cores := by
  unfold State.nextCommand; dsimp only; split <;> rfl
@[simp] theorem State.nextCommand_cmd (s : State) : s.nextCommand.cmd = s.cmd := by
  unfold State.nextCommand; dsimp only; split <;> rfl
/-- A command that ends leaves every core as it was. -/
@[simp] theorem State.finish_cores (s : State) (slot code : Nat) : (s.finish slot code).cores = s.cores := by simp [State.finish]
/-- A command that ends writes its status byte, and no other byte of the command memory. -/
@[simp] theorem State.finish_cmd (s : State) (slot code : Nat) :
    (s.finish slot code).cmd = s.cmd.store (4096 * slot + 10) (BitVec.ofNat 8 code) := by simp [State.finish]

/-! ### The mailbox (R352) -/

@[simp] theorem State.emptyMail_cores (s : State) : s.emptyMail.cores = s.cores := by
  unfold State.emptyMail State.fillMail; dsimp only; split <;> rfl

/-- With no message waiting, the slot is empty and nothing else changes. -/
theorem State.emptyMail_of_none (s : State) (h : ∀ x ∈ s.mboxWait, x.1 / 32 ≠ s.focus.arg) :
    s.emptyMail = { s with mboxIn := s.mboxIn.filter (·.1 != s.focus.arg) } := by
  have : s.mboxWait.find? (fun x => x.1 / 32 == s.focus.arg) = none := by simpa using h
  unfold State.emptyMail
  simp [this]

end Sys2Proof.Machine
end

