-- ==== Sys2Proof/Laws/Signature.lean ====
section
/-! SUPPORT. The lengths of digests and signatures (R348, R351). -/

namespace Sys2Proof.Machine

open Sys2Proof

/-- The little-endian bytes of a number are as many as asked for. -/
@[simp] theorem leBytes_length (n x : Nat) : (leBytes n x).length = n := by
  induction n generalizing x with
  | zero => rfl
  | succ n ih => simp [leBytes, ih]

/-- The big-endian bytes of a number are as many as asked for. -/
@[simp] theorem beBytes_length (n x : Nat) : (beBytes n x).length = n := by simp [beBytes]

/-- A round keeps eight working variables. -/
theorem shaRound_length {v : List W64} (h : v.length = 8) (kw : W64 × W64) : (shaRound v kw).length = 8 := by
  match v, h with
  | [_, _, _, _, _, _, _, _], _ => rfl

/-- A block leaves a hash value of eight words. -/
theorem shaBlock_length {h : List W64} (hh : h.length = 8) (bs : List Byte) : (shaBlock h bs).length = 8 := by
  have : ∀ (xs : List (W64 × W64)) (v : List W64), v.length = 8 → (xs.foldl shaRound v).length = 8 := fun xs => by
    induction xs with
    | nil => exact fun _ h => h
    | cons x xs ih => exact fun v h => ih _ (shaRound_length h x)
  simp [shaBlock, hh, this _ h hh]

/-- A digest has 48 bytes. -/
@[simp] theorem sha384_length (bs : List Byte) : (sha384 bs).length = 48 := by
  have : ∀ (xs : List Nat) (f : Nat → List Byte) (h : List W64), h.length = 8 →
      (xs.foldl (fun h i => shaBlock h (f i)) h).length = 8 := fun xs f => by
    induction xs with
    | nil => exact fun _ h => h
    | cons x xs ih => exact fun h hh => ih _ (shaBlock_length hh _)
  have h8 := this (List.range ((shaPad bs).length / 128)) (fun i => ((shaPad bs).drop (128 * i)).take 128) shaInit rfl
  unfold sha384
  dsimp only
  generalize List.foldl _ _ _ = h at h8 ⊢
  match h, h8 with
  | [_, _, _, _, _, _, _, _], _ => simp

/-- A signature has 96 bytes. -/
@[simp] theorem identitySignature_length (n : Nat) (bs : List Byte) : (identitySignature n bs).length = 96 := by
  simp [identitySignature]

end Sys2Proof.Machine
end

