-- ==== Sys2Proof/Laws/Slots.lean ====
section
/-! SUPPORT. What a slot form answers, from the shape of its meaning: one lemma per way in which a form delivers its result. -/

namespace Sys2Proof.Machine

open Sys2Proof

/-- A slot under a true guard. -/
theorem State.slot_true {s : State} {g : Guard} (h : s.guard g = true) (f : State → State) : s.slot g f = .next (f s) := by
  simp [State.slot, h]

/-- A slot under a false guard. -/
theorem State.slot_false {s : State} {g : Guard} (h : s.guard g = false) (f : State → State) : s.slot g f = .next s := by
  simp [State.slot, h]

/-- The two forms of the check of s30 (R384) agree. -/
theorem State.spBad_eq_refusal (s : State) (d : Fin 32) (lat : Nat) (x : W64) : s.spBad d lat x = s.refusal d lat x := by
  have hx : (x.toNat < s.cur.slim.toNat ∨ 0x40000 < x.toNat) ↔ ¬(s.cur.slim.toNat ≤ x.toNat ∧ x.toNat ≤ 0x40000) := by omega
  have hl : (lat ≠ 1 ∨ (s.focus.slot ≠ .s0 ∧ s.focus.slot ≠ .s1)) ↔ ¬(lat = 1 ∧ (s.focus.slot = .s0 ∨ s.focus.slot = .s1)) := by tauto
  unfold State.spBad State.refusal
  simp only [hx, hl, ite_not, ne_eq]

/-- A scalar result, by the check of s30. -/
theorem State.putThen_eq (s : State) (d : Fin 32) (lat : Nat) (x : W64) (f : State → State) :
    s.putThen d lat x f = match s.refusal d lat x with
      | none => f (s.result lat (.s d x))
      | some n => s.trap 3 n := by
  unfold State.putThen
  rw [s.spBad_eq_refusal]
  cases s.refusal d lat x <;> rfl

theorem slotted_of_slot {i : Instr} {g : Guard} {f : State → State} (h : ∀ s, exec i s = s.slot g f) : Slotted i g f :=
  fun s => ⟨fun hg => (h s).trans (s.slot_true hg f), fun hg => (h s).trans (s.slot_false hg f)⟩

theorem slotted_congr {i : Instr} {g : Guard} {f f' : State → State} (h : ∀ s, exec i s = s.slot g f) (hf : ∀ s, f s = f' s) :
    Slotted i g f' := (funext hf : f = f') ▸ slotted_of_slot h

theorem yields_of_putS {i : Instr} {g : Guard} {d : Fin 32} {lat : Nat} {P : State → W64 → Prop} (v : State → W64)
    (h : ∀ s, exec i s = s.slot g fun s => s.putS d lat (v s)) (hP : ∀ s, P s (v s)) : Yields i g d lat P :=
  ⟨v, hP, fun s => ⟨fun hg => (h s).trans (s.slot_false hg _), fun hg => by
    rw [h s, s.slot_true hg]; exact congrArg _ (State.putThen_eq s d lat (v s) id)⟩⟩

theorem yieldsF_of_putF {i : Instr} {g : Guard} {d : Fin 32} {lat : Nat} {v w : State → Nat × Classes}
    (h : ∀ s, exec i s = s.slot g fun s => s.putF d lat (w s)) (hv : ∀ s, w s = v s) : YieldsF i g d lat v := by
  obtain rfl : w = v := funext hv
  exact fun s => ⟨fun hg => (h s).trans (s.slot_false hg _), fun hg => by
    rw [h s, s.slot_true hg]; exact congrArg _ (State.putThen_eq s d lat _ _)⟩

theorem yieldsQ_of_putQ {i : Instr} {g : Guard} {d : Fin 8} {v w : State → Bool}
    (h : ∀ s, exec i s = s.slot g fun s => s.putQ d (w s)) (hv : ∀ s, w s = v s) : YieldsQ i g d v :=
  slotted_congr h fun s => by rw [hv s]; rfl

end Sys2Proof.Machine
end

