-- ==== Sys2Proof/Tests/Slice0.lean ====
section
/-! SUPPORT. Tests: encodings that the chapters write out, terms that well-formedness refuses, single steps on small states, and the
witnesses that the hypotheses of the statements can be met. -/

namespace Sys2Proof.Tests

-- One theorem at a time: a thread per theorem, each with its own large stack, would fill the memory that a check allows.
set_option Elab.async false

open Sys2Proof Sys2Proof.Machine

/-! ### Helpers -/

/-- The module with nothing pending; core 0 is in focus. -/
def base : State := { State.reset with agenda := [] }
/-- Core 0 is k. -/
def on (k : Core) : State := { base with cores := [(0, k)] }
/-- A core that holds a task. -/
def task : Core := { Core.reset with life := .task }
/-- A core that holds a task, with scalar registers 1 and 2. -/
def two (x y : W64) : State := on { task with regs := { Regs.reset with s := (Regs.reset.s.set 1 x).set 2 y } }
/-- The same in an exchange phase. -/
def exch (x y : W64) : State := { two x y with count := 1 }
/-- What an instruction leaves pending. -/
def pending (i : Instr) (s : State) : List Ev := match exec i s with | .next t => t.agenda.map (·.ev) | _ => []
/-- The errors that an instruction detects at core 0. -/
def errors (i : Instr) (s : State) : List (Nat × Nat) := match exec i s with | .next t => (t.core 0).errs.map (fun e => (e.cls, e.info)) | _ => []
/-- The state after an instruction. -/
def after (i : Instr) (s : State) : State := match exec i s with | .next t => t | _ => s
/-- The state after a step. -/
def stepped (s : State) : State := match step s with | .next t => t | _ => s
/-- A pending operation of core 0 at tick 0. -/
def now (ev : Ev) : Item := ⟨0, 0, 0, ev⟩
/-- The guard that is always true. -/
def yes : Guard := ⟨0, false⟩
/-- The guard that is always false. -/
def no : Guard := ⟨0, true⟩

/-! ### Well-formedness -/

/-- R75: a literal selector must name a literal that the bundle has. -/
theorem test_refuses_missing_literal : (Instr.add yes 1 (.reg 2) (.lit 0)).wellFormed 0 = false := by decide
/-- R138: a control word is no register. -/
theorem test_refuses_register_control : (Instr.fcvtI64F32 yes 1 (.reg 2) (.reg 3)).wellFormed 3 = false := by decide
/-- R164: a control word is not the constant 36. -/
theorem test_refuses_one_control : (Instr.vcvtf yes 1 (.reg 2) .one 0).wellFormed 3 = false := by decide
/-- R175: the count of KSET.FIRST is no register. -/
theorem test_refuses_register_count : (Instr.ksetFirst yes 1 (.reg 2) .w32).wellFormed 3 = false := by decide
/-- R180: VPERM has no 4-bit form. -/
theorem test_refuses_vperm_w4 : (Instr.vperm yes 1 (.reg 2) (.reg 3) 0 .w4).wellFormed 3 = false := by decide
/-- R298: a fence from timed to timed has no encoding. -/
theorem test_refuses_empty_fence : (Instr.xfence yes .t .t).wellFormed 0 = false := by decide
/-- R67: branches stand in S1. -/
theorem test_refuses_branch_in_s0 : (Instr.br yes 0).permitted .s0 = false := by decide

/-! ### Words that the chapters write out -/

/-- R132. -/
theorem test_word_cmplt : decodeWord .s0 0 0x180428C2 = .ok (.cmplt yes 2 (.reg 5) (.reg 6)) := by decide +kernel
/-- R144. -/
theorem test_word_jr : decodeWord .s1 0 0xA800FC60 = .ok (.jr yes (.reg 31)) := by decide +kernel
/-- R146: a loop of twelve halfwords back. -/
theorem test_word_loop : decodeWord .s1 0 0xAC3FFFF4 = .ok (.loop yes 0x3FFFF4) := by decide +kernel
/-- R161. -/
theorem test_word_vfaddi : decodeWord .v0 0 0xC423FC00 = .ok (.vfaddi 1 0x3FC00) := by decide +kernel
/-- R157: vadds.i16 v9, v4, v5, k2, from its formula. -/
theorem test_word_vadds : decodeWord .v1 0 (0x0E * 2 ^ 26 + 9 * 2 ^ 17 + 4 * 2 ^ 11 + 5 * 2 ^ 5 + 2 * 4 + 1) =
    .ok (.vadds yes 9 (.reg 4) (.reg 5) 2 .i16) := by decide +kernel
/-- R171: vnarrow v6, v3, =0x0007_C880. -/
theorem test_word_vnarrow : decodeWord .v0 1 (0x25 * 2 ^ 26 + 6 * 2 ^ 17 + 3 * 2 ^ 11 + 32 * 2 ^ 5) =
    .ok (.vnarrow yes 6 (.reg 3) (.lit 0) 0) := by decide +kernel
/-- R185, R186: tanh v2, v1 is major 0x0A of the F space. -/
theorem test_word_tanh : decodeWord .f 0 (0x0A * 2 ^ 26 + 2 * 2 ^ 17 + 1 * 2 ^ 11 + 35 * 2 ^ 5) = .ok (.tanh yes 2 (.reg 1) 0) := by decide +kernel
/-- R199: ldi.d s16, s30, 3. -/
theorem test_word_ldi : decodeWord .m0 0 (0x0C * 2 ^ 26 + 16 * 2 ^ 17 + 30 * 2 ^ 11 + 3) = .ok (.ldi yes 16 (.reg 30) 3) := by decide +kernel
/-- R203: vlds.p0 v5, s6, =64. -/
theorem test_word_vlds : decodeWord .m0 1 (0x05 * 2 ^ 26 + 5 * 2 ^ 17 + 6 * 2 ^ 11 + 32 * 2 ^ 5) =
    .ok (.vlds yes 5 (.reg 6) (.lit 0) 0 0) := by decide +kernel
/-- R232: mcall s9, s0, 100. -/
theorem test_word_mcall : decodeWord .eng 0 0x08019120 = .ok (.mcall yes 100 9 0) := by decide +kernel
/-- R235: cpya.spm s10, s11, 128. -/
theorem test_word_cpya : decodeWord .eng 0 0x1002014B = .ok (.cpyaSpm yes 128 10 11) := by decide +kernel
/-- R242: tlgo s5, s6, 20. -/
theorem test_word_tlgo : decodeWord .eng 0 0x200050A6 = .ok (.tlgo yes 20 5 6) := by decide +kernel
/-- R279: put s5, s6 on issue. -/
theorem test_word_put : decodeWord .eng 0 0x443FFCA6 = .ok (.put yes 0xFFF 5 6) := by decide +kernel
/-- R290: hwait h1, vis. -/
theorem test_word_hwait : decodeWord .eng 0 0x803FFC11 = .ok (.hwait yes 1 true) := by decide +kernel
/-- R298: xfence.t.c. -/
theorem test_word_xfence : decodeWord .s0 0 0x90011C68 = .ok (.xfence yes .t .c) := by decide +kernel
/-- R318: launch s7, s5. -/
theorem test_word_launch : decodeWord .eng 0 0xC03FFCA7 = .ok (.launch yes 5 7) := by decide +kernel
/-- R325: coll s5, h2 on issue. -/
theorem test_word_coll : decodeWord .eng 0 0xA03FFCA2 = .ok (.coll yes 0xFFF 5 2) := by decide +kernel
/-- R36: cadv s5, s6. -/
theorem test_word_cadv : decodeWord .eng 0 0xE03FFCA6 = .ok (.cadv yes 5 6) := by decide +kernel
/-- R375: trap 7 under q1. -/
theorem test_word_trap : decodeWord .s0 0 0x88811807 = .ok (.trap ⟨1, false⟩ 7) := by decide +kernel
/-- R228: the micro-step mma of the chapter's example. -/
theorem test_word_mma : decodeMicro 0x320006040900000F = some (.mma 4 0 3 16 2 false true 15) := by decide +kernel
/-- R245: act of row base 0, offset 16. -/
theorem test_word_act : decodeChain 0x10008000 = some (.act 0 16 0) := by decide +kernel
/-- R244: end. -/
theorem test_word_end : decodeChain 0xE0000000 = some (.chainEnd 0) := by decide +kernel
/-- R74: selector 37 is reserved. -/
theorem test_word_reserved_selector : ∃ n, decodeWord .s0 0 (0x01 * 2 ^ 26 + 5 * 2 ^ 17 + 37 * 2 ^ 11) = .error n := ⟨_, rfl⟩
/-- R65: an opcode that no entry lists. -/
theorem test_word_reserved_major : ∃ n, decodeWord .s0 0 (0x3F * 2 ^ 26) = .error n := ⟨_, rfl⟩

/-! ### Single steps -/

/-- R125: 2^64 - 1 + 3 wraps to 2. -/
theorem test_add_wraps : pending (.add yes 5 (.reg 1) (.reg 2)) (two (BitVec.allOnes 64) 3) = [.land 0 (.s 5 2)] := by decide +kernel
/-- R127: the high half of -1 times 3 is -1 when signed and 2 when unsigned. -/
theorem test_mulh : pending (.mulh yes 5 (.reg 1) (.reg 2)) (two (BitVec.allOnes 64) 3) = [.land 0 (.s 5 (BitVec.allOnes 64))] ∧
    pending (.mulhl yes 5 (.reg 1) (.reg 2)) (two (BitVec.allOnes 64) 3) = [.land 0 (.s 5 2)] := by decide +kernel
/-- R126: bits 63..6 of the count are ignored. -/
theorem test_shift_count : pending (.shl yes 5 (.reg 1) (.reg 2)) (two 1 65) = [.land 0 (.s 5 2)] := by decide +kernel
/-- R128: the leading zeros of 0 are 64. -/
theorem test_clz_zero : pending (.clz yes 5 (.reg 0)) base = [.land 0 (.s 5 64)] := by decide +kernel
/-- R133: the constant 36 reads true. -/
theorem test_pxor_one : pending (.pxor yes 3 (.q 0) .one) base = [.land 0 (.q 3 false)] := by decide +kernel
/-- R136: 1 + 2^-24 is a tie and goes to the even 1. -/
theorem test_fadd_tie : pending (.fadd yes 5 (.reg 1) (.reg 2)) (two 0x3F800000 0x33800000) = [.land 0 (.s 5 0x3F800000)] := by decide +kernel
/-- R136, R102: 0 times infinity is the canonical NaN and invalid. -/
theorem test_fmul_invalid : pending (.fmul yes 5 (.reg 1) (.reg 2)) (two 0 0x7F800000) =
    [.land 0 (.s 5 0x7FC00000), .land 0 (.flash 0 0 1)] := by decide +kernel
/-- R145: a count of 0 leaves the loop with q4 false. -/
theorem test_lcset_zero : pending (.lcset yes (.reg 0) 2) base = [.land 0 (.loop 0 2 0 false false false false)] := by decide +kernel
/-- R375: class 0x09 with the immediate. -/
theorem test_trap : errors (.trap yes 5) base = [(9, 5)] := by decide +kernel
/-- R384: a value below the limit does not reach s30. -/
theorem test_s30_limit : errors (.movi 30 1) (on { task with slim := 64 }) = [(3, 1)] := by decide +kernel
/-- R196: the last byte of DMEM and the first byte beyond it. -/
theorem test_dmem_bound : errors (.ld yes 5 (.reg 1) .zero .z8) { two 0x3FFFF 0 with focus := { Focus.reset with slot := .m1 } } = [] ∧
    errors (.ld yes 5 (.reg 1) .zero .z8) { two 0x40000 0 with focus := { Focus.reset with slot := .m1 } } = [(4, 0)] := by decide +kernel
/-- R161: 0 + 1.5 in every element. -/
theorem test_vfaddi : pending (.vfaddi 1 0x3FC00) base = [.land 0 (.v 1 (BitVec.allOnes 4096) (splat 32 0x3FC00000))] := by decide +kernel
/-- R47: MCALL in an exchange phase. -/
theorem test_mcall_exchange : errors (.mcall yes 0xFFF 1 2) (exch 0 0) = [(2, 0)] := by decide +kernel
/-- R279: PUT in a compute phase. -/
theorem test_put_compute : errors (.put yes 0xFFF 1 2) (two 0 0) = [(2, 0)] := by decide +kernel
/-- R80: s0 discards what lands. -/
theorem test_s0_discards : (stepped { base with agenda := [now (.land 0 (.s 0 7))] }).cur.readS 0 = 0 := by decide +kernel
/-- R90: a register takes what lands. -/
theorem test_land : (stepped { base with agenda := [now (.land 0 (.s 5 7))] }).cur.readS 5 = 7 := by decide +kernel
/-- R255: a debt grows by one. -/
theorem test_debt : ((after .refreshDebtIncrement base).ch.pc[(0 : Fin 2)]).debtD = 1 := by decide +kernel
/-- R356: the counting fields clear, the last class stays. -/
theorem test_perrst_clears : (after .perrstRead { base with
    fwdSlots := [0], perrst := 0x0000_0003_0001_0005, cmd := leCells 8 2 8 |>.foldl (fun m e => Memory.store m e.1 e.2) [] }).perrst = 0x1_0000 := by decide +kernel
/-- R348: the digest of "abc" in FIPS 180. -/
theorem test_sha384 : ofBe (sha384 [0x61, 0x62, 0x63]) =
    0xCB00753F45A35E8BB5A03D699AC65007272C32AB0EDED1631A8B605A43FF5BED8086072BA1E7CC2358BAECA134C825A7 := by decide +kernel
/-- R348: the base point of RFC 5639 lies on the curve. -/
theorem test_base_point : onCurve ecG = true := by decide +kernel
/-- R376: a false guard leaves RFD without effect. -/
theorem test_rfd_guard : (after (.rfd no) (on task)).cur.rfd = false := by decide +kernel
/-- R61, R134: a bundle placed on the state after reset runs at the next step: mov s5, =7 leaves its result in flight. -/
theorem test_bundle_runs_first : ((stepped (State.reset.withFetchWord 80 (0x8401 + 2 ^ 16 * encode (.mov yes 5 (.lit 0)) + 2 ^ 48 * 7))).agenda.any
    fun it => it.core == 0 && it.ev == .land 0 (.s 5 7)) = true := by decide +kernel
/-- R245: a chain command placed on the state after reset runs at the next step: ptr of pseudo-channel 1 to 64 times 3. -/
theorem test_chain_runs_first : ((stepped (State.reset.withFetchWord 32 (encode (.ptr 1 3 0)))).core 0).ch.ptr = #v[0, 192] := by decide +kernel
/-- R220: a micro-step placed on the state after reset runs at the next step. -/
theorem test_micro_runs_first : ((stepped (State.reset.withFetchWord 64 (encode (.mseta 2 9)))).core 0).mx.ma[(2 : Fin 8)] = 9 := by decide +kernel

/-! ### Witnesses -/

/-- SlotWordsAreUnique, WordsReadBack. -/
theorem witness_words : (0x180428C2 < 2 ^ 32 ∧ 3 ≤ 3 ∧ decodeWord .s0 3 0x180428C2 = .ok (.cmplt yes 2 (.reg 5) (.reg 6))) ∧
    ((Instr.add yes 31 (.lit 2) (.cb 23)).wellFormed 3 = true ∧ (Instr.add yes 31 (.lit 2) (.cb 23)).permitted .s1 = true) ∧
    (Instr.act 3 0x7FFF 0x7FF).space = .chain ∧ (Instr.mloop 3 0x1FFF).space = .micro := by decide +kernel

/-- Every statement about a form under its guard: FalseGuardDoesNothing, ScalarIntegers, ScalarProducts, ScalarBitsAndMoves,
ScalarCompares, ScalarFloatForms, ControlFlow, SystemRegisters, LocalAccesses, ScatteredAccesses, VectorIntegerForms,
VectorComparesAndMasks, VectorFloats, CrossLaneForms, SpecialFunctions, EngineCommandsAreQueued. -/
theorem witness_guards : base.guard yes = true ∧ base.guard no = false ∧ (Instr.br no 0).space = .scalar ∧
    guardOf (.br no 0) = no ∧ ((.w8 : Width) ≠ .w4 ∧ (.w4 : Width) = .w4) := by decide +kernel

/-- StepsRunInstructions: a posted instruction, a chain command at the last index and one of the training chain, a micro-step at the last
address. -/
theorem witness_StepsRunInstructions : (∃ (s : State) (it : Item) (f : Focus) (i : Instr), s.agenda = [it] ∧ it.ev = .run f i) ∧
    (∃ (k : Core) (r : ChainRun), k.ch.run = some r ∧ r.left ≠ some 0 ∧ r.idx < 16384 ∧ k.marks = [] ∧
      r.firmware = false ∧ decodeChain (k.ch.word r.idx).toNat = some (.chainEnd 0)) ∧
    (∃ (k : Core) (r : ChainRun) (i : Instr), k.ch.run = some r ∧ r.firmware = true ∧ r.idx < 16384 ∧ k.marks = [] ∧
      decodeChain (k.ch.word r.idx).toNat = some i) ∧
    (∃ (k : Core) (q : Seq), k.mx.seq = some q ∧ q.step < 8192 ∧ k.marks = [] ∧
      decodeMicro (Sp.get 0 k.mx.rstore q.step).toNat = some .mend ∧ unitFree q (Sp.get 0 k.mx.rstore q.step).toNat ≤ 0) :=
  ⟨⟨State.reset, _, _, _, rfl, rfl⟩,
   ⟨{ task with ch := { Channel.reset with mem := [(16383, 0xE0000000)], run := some ⟨16383, 0, 0, 0, 0, none, false, none, 0, []⟩ } }, _, rfl,
     by decide +kernel⟩,
   ⟨{ task with ch := { Channel.reset with run := some ⟨0, 0, 0, 0, 0, none, true, none, 0, []⟩ } }, _, .act 0 0 0,
     rfl, by decide +kernel⟩,
   ⟨{ task with mx := { Matrix.reset with rstore := [(8191, 0x0400000000000000)], seq := some ⟨8191, 0, 0, 0, 0, 0, 0, 0, 0, 0, 0, false⟩ } }, _, rfl,
     by decide +kernel⟩⟩

/-- A micro-step whose unit is busy waits. -/
theorem witness_unit_busy : 0 < unitFree ⟨0, 0, 0, 0, 0, 5, 0, 0, 0, 0, 0, false⟩ (encode (.wld 0 0 false false)) := by decide +kernel

/-- The core of the issue witnesses: a bundle of n bytes at address 0. -/
def issuing (n w : Nat) : Core := { task with imem := Memory.storeAll [] (leCells 0 n w) }

/-- FetchReadsLines: a bundle, a fault, a filler, an uncorrectable line. -/
theorem witness_FetchReadsLines :
    (issuing 6 1).marked .imem (lineWords 0) true = none ∧ decodeBundle 0 true ((issuing 6 1).parcels 0) = .fault 1 15 ∧
    decodeBundle 0 true ((issuing 6 (0x8001 + 2 ^ 16 * encode (.mov yes 5 (.reg 1)))).parcels 0) =
      .bundle ⟨6, false, 0, 0, false, [(.s0, .mov yes 5 (.reg 1))], []⟩ ∧
    decodeBundle 0x7FFC0 true ((issuing 6 1).parcels 0x7FFC0) = .filler ∧
    (∃ m, ({ task with marks := [⟨.imem, 7, true⟩] } : Core).marked .imem (lineWords 0) true = some m) ∧
    (on { task with marks := [⟨.imem, 7, true⟩] }).cur.fetchNext = .bad { Err.plain 0x1C 1 15 0 with loc := 56 } :=
  ⟨by decide +kernel, by decide +kernel, by decide +kernel, by decide +kernel, ⟨⟨.imem, 7, true⟩, by decide +kernel⟩, by decide +kernel⟩

/-- Whether a state meets the hypotheses of StepIssuesBundle for a bundle at address 0, and its slots meet no error but a TRAP's. -/
def issues (k : Core) (b : Bundle) : Bool :=
  let s0 := on k
  let s1 := s0.endWaits 0
  let begun := { s1.modCore 0 fun k => k.begin 0 s1.cyc b with focus := slotFocus 0 0 b .s0 }
  let t := if b.k then after .daymark begun else begun
  k.life == .task && k.errs == [] && k.drain.isNone && k.arrival.isNone && !k.rfd && s0.waitsOn 0 == [] && !s0.stopsHere 0 exec &&
    (s1.core 0).fetchNext == .bundle 0 b && !(s1.core 0).verify.any (fun v => v.stage == 1 || v.stage == 2) &&
    b.words.all fun w => (t.slotErrs 0 0 b exec w).all (·.cls == 9)

/-- StepIssuesBundle: a move, a daymark with a load into s5, and a trap. -/
theorem witness_StepIssuesBundle :
    issues (issuing 6 (0x8001 + 2 ^ 16 * encode (.mov yes 5 (.reg 1)))) ⟨6, false, 0, 0, false, [(.s0, .mov yes 5 (.reg 1))], []⟩ = true ∧
    (∃ b, issues (issuing 6 (0xC040 + 2 ^ 16 * encode (.ld yes 5 (.reg 1) .zero .z8))) b = true ∧ b.k = true ∧
      b.words.map (·.2) = [.ld yes 5 (.reg 1) .zero .z8]) ∧
    ∃ b, issues (issuing 6 (0x8001 + 2 ^ 16 * encode (.trap yes 5))) b = true ∧ b.words.map (·.2) = [.trap yes 5] :=
  ⟨by decide +kernel,
   ⟨⟨6, true, 0, 0, false, [(.m0, .ld yes 5 (.reg 1) .zero .z8)], []⟩, by decide +kernel⟩,
   ⟨⟨6, false, 0, 0, false, [(.s0, .trap yes 5)], []⟩, by decide +kernel⟩⟩

/-- BundlesFollow: no branch, the bundle of an RFD inside a region and outside, the delay bundle of a branch, and that of an RFD. -/
theorem witness_BundlesFollow : let i : Issued := ⟨0, 6, 0, 0, 0, none, 1, []⟩
    ({ task with issued := some i } : Core).delay = none ∧ ({ task with issued := some i } : Core).rfd = false ∧
    (let k : Core := { task with issued := some { i with taken := some 0 }, rfd := true, shadow := some (0, Regs.reset) }
     k.delay = none ∧ k.rfd = true ∧ k.shadow.isSome = true ∧ k.issued.bind (·.taken) = some 0) ∧
    (let k : Core := { task with issued := some { i with taken := some 0 }, rfd := true }
     k.delay = none ∧ k.rfd = true ∧ k.shadow = none ∧ k.errs = []) ∧
    (let k : Core := { task with issued := some i, delay := some 8 }
     k.delay = some 8 ∧ k.rfd = false) ∧
    (let k : Core := { task with issued := some i, delay := some 0, rfd := true, shadow := some (0, Regs.reset) }
     k.delay = some 0 ∧ k.rfd = true ∧ k.shadow.isSome = true) := by decide +kernel

/-- DecodeFaultStopsIssue: jr s1 to 4 beside a slot that does not decode is row 4; alone, the slot's fault stands. -/
theorem witness_DecodeFaultStopsIssue :
    (let k : Core := { issuing 10 (0x8003 + 2 ^ 16 * (0x3F * 2 ^ 26) + 2 ^ 48 * encode (.jr yes (.reg 1))) with
        regs := { Regs.reset with s := Regs.reset.s.set 1 4 } }
     k.life = .task ∧ k.errs = [] ∧ k.drain = none ∧ k.arrival = none ∧ k.rfd = false ∧ (on k).waitsOn 0 = [] ∧
     (on k).stopsHere 0 exec = false ∧ k.fetchNext = .bad (Err.plain 1 6 0 0) ∧ k.branchWord 0 = some (.jr yes (.reg 1), []) ∧
     ({ on k with focus := { coreFocus 0 with slot := .s1 } } : State).badBranch (.jr yes (.reg 1)) = true) ∧
    (issuing 6 1).fetchNext = .bad (Err.plain 1 1 15 0) := by decide +kernel

/-- OperandValues: the hypotheses of its clauses. -/
theorem witness_OperandValues : ({ base with focus := { Focus.reset with lits := [1, 2, 3] } } : State).focus.lits[(2 : Fin 3).val]? = some 3 ∧
    (31 : Fin 32) ≠ 0 ∧ (7 : Fin 8) ≠ 0 := by decide +kernel

/-- ScalarFloatForms and ExactResults: finite values. -/
theorem witness_ExactResults : (∃ p, (FVal.fin false 3 (-1)).val = some p) ∧ (∃ p q, ([FVal.fin false 1 0, .fin true 1 0]).map FVal.val =
    [p, q].map some) ∧ (-126 : Int) ≤ 127 ∧ (2 ^ 24 - 1 < 2 ^ 24 ∧ (-60 : Int) ≤ 60) :=
  ⟨⟨_, rfl⟩, ⟨_, _, rfl⟩, by decide, by decide⟩

/-- RoundingIsNearest: a tie of FP32, between two finite patterns. -/
theorem witness_RoundingIsNearest : ∃ a p b : Rat, (FVal.fin false (2 ^ 24 + 1) 0).val = some p ∧
    (fmtF32.decode (fmtF32.round 0 0 (.fin false (2 ^ 24 + 1) 0)).1).val = some a ∧ 0x4B800001 < 2 ^ fmtF32.width ∧
    (fmtF32.decode 0x4B800001).val = some b := by
  have h : fmtF32.decode (fmtF32.round 0 0 (.fin false (2 ^ 24 + 1) 0)).1 = .fin false (2 ^ 23) 1 := by decide +kernel
  have h' : fmtF32.decode 0x4B800001 = .fin false (2 ^ 23 + 1) 1 := by decide +kernel
  rw [h, h']
  exact ⟨_, _, _, rfl, rfl, by decide, rfl⟩

/-- The same of FP16. -/
theorem witness_RoundingIsNearest_half : ∃ a p b : Rat, (FVal.fin false (2 ^ 11 + 1) 0).val = some p ∧
    (fmtF16.decode (fmtF16.round 0 0 (.fin false (2 ^ 11 + 1) 0)).1).val = some a ∧ 0x6801 < 2 ^ fmtF16.width ∧
    (fmtF16.decode 0x6801).val = some b := by
  have h : fmtF16.decode (fmtF16.round 0 0 (.fin false (2 ^ 11 + 1) 0)).1 = .fin false (2 ^ 10) 1 := by decide +kernel
  have h' : fmtF16.decode 0x6801 = .fin false (2 ^ 10 + 1) 1 := by decide +kernel
  rw [h, h']
  exact ⟨_, _, _, rfl, rfl, by decide, rfl⟩

/-- SystemRegisters: a daymark with results in flight, and one without; one with a shadow of the same phase, and one that issues again. -/
theorem witness_SystemRegisters : (base.inFlight 0 = false ∧ base.cur.shadow = none) ∧
    ({ base with agenda := [now (.land 0 (.s 5 7))] } : State).inFlight 0 = true ∧
    (let s := on { task with shadow := some (64, Regs.reset) }
     s.inFlight 0 = false ∧ s.cur.dayNext ≠ some s.cyc ∧ s.cur.shadow.isSome = true) ∧
    (let s := on { task with shadow := some (0, Regs.reset), dayNext := some 0 }
     s.cur.dayNext = some s.cyc ∧ s.cur.shadow = some (s.focus.addr, Regs.reset) ∧ s.inFlight 0 = false) := by decide +kernel

/-- WritesLand: a landing at the head of the agenda, FLASHLOG empty and with a record. -/
theorem witness_WritesLand : (∃ s : State, s.agenda = [now (.land 0 (.flash 7 0x7FFFF 8))]) ∧ (7 < 8 ∧ 0x7FFFF < 2 ^ 19) ∧
    Regs.reset.flash = 0 ∧ (8 : BitVec 4) ≠ 0 ∧ ({ Regs.reset with flash := 0x1000000 } : Regs).flash.getLsbD 24 = true :=
  ⟨⟨{ base with agenda := _ }, rfl⟩, by decide, rfl, by decide, by decide⟩

/-- StoresLand: part of an uncorrectable word, a half byte of one, and none; a byte of an open window; a rerun that signs it. -/
theorem witness_StoresLand : (∃ s : State, s.agenda = [now (.land 0 (.spm [(0x3FFFFF, 1)]))]) ∧
    (∃ s : State, s.agenda = [now (.land 0 (.nibbles true [(0x3FFFFF, 0x0F, 1)]))]) ∧
    (let ms : List Mark := [⟨.spm, 0x7FFFF, true⟩]
     let bs : List (Nat × Byte) := [(0x3FFFFF, 1)]
     (∃ m ∈ ms, m.store = .spm ∧ m.hard = true ∧ m.unit = 0x7FFFF) ∧ (∃ e ∈ bs, e.1 / 8 = 0x7FFFF) ∧
       (∃ i, i < 8 ∧ ∀ e ∈ bs, e.1 ≠ 8 * 0x7FFFF + i) ∧ 8 * 0x7FFFF + 7 ∈ [0x3FFFFF] ∧ (bs.map (·.1)).Pairwise (· < ·)) ∧
    base.cur.marks = [] ∧ base.cur.loose = [] ∧ base.exchange 0 = false ∧ base.cur.werr = 0 ∧
    (let w : Window := { Window.reset with word0 := 0xFFC0_003F_3FFF_FF39, state := 1 }
     w.state ≠ 0 ∧ w.holds 0x3FFFFF = true) ∧
    ∃ (k : Core) (v : Verify), k.verify = some v ∧ v.began ≤ 0 :=
  ⟨⟨{ base with agenda := _ }, rfl⟩, ⟨{ base with agenda := _ }, rfl⟩,
    ⟨⟨_, List.mem_singleton.2 rfl, rfl, rfl, rfl⟩, by decide, ⟨0, by decide⟩, by decide, by decide⟩, rfl, rfl, by decide +kernel, rfl,
    by decide +kernel, { task with verify := some ⟨1, 0, 0, 0, 0, 0, 0, 0, []⟩ }, _, rfl, Nat.le_refl 0⟩

/-- IssueChangesNothingElse: a form that draws nothing runs. -/
theorem witness_IssueChangesNothingElse : ∃ t, exec (.add yes 5 (.reg 1) (.reg 2)) (two 1 2) = .next t ∧
    (Instr.add yes 5 (.reg 1) (.reg 2)).space = .scalar ∧ (Instr.add yes 5 (.reg 1) (.reg 2)).mayDraw = false ∧
    (∀ g, Instr.add yes 5 (.reg 1) (.reg 2) ≠ .rfd g) ∧ ∀ g p q, Instr.add yes 5 (.reg 1) (.reg 2) ≠ .xfence g p q :=
  ⟨_, rfl, by decide, by decide, fun _ => Instr.noConfusion, fun _ _ _ => Instr.noConfusion⟩

/-- LoadsRead: a core without soft errors; the elements of the last positions; a block that passes the checks and one that does not. -/
theorem witness_LoadsRead : base.cur.marks = [] ∧ (([(126, 0), (127, 4)] : List (Nat × Nat)).map (·.1)).Nodup ∧
    (∀ e ∈ ([(126, 0), (127, 4)] : List (Nat × Nat)), e.1 < 128) ∧
    blockFail ([1] ++ List.replicate 61 0 ++ [0x07, 0xB2]) false = none ∧
    ∃ fail, blockFail (List.replicate 64 0xFF) false = some fail :=
  ⟨rfl, by decide +kernel, by decide +kernel, by decide +kernel, Option.isSome_iff_exists.1 (by decide +kernel)⟩

/-- VectorConversions: FP16 to BF16, INT16 to INT16, FP16 from INT16, FP32 from FP16, and the chapter's narrowing are supported; FP32 to
FP16 in place is not. -/
theorem witness_VectorConversions : Conv.supports .f (Ctl.of (8 * 1 + 128 * 2)) = true ∧ Conv.supports .i (Ctl.of (8 * 6 + 128 * 6)) = true ∧
    Conv.supports .iff (Ctl.of (8 * 6 + 128 * 1)) = true ∧ Conv.supports .widen (Ctl.of (8 * 1 + 128 * 0)) = true ∧
    Conv.supports .narrow (Ctl.of 0x7C880) = true ∧ Conv.supports .f (Ctl.of (8 * 0 + 128 * 1)) = false ∧ base.guard yes = true ∧
    base.guard no = false := by decide +kernel

/-- ScansAndReductions: every operation code, active and inactive masks. -/
theorem witness_ScansAndReductions : base.guard yes = true ∧ base.opC .zero = 0 ∧
    ((List.range 128).filter fun j => active (base.cur.readK 1) 32 j) = [] ∧
    ((List.range 128).filter fun j => active (base.cur.readK 0) 32 j) = List.range 128 ∧
    ({ base with focus := { Focus.reset with lits := [31] } } : State).opC (.lit 0) = 31 := by decide +kernel

/-- A queue of core 0 that holds one command. -/
def queued (q : QueueId) (i : Instr) (a b : W64) : State :=
  on { task with queues := (Vector.replicate 5 []).set q.idx [⟨i, a, b, 0, 0, 0, 0, 0, false⟩] }

/-- QueuedCommandsStart and EngineCommandsAreQueued: every clause. -/
theorem witness_QueuedCommandsStart : base.cur.queues[QueueId.coll.idx] = [] ∧
    (∃ c, (queued .matrix (.mset yes 0 1 7) 0 0).cur.queues[QueueId.matrix.idx] = [c]) ∧
    (let p := copyOp true 0 0 0
     (queued .copy (.cpyaSpm yes 0 1 2) 0 0).mx.copyFree ≤ 0 ∧ p.fmt < 12 ∧ p.addr % 64 = 0 ∧
       p.addr + (p.n - 1) * p.pitch + 16 * codeWidth p.fmt ≤ 0x400000) ∧
    (let s : State := on { task with mx := { Matrix.reset with rtab := [(255, 0x3FFF)] } }
     s.exchange 0 = false ∧ s.mx.seq = none ∧ s.mx.busyTo ≤ s.cyc ∧ s.cur.marks = [] ∧ (Sp.get 0 s.mx.rtab 255).toNat / 2 ^ 13 % 2 = 1) ∧
    (queued .chain (.tlgo yes 0 1 2) 0 0).ch.run = none := ⟨rfl, ⟨_, rfl⟩, by decide +kernel, by decide +kernel, rfl⟩

/-- QueuedCommandsStart: MLOAD of an entry and of the last plain weights, MCALL in an exchange phase, TLGO while a chain runs. -/
theorem witness_EngineCommandsStart :
    (let s := queued .matrix (.mload yes 0 1 2) 0 0
     s.exchange 0 = false ∧ s.mx.seq = none ∧ s.mx.busyTo ≤ s.cyc ∧ (0 : W64).getLsbD 2 = false ∧ (12 : W64).getLsbD 2 = true ∧
       plainBytes ((12 : W64).toNat / 2 ^ 3 % 2 ^ 4) ≠ 0 ∧ (0x3FA000 : W64).toNat % 64 = 0 ∧
       (0x3FA000 : W64).toNat + 12288 * plainBytes ((12 : W64).toNat / 2 ^ 3 % 2 ^ 4) ≤ 0x400000) ∧
    ({ queued .matrix (.mcall yes 0 1 2) 0 0 with count := 1 } : State).exchange 0 = true ∧
    (∃ r, (on { task with ch := { Channel.reset with run := some ⟨0, 0, 0, 0, 0, none, false, none, 0, []⟩ } }).ch.run = some r) ∧
    (let p := copyOp false 0 0 0
     p.fmt < 12 ∧ p.addr % 64 = 0) := ⟨by decide +kernel, by decide +kernel, ⟨_, rfl⟩, by decide +kernel⟩

/-- QueuedCommandsStart: the head of the remote queue; a group with a member outside the scope and one without members; a source reader that
is busy and one that is free; a core that can be reached and one that cannot. -/
theorem witness_RemoteCommandsStart :
    (∃ cmd, (queued .remote (.put yes 0 1 2) 0 0).cur.queues[QueueId.remote.idx] = [cmd] ∧ cmd.instr = .put yes 0 1 2) ∧
    (let s : State := { queued .remote (.putMc yes 0 1 2) 0 0 with groups := [(0, ⟨[0x100], 0, 0, none⟩)] }
     let cmd : Cmd := ⟨.putMc yes 0 1 2, 0, 0, 0, 0, 0, 0, 0, false⟩
     s.targetsOf cmd = [0x100] ∧ s.inScope 0 1 0 1 = false ∧ s.unreachable 1 = true ∧ s.cyc ≥ s.cur.srcFree) ∧
    (let s : State := { queued .remote (.putMc yes 0 1 2) 0 0 with groups := [(0, ⟨[], 0, 0, none⟩)] }
     s.targetsOf ⟨.putMc yes 0 1 2, 0, 0, 0, 0, 0, 0, 0, false⟩ = []) ∧
    (let s : State := { queued .remote (.get yes 0 1 2) 0 0 with device := 5 }
     s.targetsOf ⟨.get yes 0 1 2, BitVec.ofNat 64 (5 * 2 ^ 35 + 255 * 2 ^ 27), 0, 0, 0, 0, 0, 0, false⟩ = [256 * 5 + 255] ∧
       s.unreachable 5 = false ∧ s.isSelf 5 = true) ∧
    (on { task with srcFree := 1 }).cyc < (on { task with srcFree := 1 }).cur.srcFree := by
  refine ⟨⟨_, rfl, rfl⟩, by decide +kernel, by decide +kernel, by decide +kernel, by decide +kernel⟩

/-- QueuedCommandsStart: a COLL whose block is malformed, one of a defined group with no call, and one that joins a call. -/
theorem witness_CollectivesStart :
    (let s : State := { queued .coll (.coll yes 0 1 2) 0 0 with groups := [(0, ⟨[0x3FF00], 0, 0, none⟩)] }
     (∃ cmd, s.cur.queues[QueueId.coll.idx] = [cmd] ∧ cmd.instr = .coll yes 0 1 2) ∧ s.cur.marks = [] ∧
     s.malformedCall 0 3 = true ∧ s.calls = []) ∧
    (∃ (s : State) (b : BitVec 1024), s.malformedCall 0 b = false) ∧
    (([⟨0, 0, 0, [], 0, [], []⟩] : List Call).find? fun x => x.group == 0 && x.seq == 0 && x.stage == 0 && !(x.members.any (·.core == 0))).isSome = true := by
  exact ⟨⟨⟨_, rfl, rfl⟩, rfl, by decide +kernel, rfl⟩,
    ⟨on { task with win := Vector.replicate 32 { Window.reset with word0 := 0xFFC0_0000_FFFF_FFF9 } }, BitVec.ofNat 1024 (2 ^ 128), by decide +kernel⟩,
    by decide +kernel⟩

/-- RemoteCommandsAreQueued: both phases, the first run and a rerun. -/
theorem witness_RemoteCommandsAreQueued : ((two 0 0).guard yes = true ∧ ((two 0 0).countOf 0).getLsbD 0 = false ∧
    ((exch 0 0).countOf 0).getLsbD 0 = true ∧ (exch 0 0).cur.replayed ≤ (exch 0 0).cur.opsLeft) ∧
    (let s : State := { on { task with replayed := 1 } with count := 1 }
     s.cur.opsLeft < s.cur.replayed ∧ (s.countOf 0).getLsbD 0 = true) := by decide +kernel

/-- A core whose window 31 has a mode, a state and a count. -/
def windowed (mode : Nat) (st : Fin 4) (n : Byte) : Core :=
  { task with
    win := (Vector.replicate 32 Window.reset).set 31 { Window.reset with word0 := BitVec.ofNat 64 (1 + 2 * mode + 8 * 7), state := st, count := n }
    regs := { Regs.reset with s := Regs.reset.s.set 1 31 } }

/-- WindowCommandsIssue: an entry that is uncorrectable, and one that is not. -/
theorem witness_WindowCommandsIssue_bad :
    (∃ m ∈ ([⟨.window, 31, true⟩] : List Mark), m.store = .window ∧ m.hard = true ∧ m.unit = (31 : Fin 32).val) ∧
    ∀ m ∈ (windowed 1 0 0).marks, m.store = .window → m.unit ≠ 31 := by decide +kernel

/-- WindowCommandsIssue: the entry closed, open with operations to come, and open with none. -/
theorem witness_WindowCommandsIssue : ({ on (windowed 1 0 0) with count := 1 } : State).guard yes = true ∧
    (∀ n : Byte, n = 0 ∨ n = 255 → ∀ st : Fin 4, st = 0 ∨ st = 1 →
      let s : State := { on (windowed 1 st n) with count := 1 }
      let w := s.cur.win[(31 : Fin 32)]
      (s.cur.readS 1).toNat % 32 = 31 ∧ w.valid = true ∧ w.mode = 1 ∧ w.state = st ∧ w.count = n ∧ (s.countOf 0).getLsbD 0 = true ∧
        s.cur.replayed ≤ s.cur.opsLeft) := by
  refine ⟨by decide +kernel, ?_⟩
  rintro n (rfl | rfl) st (rfl | rfl) <;> decide +kernel

/-- ArrivalsAndBarriers. -/
theorem witness_ArrivalsAndBarriers : (two 0 0).guard yes = true := by decide +kernel

/-- A core that runs a routine at a step, with micro registers. -/
def routine (ma : Vector W32 8) : State :=
  on { task with mx := { Matrix.reset with ma := ma, seq := some ⟨0, 0, 0, 0, 0, 0, 0, 0, 0, 0, 0, false⟩ } }

/-- MicroStepsSequence, MicroStepsStart: a routine; a gather at the last 16 bytes and one beyond SPM, misaligned or of width code 3. -/
theorem witness_MicroSteps : (∃ q, (routine (Vector.replicate 8 0)).mx.seq = some q) ∧
    (let s := routine ((Vector.replicate 8 0).set 1 0x400000)
     (s.mx.ma[(1 : Fin 8)]).toNat % 64 = 0 ∧ 0x400000 < (s.mx.ma[(1 : Fin 8)]).toNat + 2 ∧ (s.mx.ma[(0 : Fin 8)]).toNat % 16 = 0 ∧ (3 : Fin 4) = 3) ∧
    plainBytes 1 ≠ 0 ∧ 0x3FA000 % 64 = 0 ∧ 0x3FA000 + 12288 * plainBytes 1 ≤ 0x400000 ∧ (∃ f : Fin 16, plainBytes f.val = 0) ∧
    mmaBad Half.reset 1 false = false ∧
    mmaBad Half.reset 15 false = true := ⟨⟨_, rfl⟩, by decide +kernel⟩

/-- MicroStepsStart: what each unit does at its cycles. -/
theorem witness_MicroSteps_units : (∀ ev, ∃ s : State, s.agenda = [now ev]) ∧ base.cur.marks = [] ∧ base.cur.loose = [] ∧
    base.exchange 0 = false ∧ base.cur.arrival = none ∧ ({ base with count := 1 } : State).exchange 0 = true ∧
    (⟨[(128, .f (.fin false 1 0))], false, false⟩ : Half).column 0 ≠ [] ∧
    (let g : Gather := ⟨0x3FFF40, 16, some (-0x100), 0, 1, 0, []⟩
     (∀ i, i < g.n → i = 0) ∧ g.rowAddr 0 + 12 * g.width = 0x400000) ∧
    (let bs : List Byte := [1] ++ List.replicate 61 0 ++ [0x07, 0xB2]
     let l : Load := ⟨false, false, false, 0, 1, 0, [], 0, false, true⟩
     (l.take bs).isSome = true ∧ l.col < 128) ∧
    (∃ l', (⟨false, false, false, 0, 0, 0, [], 0, false, true⟩ : Load).takeAll 0 [] = .inl l') ∧ plainBytes 3 ≠ 0 := by
  refine ⟨fun ev => ⟨{ base with agenda := [now ev] }, rfl⟩, rfl, rfl, by decide +kernel, rfl, by decide +kernel, by decide +kernel,
    ⟨fun i h => by simpa using h, by decide +kernel⟩, by decide +kernel, ⟨_, rfl⟩, by decide⟩

/-- R122, R212, R228: the INT8 element 1 of row 0, 5, times the one present weight of column 0, 3, goes to element 0 of row 7 of ACC. -/
theorem test_array_then_acc :
    (let h : Half := ⟨[(128, .i 3)], true, false⟩
     let s : State := { on { task with mx := { Matrix.reset with half0 := h, abuf := [⟨1, 5⟩] } } with
       agenda := [now (.array ⟨0, 0, 7, 0, 7, false, false, 1⟩ 0 0)] }
     (stepped s).agenda.map (·.ev) = [.acc (some (⟨0, 0, 7, 0, 7, false, false, 1⟩, 0, 0)) [(896, .i 15)]]) := by decide +kernel

/-! ### Witnesses: chains, faults, events -/

/-- A core that runs a chain at command 0, with a channel. -/
def chained (h : Channel) (now : Nat) : State := { on { task with ch := { h with run := some ⟨0, 0, 0, 0, 0, none, false, none, 0, []⟩ } } with now := now }

/-- ChainCommandsAct: a running chain, a PRE that breaks a rule and one that breaks none. -/
theorem witness_ChainCommandsAct : (∃ r, (chained Channel.reset 0).ch.run = some r ∧ r.left = none) ∧
    (chained Channel.reset 1000).ch.broken 1000 (.prea 1) [] = [] ∧
    (chained { Channel.reset with banks := [(1, { Bank.reset with row := some 5, act := some 999 })] } 1000).ch.broken 1000 (.pre 1) [] ≠ [] ∧
    (∃ b, (chained Channel.reset 1000).ch.broken 1000 (.refpb b) [] = []) ∧
    (127 : BitVec 7).toNat ∈ ((Channel.reset.modPc 1 fun q => { q with refpb := [127] }).pc[pcOf 127]).refpb :=
  ⟨⟨_, rfl, rfl⟩, by decide +kernel, by decide +kernel, ⟨0, by decide +kernel⟩, by decide +kernel⟩

/-- A core of which entry 63 maps every page of 2 MiB of virtual address 0. -/
def mapped (ws : List (Nat × Tte)) : State :=
  { on { task with tt := ws, ch := { Channel.reset with run := some ⟨0, 0, 0, 0, 0, none, false, none, 0, []⟩ } } with now := 1000 }

/-- ActivateTranslates: no entry, and one that covers the address. -/
theorem witness_ActivateTranslates : (let s := mapped [];
      (∃ r, s.ch.run = some r) ∧ s.cur.marks = [] ∧ s.pages = [] ∧ s.ch.broken s.now (.act 0) [] = [] ∧ ∀ e ∈ s.cur.tt, tteCovers e.2.word 0 = false) ∧
    (let s := mapped [(63, ⟨0x31, none, none, none, false⟩)];
      s.ch.broken s.now (.act 127) [] = [] ∧ (∀ x ∈ s.cur.tt, tteCovers x.2.word (1024 * 127) = true → x.2.word = 0x31) ∧
        (63, (0x31 : W64)) ∈ s.cur.tt.map (fun x => (x.1, x.2.word)) ∧ tteCovers 0x31 (1024 * 127) = true) :=
  ⟨⟨⟨_, rfl⟩, by decide +kernel⟩, by decide +kernel⟩

/-- A channel whose bank 0 has row 5 open since tick 0. -/
def opened (rd wr : Bool) : State :=
  chained { Channel.reset with banks := [(0, { Bank.reset with row := some 5, rd := rd, wr := wr, act := some 0 })] } 1000

/-- ColumnsAndTheirLandings: a row open with each right, and with none. -/
theorem witness_ColumnsAndTheirLandings : (∀ b : Bool, let s := opened b b
      s.cur.phy.pat = false ∧ s.cur.marks = [] ∧ (s.ch.bank 0).wr = b ∧ (s.ch.bank 0).rd = b ∧
      s.ch.broken s.now (.wr 0) [(s.cyc - 2, 0)] = [] ∧ s.ch.broken s.now (.rd 0) [((s.now + s.ch.rl + 20 + 2) / 3, 0)] = []) ∧
    (∃ r, (opened true true).ch.run = some r ∧ r.firmware = false) ∧
    (let s : State := { opened true true with cores := (opened true true).cores.map fun x => (x.1, { x.2 with phy := { x.2.phy with pat := true } }) }
     s.cur.phy.pat = true ∧ (s.ch.bank 0).wr = true ∧ s.ch.broken s.now (.wr 0) [] = [] ∧ s.ch.broken s.now (.rd 0) [] = []) :=
  ⟨by decide +kernel, ⟨_, rfl, rfl⟩, by decide +kernel⟩

/-- DebtsAndIdleChain: a debt at 7, at 8, an idle channel that wants nothing, one that wants a PREA that the rules forbid and then a REFAB
that they allow, and one that a chain holds. -/
theorem witness_DebtsAndIdleChain : (let debt := fun (n : Int) => on { task with ch := Channel.reset.modPc 1 fun q => { q with debtD := n } }
      (debt 7).cur.errs = [] ∧ (debt 7).cur.drain = none ∧ ((debt 7).ch.pc[(1 : Fin 2)]).debtD < 8 ∧ 8 ≤ ((debt 8).ch.pc[(1 : Fin 2)]).debtD ∧
      (debt 1).ch.held 0 = false ∧ (∀ q, (debt 1).ch.anyOpen q = false) ∧ (∀ q : Fin 2, q < 1 → ((debt 1).ch.pc[q]).debtD < 1) ∧
      (debt 1).ch.broken 0 (.refab 1) [] = []) ∧
    (let h := { Channel.reset.modPc 1 fun q => { q with debtD := 1 } with banks := [(0, { Bank.reset with row := some 5, act := some 999 })] }
     h.held 1000 = false ∧ h.anyOpen 0 = true ∧ h.anyOpen 1 = false ∧ h.broken 1000 (.prea 0) [] ≠ [] ∧ h.broken 1000 (.refab 1) [] = []) ∧
    base.ch.held 0 = false ∧ base.ch.idleWants = [] ∧ (chained Channel.reset 6).ch.held 6 = true := by decide +kernel

/-- DebtsAndIdleChain: a debt of 8 under a training chain. -/
theorem witness_DebtsGrow_training : ∃ (s : State) (r : ChainRun), s.cur.errs = [] ∧ s.cur.drain = none ∧ 8 ≤ (s.ch.pc[(1 : Fin 2)]).debtM ∧
    s.cur.phy.train.isSome = true ∧ s.ch.run = some r ∧ r.firmware = true ∧
    ({ s.cur with ch := { s.ch with run := none } } : Core).phy.train.isSome = true :=
  ⟨on { Core.reset with
      ch := { Channel.reset.modPc 1 fun q => { q with debtM := 8 } with run := some ⟨0, 0, 0, 0, 0, none, true, none, 0, []⟩ }
      phy := { Phy.reset with train := some ⟨.read, 0, true, false, []⟩ } }, _, rfl, rfl, by decide +kernel, rfl, rfl, rfl, rfl⟩

/-- A task inside a region, with n rollbacks behind it. -/
def inRegion (n : Nat) : Core := { task with shadow := some (0, Regs.reset), rolls := n }

/-- ErrorsBeginDrains: one error, two that tie in their action, and two that do not. -/
theorem witness_ErrorsBeginDrains : ∀ xs, xs = [(9, 5)] ∨ xs = [(0x0D, 0), (0x0E, 0)] ∨ xs = [(9, 0), (0x0D, 17)] →
    let s : State := { on { inRegion 0 with errs := xs.map fun x => Err.plain x.1 x.2 0 0 } with agenda := [now .endCycle] }
    let k := s.core 0
    let es := k.errs.map fun e => { e with act := k.finalAct e }
    s.agenda = [now .endCycle] ∧ es ≠ [] ∧ (∀ e ∈ es, e.act ≠ .p) ∧ k.life = .task ∧ k.drain = none ∧ k.verify = none ∧ k.parking = false ∧
      k.dayNext = none := by
  rintro xs (rfl | rfl | rfl) <;> exact ⟨rfl, by decide +kernel⟩

/-- A core at the end of a drain. -/
def drained (d : Drain) (k : Core) : State := on { k with drain := some d }

/-- A drain since cycle 0. -/
def drainOf (e : Err) (tvec : W64) (rfd verify : Bool) : Drain :=
  ⟨e, 0, 0, 0, tvec, false, rfd, verify, none, false, false, none, none, false⟩

/-- ErrorsBeginDrains, DrainsEnd: a core that is parked, alone, with a rollback of the same cycle, and in a rollback's drain; and the drain of
one that has been parked. -/
theorem witness_parking : (∀ es : List Err, es = [] ∨ es = [Err.plain 0x0D 0 0 0] → ∀ d, d = none ∨ d = some (drainOf (Err.plain 0x0D 0 0 0) 0 false false) →
      let s : State := { on { inRegion 0 with errs := es, drain := d, parking := true } with agenda := [now (.lateEnd false)] }
      let k := s.core 0
      s.agenda = [now (.lateEnd false)] ∧ k.parking = true ∧ k.life = .task ∧ (∀ e ∈ k.judged 0, e.act.rank ≤ Recovery.p.rank) ∧
        (∀ d, k.drain = some d → d.rfd = false ∧ k.drainAct d = .b) ∧ (Sp.get [] s.events k.part.val).length < 64) ∧
    (let d := { drainOf (Err.plain 0x0D 0 0 0) 0 false false with parked := true }
     d.parked = true ∧ (drained d (inRegion 0)).draining 0 d = false) := by
  refine ⟨?_, by decide +kernel⟩
  rintro es (rfl | rfl) d (rfl | rfl) <;> refine ⟨rfl, rfl, rfl, by decide +kernel, ?_, by decide +kernel⟩
  · rintro d h; cases h
  · rintro d h; cases h; decide +kernel
  · rintro d h; cases h
  · rintro d h; cases h; decide +kernel

/-- DrainsEnd, RegionsRunAgain: no drain, a busy one, the handler at classes 0x01 and 0x09, a rollback with two behind it, a task end with
three behind it, a return from a handler, and a verification. -/
theorem witness_drains : base.cur.drain = none ∧
    (let d := drainOf (Err.plain 9 0 0 0) 0 false false
     ({ drained d task with agenda := [now (.land 0 (.s 5 7))] } : State).draining 0 d = true) ∧
    (∀ c : Nat, c = 1 ∨ c = 9 → let d := drainOf (Err.plain c 0 0 0) 0x80000 false false
      (drained d task).draining 0 d = false ∧ 1 ≤ c ∧ c ≤ 9 ∧ d.tvec.getLsbD 19 = true ∧ task.arrival = none ∧ task.life = .task) ∧
    (let e := Err.plain 0x0D 17 0 0
     e.act = .b ∧ (inRegion 2).shadow = some (0, Regs.reset) ∧ (inRegion 2).arrival = none ∧ (inRegion 2).rolls < 3 ∧
       (inRegion 2).replay.length ≤ 32 ∧ (∀ m ∈ (inRegion 2).marks, m.store = .shadow → m.hard = false) ∧ 3 ≤ (inRegion 3).rolls ∧
       (∀ r v, (drained (drainOf e 0 r v) (inRegion 2)).draining 0 (drainOf e 0 r v) = false)) ∧
    (Sp.get [] base.events 0).length < 64 := by
  refine ⟨rfl, by decide +kernel, ?_, by decide +kernel, by decide⟩
  rintro c (rfl | rfl) <;> decide +kernel

/-- RegionsRunAgain: rerun 1, and rerun 2 with equal and unequal signatures. -/
theorem witness_RegionsRunAgain : (∃ v, (on { task with verify := some v }).cur.verify = some v ∧ v.stage = 1) ∧
    (let v : Verify := ⟨2, 0, 5, 0, 5, 0, 0, 0, []⟩
     v.stage ≠ 1 ∧ base.cyc - v.began - v.waited = v.count1 ∧ v.close.sig = v.sig1 ∧ ({ v with sig1 := 6 } : Verify).close.sig ≠ 6) :=
  ⟨⟨⟨1, 0, 0, 0, 0, 0, 0, 0, []⟩, rfl, rfl⟩, by decide +kernel⟩

/-- MemoriesKeepTheirForm: the state after reset has the form, and steps. -/
theorem witness_MemoriesKeepTheirForm : (∃ t, step State.reset = .next t) ∧ State.reset.memWf :=
  ⟨⟨_, rfl⟩, rfl, rfl, fun _ => ⟨rfl, rfl, rfl, rfl, rfl⟩⟩

/-- PowerOnTakesItsSteps: every step. -/
theorem witness_PowerOnTakesItsSteps : ∀ n, n < 6 → ({ base with focus := { Focus.reset with arg := n } } : State).focus.arg = n := fun _ _ => rfl

/-- A remote operation of core 0 of this device. -/
def operation (kind : OpKind) (left : Nat) : RemoteOp :=
  ⟨0, kind, 0x3FF, 0, 0, 0x3FF00, 0, some 15, [0x3FF00], 31, 0, 0, 1, 0, 0, false, 0, 0, 1, [], left, false, false, false, [], [], 0, []⟩

/-- EventsReachHandles: no operation; one with one target left and one with two; events already delivered; no handle; a target that has
answered and one that has not, before and after the event. -/
theorem witness_EventsReachHandles : base.op? 0 = none ∧ (∀ n, n = 1 ∨ n = 2 → let o := operation .put n
      ({ base with ops := [o] } : State).op? 0 = some o ∧ o.handle = some 15 ∧ o.nrDone = false ∧ o.nvDone = false ∧ o.left = n) ∧
    (∃ o : RemoteOp, o.nrDone = true ∧ o.nvDone = true ∧ o.handle = none) ∧
    (let o := operation .put 1
     o.target.filter (fun x => !o.heard.contains x) = [0x3FF00] ∧
     ({ o with heard := [0x3FF00] } : RemoteOp).target.filter (fun x => !([0x3FF00] : List Nat).contains x) = [] ∧ base.cur.werr = 0) := by
  refine ⟨rfl, ?_, ⟨{ operation .put 1 with nrDone := true, nvDone := true, handle := none }, rfl, rfl, rfl⟩, by decide +kernel⟩
  rintro n (rfl | rfl) <;> decide +kernel

/-- Core 0 with window 31 and an operation that reaches it. -/
def reached (word0 : W64) (st : Fin 4) (kind : OpKind) : State :=
  { on { task with win := (Vector.replicate 32 Window.reset).set 31 { Window.reset with word0 := word0, state := st, grants := if kind = .wcompl then [0x3FF00] else [] } } with
    count := 1, ops := [operation kind 1] }

/-- TargetsAcceptAndReject: an accepted PUT at the last element of a fence window and one beyond it, WSTART before and after the opening,
and WCOMPL. -/
theorem witness_TargetsAcceptAndReject :
    (∀ k : OpKind, (reached 1 0 k).op? 0 = some (operation k 1) ∧ (operation k 1).late = false ∧ (reached 1 0 k).cur.marks = [] ∧
      (operation k 1).dev = (reached 1 0 k).device.toNat ∧ (reached 1 0 k).behind 0 (operation k 1) = false) ∧
    (let check := fun (word0 : W64) (st : Fin 4) (k : OpKind) (off : Nat) =>
        (reached word0 st k).portCheck 0 ((reached word0 st k).cur.win[(31 : Fin 32)]) { operation k 1 with off := off }
     let all : W64 := 0xFFC0_0000_0000_0039
     check all 1 .put 60 = none ∧ check all 1 .put 64 = some 2 ∧ check 0 1 .put 0 = some 6 ∧
     check (all + 2) 0 .wstart 0 = none ∧ check (all + 2) 1 .wstart 0 = none ∧ check (all + 2) 1 .wcompl 0 = none) ∧
    (let w : Window := { Window.reset with word0 := 0xFFC0_0000_0000_003B, state := 1 }
     let o := operation .wcompl 1
     w.mode = 1 ∧ w.valid = true ∧ o.part = w.word0.toNat / 2 ^ 40 % 2 ^ 3 ∧ w.word0.toNat / 2 ^ 44 % 2 ^ 10 ≤ o.dev ∧
       o.dev ≤ w.word0.toNat / 2 ^ 54 % 2 ^ 10 ∧ w.state ≠ 0 ∧ w.grants.contains o.rank = false) := by
  refine ⟨fun k => by cases k <;> decide +kernel, by decide +kernel, by decide +kernel⟩

/-- TargetsAcceptAndReject: every outcome of the checks, at the values where they meet. -/
theorem witness_PortChecks :
    let entry := fun (mode rights : Nat) (st : Fin 4) (grants : List Nat) =>
      { Window.reset with word0 := BitVec.ofNat 64 (0xFFC0_0000_0000_0001 + 2 * mode + 8 * rights), state := st, grants := grants, expect := 1, count := 1 }
    let check := fun (k : Core) (n : BitVec 48) (w : Window) (o : RemoteOp) => ({ on k with count := n } : State).portCheck 0 w o
    let put := operation .put 1
    let here := check task 1
    let large := { entry 0 7 1 [] with word0 := (entry 0 7 1 []).word0 + BitVec.ofNat 64 (2 ^ 24 * 4097) }
    here Window.reset put = some 6 ∧ here (entry 2 7 1 []) (operation .wstart 1) = some 6 ∧ here (entry 1 7 1 []) (operation .wlock 1) = some 6 ∧
      here (entry 0 7 1 []) { put with part := 7 } = some 5 ∧ here (entry 0 5 1 []) put = some 4 ∧ here (entry 0 6 1 []) (operation .get 1) = some 4 ∧
      here (entry 0 3 1 []) (operation .racc 1) = some 4 ∧ here (entry 0 7 0 []) put = some 1 ∧ here (entry 0 7 1 []) { put with tag := 1 } = some 1 ∧
      here (entry 1 7 1 [5]) put = some 1 ∧ here (entry 0 7 1 []) { put with off := 64 } = some 2 ∧
      here (entry 0 7 1 []) { put with off := 60, n := 2 } = some 3 ∧ here (entry 0 7 1 []) { put with off := 60 } = none ∧
      here large { put with n := 65536 } = none ∧ here large { put with n := 65537 } = some 7 ∧ here large { operation .get 1 with n := 65537 } = none ∧
      here (entry 1 0 1 [0x3FF00]) (operation .wstart 1) = some 8 ∧ here (entry 1 0 0 []) (operation .wstart 1) = none ∧
      check task 0 (entry 1 0 0 []) (operation .wstart 1) = some 1 ∧ here (entry 2 0 3 [0x3FF00]) (operation .wlock 1) = some 8 ∧
      here (entry 2 0 0 []) (operation .wlock 1) = none ∧ check task 0 (entry 2 0 0 []) (operation .wlock 1) = some 1 ∧
      here (entry 1 0 0 []) (operation .wcompl 1) = some 1 ∧ here (entry 1 0 1 []) (operation .wcompl 1) = some 8 ∧
      here (entry 1 0 1 [0x3FF00]) (operation .wcompl 1) = none ∧
      here (entry 1 0 1 [0x3FF00]) { operation .wcompl 1 with tag := 1 } = some 1 := by
  decide +kernel

/-- Core 0 with entry 31 and an operation that reaches it. -/
def meets (w : Window) (o : RemoteOp) : State :=
  { on { task with win := (Vector.replicate 32 Window.reset).set 31 w } with count := 1, ops := [o] }

/-- TargetsAcceptAndReject: an accepted GET; a lock that is free, shared, held, and closed by its last holder with and without staged bytes. -/
theorem witness_TargetsAnswer :
    let entry := fun (mode : Nat) (st : Fin 4) (holders : Nat) (grants : List Nat) =>
      { Window.reset with word0 := BitVec.ofNat 64 (0xFFC0_0000_0000_0039 + 2 * mode), state := st, holders := holders, grants := grants }
    let ok := fun (w : Window) (o : RemoteOp) => ({ (meets w o).modOp o.id fun x => { x with got := [0] } with freeCtr := 1 } : State).portCheck 0 w o = none
    ok (entry 0 1 0 []) (operation .get 1) ∧
      (ok (entry 2 0 0 []) { operation .wlock 1 with excl := true } ∧ (entry 2 0 0 []).state = 0 ∧ (entry 2 0 0 []).applying = false) ∧
      (ok (entry 2 2 1 [5]) (operation .wlock 1) ∧ (entry 2 2 1 [5]).holders < 63) ∧
      (ok (entry 2 3 0 [5]) (operation .wlock 1) ∧ ¬((entry 2 3 0 [5]).state = 0)) ∧
      (ok (entry 2 2 2 [5, 0x3FF00]) (operation .wunlock 1) ∧ 2 ≤ (entry 2 2 2 [5, 0x3FF00]).holders) ∧
      (ok (entry 2 3 0 [0x3FF00]) (operation .wunlock 1) ∧ (entry 2 3 0 [0x3FF00]).staged = []) ∧
      (let w := { entry 2 3 0 [0x3FF00] with staged := [⟨.put, 0x3FF00, 0, 0, 0, 0, 0, [1, 2, 3, 4]⟩] }
       ok w (operation .wunlock 1) ∧ (w.staged.map (·.elems.length)).sum ≠ 0) := by
  decide +kernel

/-- TargetsAcceptAndReject: an interval that opens, behind an arrival too, one that is open already, one that closes with a count and bytes
staged, and one whose apply ends. -/
theorem witness_IntervalsOpenAndClose :
    (let w := { Window.reset with word0 := 3, waiting := [0] }
     let s : State := { meets w (operation .wstart 1) with agenda := [now (.wpost 31)] }
     s.agenda = [now (.wpost 31)] ∧ w.state = 0 ∧ w.applying = false ∧ (s.core 0).phase = none ∧ s.shutting (s.core 0) = false ∧
       ((w.waiting.filterMap s.op?).map (·.rank)).Nodup ∧ (s.core 0).arrival = none) ∧
    (∃ s : State, s.agenda = [now (.wpost 31)] ∧ (s.core 0).arrival ≠ none ∧ (s.core 0).phase = none) ∧
    (let ops : List Staged := [⟨.put, 5, 0, 0, 0, 0, 0, [1, 2, 3, 4]⟩, ⟨.racc, 6, 1, 0, 0, 0, 0, [1, 0, 0, 0]⟩]
     let w := { Window.reset with state := 1, count := 1, staged := ops }
     (ops.map (·.serial)).Nodup ∧ (ops.map fun o => 4 * o.elems.length).sum = 8 ∧ w.mode ≠ 2 ∧ w.count ≠ 0 ∧ w.state ≠ 0) ∧
    (∃ s : State, s.agenda = [now (.apply 31)] ∧ (s.core 0).marks = [] ∧ ((s.core 0).win[(31 : Fin 32)]).applying = true) :=
  ⟨⟨rfl, by decide +kernel⟩,
   ⟨{ on { task with arrival := some ⟨0, 0, 0, 0, false, none, false⟩ } with agenda := [now (.wpost 31)] }, rfl, by decide +kernel⟩, by decide +kernel,
   ⟨{ on { task with win := (Vector.replicate 32 Window.reset).set 31 { Window.reset with applying := true } } with agenda := [now (.apply 31)] }, rfl,
     by decide +kernel⟩⟩

/-- EventsReachHandles: an operation whose origin goes on with its phase, and one whose phase is over; one read of two, and the last; an
uncorrectable source word. -/
theorem witness_OriginsMoveData :
    (∀ n : BitVec 48, n = 1 ∨ n = 3 → let s : State := { on task with count := n, ops := [{ operation .put 1 with n := 128 }] }
     s.op? 0 = some { operation .put 1 with n := 128 } ∧ (decide (s.exchange 0 = true ∧ (s.countOf 0).toNat = 1 ∧ (s.core 0).task = 0) = (n == 1)) ∧
       (s.core 0).life = .task ∧ (s.core 0).marks = []) ∧
    (256 * (0 + 1) < 128 * 4 ∧ 128 * 4 ≤ 256 * (1 + 1)) ∧
    (∃ m ∈ ({ task with marks := [⟨.spm, 0, true⟩] } : Core).marks, m.store = .spm ∧ m.hard = true ∧ ∃ i, i < 256 ∧ m.unit = (0 + 256 * 0 + i) / 8) :=
  ⟨by rintro n (rfl | rfl) <;> decide +kernel, by decide, ⟨_, List.mem_singleton_self _, rfl, rfl, 0, by decide, rfl⟩⟩

/-- WindowCommandsIssue: a record that is misplaced, beyond DMEM, of a shut partition, malformed, of a channel out of service, of a full queue, and
good. -/
theorem witness_LaunchesEnqueue :
    let f : Focus := coreFocus 0
    let state := fun (w : Nat) => ({ on { task with dmem := Memory.storeAll [] (leCells 0 128 w) } with agenda := [now (.launchRead f 0 5)] } : State)
    let read := fun (w : Nat) => BitVec.ofNat 1024 ((state w).core 0 |>.dmem.le 0 128)
    let good := 2 ^ 8 + 0xE4 * 2 ^ 12 + 2 ^ 192
    let out := fun (w : Nat) => ((state w).leases (read w)).any fun l => (l.cores (lnrGang (read w))).any (state w).channelOut
    (state good).agenda = [now (.launchRead f 0 5)] ∧ (32 : Nat) % 64 ≠ 0 ∧ 0x3FFFF < 0x3FFC0 + 127 ∧ 0x3FF80 + 127 ≤ 0x3FFFF ∧
      ((state good).shut.contains 0 = false ∧ ({ base with shut := [0] } : State).shut.contains 0 = true) ∧
      (state 0).malformed (read 0) 0 = true ∧ (state good).malformed (read good) 0 = false ∧ out good = false ∧
      ((state (good + 2 ^ 470)).malformed (read (good + 2 ^ 470)) 0 = false ∧ out (good + 2 ^ 470) = true) ∧
      (Sp.get [] (state good).lqs 0).length < 64 ∧ 64 ≤ (Sp.get [] ({ base with lqs := [(0, List.range 64)] } : State).lqs 0).length := by
  refine ⟨rfl, ?_⟩
  decide +kernel

/-- A call of one member whose blocks agree, and its group. -/
def called (thin : Nat) (stage : Nat) (calls : Nat) : State × Call × Group :=
  let m : CollMember := ⟨0, some 3, BitVec.ofNat 1024 (2 ^ 48 * thin), 0, 1, 0, 0⟩
  let x : Call := ⟨0, 7, 0, [m], stage, [], []⟩
  let g : Group := ⟨[0x3FF00], 0, calls, none⟩
  ({ base with calls := [x], groups := [(7, g)] }, x, g)

/-- CollectiveCalls: no call; a call that is ready and one that has begun; a thinned call below its last, at its last, and a
communicating one; an unreachable member. -/
theorem witness_CollectiveCalls : base.calls.find? (·.id == base.focus.arg) = none ∧
    (let s := (called 2 0 0).1; let x := (called 2 0 0).2.1; let g := (called 2 0 0).2.2
     s.calls.find? (·.id == s.focus.arg) = some x ∧ s.group x.group = some g ∧ s.callReady x = true ∧
       (∀ m ∈ x.members, callKey m.pb = callKey x.block) ∧ x.block.toNat / 2 ^ 48 % 2 ^ 16 = 2 ∧ g.calls % 2 ≠ 2 - 1 ∧
       ∀ r ∈ g.members, s.unreachable (r / 256) = false) ∧
    (called 2 2 0).1.callReady (called 2 2 0).2.1 = false ∧ (called 2 2 1).2.2.calls % 2 = 2 - 1 ∧
    (∃ a b : CollMember, callKey a.pb ≠ callKey b.pb) ∧ base.unreachable 5 = true ∧ base.isSelf 5 = false ∧
    (let g : Group := { (called 2 2 0).2.2 with acc := some (32, 1) }
     base.readAcc { g with acc := none } 1 = some [] ∧ ({ base with marks := [⟨.chunk, 4, true⟩] } : State).readAcc g 1 = none) := by
  refine ⟨rfl, by decide +kernel, by decide +kernel, by decide +kernel, ⟨⟨0, none, 0, 0, 0, 0, 0⟩, ⟨0, none, 1, 0, 0, 0, 0⟩, by decide +kernel⟩, by decide +kernel,
    by decide +kernel, by decide +kernel⟩

/-- CollectiveCalls: a member that is still in its phase, one that is in the group and one outside it, a call that is in time and one that is
not. -/
theorem witness_CollectiveCalls_members : (let s : State := { (called 0 2 0).1 with count := 1, cores := [(0, task)] }
      ∀ m ∈ (called 0 2 0).2.1.members, s.memberHere m = true ∧ (s.core m.core).marks = []) ∧
    (let g := (called 0 0 0).2.2
     g.members.contains (256 * base.device.toNat + 0) = true ∧ g.members.contains (256 * base.device.toNat + 1) = false) ∧
    (0 : Nat) ≠ ({ base with nextId := 1 } : State).nextId ∧ base.cyc < 0 + 2 ^ 20 ∧ 0 + 2 ^ 20 ≤ ({ base with now := 3 * 2 ^ 20 } : State).cyc := by
  decide +kernel

/-- CollectiveCalls: the sources of a call whose member goes on, and of one whose member does not. -/
theorem witness_SourcesAreCombined : (∃ s : State, s.agenda = [now (.collRead 0)] ∧ s.calls.find? (·.id == 0) = none) ∧
    ∀ n : BitVec 48, n = 1 ∨ n = 3 → let s : State := { (called 0 1 0).1 with count := n, cores := [(0, task)], agenda := [now (.collRead 0)] }
      let x := (called 0 1 0).2.1
      s.agenda = [now (.collRead 0)] ∧ s.calls.find? (·.id == 0) = some x ∧ s.group x.group = some (called 0 1 0).2.2 ∧
        (∀ m ∈ x.members, s.memberHere m = (n == 1) ∧ (s.core m.core).marks = [] ∧ callKey m.pb = callKey x.block) :=
  ⟨⟨{ base with agenda := [now (.collRead 0)] }, rfl, by decide +kernel⟩, by rintro n (rfl | rfl) <;> exact ⟨rfl, by decide +kernel⟩⟩

/-- CollectiveCalls: an accumulator that finds a place, and one that finds none. -/
theorem witness_CollectiveCalls_place : (∃ a, base.accPlace 7 none 1 = some a) ∧ base.accPlace 7 (some (0, 2 ^ 27)) (2 ^ 27) = none := by
  constructor
  · rw [← Option.isSome_iff_exists, State.accPlace, List.find?_isSome]
    exact ⟨0, by simp, by decide +kernel⟩
  · simp only [State.accPlace, List.find?_eq_none]
    intro x _
    have : ¬ x + 4 * 2 ^ 27 ≤ 2 ^ 28 := by omega
    simp only [accFits, this, decide_false, Bool.false_and, Bool.false_eq_true, not_false_eq_true]

/-- LeasesAndRecords: an entry with an invalidate pending since 2^20 cycles ago, with and without its quiescent point in that cycle, since
another cycle, and with none; a record, with a core that its entries map and that holds no task. -/
theorem witness_LeasesAndRecords : base.lqs = [] ∧ (Sp.get Tte.reset base.cur.tt 0).inval = none ∧
    (let s : State := { on { task with tt := [(0, ⟨1, some 5, none, none, false⟩)] } with now := 3 * (5 + 2 ^ 20) }
     (Sp.get Tte.reset s.cur.tt 0).inval = some 5 ∧ 5 + 2 ^ 20 = s.cyc ∧ s.agenda = [] ∧ 5 + 2 ^ 20 ≠ base.cyc ∧
       (⟨3 * s.cyc, pTte, 0, .run (argFocus 0 0) .translationInvalidate⟩ : Item).tick ≤ 3 * s.cyc + 2) ∧ base.record? 0 = none ∧
    ∃ (s : State) (r : Record), s.record? 0 = some r ∧ r.word.getLsbD (192 + 0) = true ∧ (s.core 0).life ≠ .task ∧
      (∃ z ∈ (s.core 0).tt, z.2.owner = some r.id ∧ z.2.word.getLsbD 0 = true ∧ z.2.inval = none) :=
  ⟨rfl, rfl, by decide +kernel, rfl, { on { Core.reset with tt := [(3, ⟨1, none, none, some 0, false⟩)] } with
      records := [⟨0, 0, 2 ^ 192, 0, 0, false, false, false, 0, 0, [], 0, false⟩] }, _, rfl, by decide +kernel, by decide +kernel,
    _, List.mem_singleton.2 rfl, rfl, rfl, rfl⟩

/-- ContextsAreSavedAndRestored: a halted core, idle and not, saving and saved; a core that holds a task; an image none of whose sections is
bad. -/
theorem witness_Contexts : (on task).cur.life ≠ .halted ∧
    (let k : Core := { Core.reset with life := .halted }
     (on k).cur.life = .halted ∧ (on k).contextIdle 0 = true ∧ (on { k with mx := { Matrix.reset with busyTo := 1 } }).contextIdle 0 = false ∧
     (∀ x ∈ (on k).mx.acc, x.1 < 0x40000) ∧ (∀ x ∈ (on k).saved, x.core = 0 → x.done = true) ∧
     (∀ x ∈ (on k).mx.half0.entries ++ (on k).mx.half1.entries, x.1 < 12288) ∧ (on k).cur.image = none ∧
     ∃ x ∈ ([⟨0, 1, false, none⟩] : List Saved), x.core = 0 ∧ x.done = false) ∧ ({ Core.reset with life := .halted } : Core).memWf :=
  ⟨by decide +kernel, by decide +kernel, rfl, rfl, rfl, rfl, rfl⟩

/-- MaintenanceSlotsEnd: nothing to propagate, move, access or scrub. -/
theorem witness_MaintenanceSlotsEnd : base.pages = [] ∧ base.moves = [] ∧ base.hbmCmd = none ∧ base.baseDie 0 = false := by decide +kernel

/-- A task that has arrived. -/
def arrived (ends counted : Bool) : Core := { task with arrival := some ⟨0, 0, 0, 0, ends, if counted then some 0 else none, false⟩ }

/-- PhasesAreDecided: each clause. -/
theorem witness_PhasesAreDecided : base.cur.arrival = none ∧ (∃ a, (on (arrived false true)).cur.arrival = some a ∧ a.counted = some 0) ∧
    (let s : State := { on (arrived false false) with released := true }
     s.cur.arrival = some ⟨0, 0, 0, 0, false, none, false⟩ ∧ s.exchange 0 = false ∧ s.driven = false ∧ s.decided = none ∧
       (∀ x ∈ s.awaited, x ≠ 0 → (s.core x).arrived = true) ∧ s.count.getLsbD 0 = false ∧
       (let t := { s with cores := s.cores ++ [(255, task)] }
        ∃ x ∈ t.awaited, x ≠ 0 ∧ (t.core x).arrived = false)) ∧
    (let s : State := { on (arrived false false) with count := 1 }
     s.exchange 0 = true ∧ (∀ e : Fin 32, (s.cur.win[e]).state = 0 ∧ (s.cur.win[e]).applying = false ∧ (s.cur.win[e]).waiting = []) ∧
       s.phaseOps 0 = false ∧ s.updatesIn 0 = true ∧ ({ s with ops := [operation .put 1] } : State).phaseOps 0 = true) ∧
    (let s : State := { base with budget := 1, now := 3 }
     s.driven = false ∧ s.decided = none ∧ s.budget ≠ 0 ∧ s.phStart + s.budget = s.cyc ∧ base.budget = 0) ∧
    (let s : State := { base with driven := true, disciplined := true, tbound := 1000 }
     s.decided = none ∧ s.cyc + 32 < s.cycleAt s.tbound.toNat ∧ ({ s with now := 3 * 568 } : State).cycleAt 1000 ≤ 568 + 32) := by
  refine ⟨rfl, ⟨_, rfl, rfl⟩, by decide +kernel, by decide +kernel, by decide +kernel, by decide +kernel⟩

/-- PowerAndArmings: no arming; T0 one nanosecond too late and in time; a request for pre-emption. -/
theorem witness_PowerAndArmings : base.arming = none ∧ base.preempt = [] ∧
    (let s : State := { base with preempt := [1] }
     1 ∈ s.preempt ∧ 1 ∉ s.quarantine) ∧
    (let late := fun (t : W64) => 3 * 65536 * (t.toNat : Int) - 320 * 65536 < 3 * (base.timeFix base.cyc : Int)
     late 106 ∧ ¬ late 107) ∧ ∃ s : State, s.arming = some ⟨0, ⟨1, 107, 0⟩, none⟩ :=
  ⟨rfl, rfl, by decide, by decide +kernel, { base with arming := some ⟨0, ⟨1, 107, 0⟩, none⟩ }, rfl⟩

/-- BoundariesBeginPhases: one task that goes on, and one that ends. -/
theorem witness_BoundariesBeginPhases : ∀ e : Bool, let k := arrived e true
    (on k).cores = [(0, k)] ∧ (on k).lqs = [] ∧ (on k).records = [] ∧ (on k).quarantine = [] ∧ (on k).preempt = [] ∧ (on k).resuming = [] ∧
      (on k).partset = [] ∧ k.life = .task ∧ (∃ a, k.arrival = some a ∧ a.counted = some 0 ∧ a.ends = e) ∧ k.drain = none ∧ k.phase = none ∧
      ∀ e : Fin 32, (k.win[e]).applying = false :=
  fun _ => ⟨rfl, rfl, rfl, rfl, rfl, rfl, rfl, rfl, ⟨_, rfl, rfl, rfl⟩, rfl, rfl, by decide +revert +kernel⟩

/-- FabricTimeAndPower: eight failures behind it and seven; both drives; 95 degrees and 94. -/
theorem witness_FabricTimeAndPower : (({ base with retries := Vector.replicate 16 8 } : State).retries[(15 : Fin 16)] = 8) ∧
    base.retries[(15 : Fin 16)] ≠ 8 ∧ base.driven = false ∧ ({ base with driven := true } : State).driven = true ∧ base.emergency = false ∧
    95 ≤ (95 : Byte).toInt ∧ (0xFF : Byte).toInt < 95 ∧ base.disciplined = false ∧ base.ptp = false ∧ base.mboxWait = [] ∧
    ({ base with ptp := true } : State).ptp = true := by decide +kernel

/-- MessagesTakeEffect: room for 64 records; a message that waits; a channel in training and one that is not; a forwarded word. -/
theorem witness_MessagesTakeEffect : (Sp.get [] base.events 0).length + (64 : W32).toNat ≤ 64 ∧ (Sp.get [] base.events 7).length < 64 ∧
    base.mboxWait = [] ∧ (∃ s : State, ∃ x, s.mboxWait = [x] ∧ x.1 / 32 = s.focus.arg) ∧ base.cur.phy.train = none ∧
    (∃ x, (on { task with phy := { Phy.reset with train := some ⟨.repair, 0, true, false, []⟩ } }).cur.phy.train = some x) ∧
    ({ base with focus := { Focus.reset with lits := [7] } } : State).focus.lits[0]? = some 7 :=
  ⟨by decide, by decide, rfl, ⟨{ base with mboxWait := [(0, .maintSlotEnd, 0)] }, _, rfl, rfl⟩, rfl, ⟨_, rfl⟩, rfl⟩

/-- A command in slot 0 with a payload. -/
def command (len : Nat) (payload : List (Nat × Nat × Nat)) : State :=
  { base with cmd := Memory.storeAll [] ((leCells 8 2 len) ++ (payload.map fun x => leCells (64 + x.1) x.2.1 x.2.2).flatten) }

/-- RegisterCommands: each length, a listed and an unlisted code, the last and the first index outside, a queue with a record. -/
theorem witness_RegisterCommands : (let len := fun (s : State) => s.cmd.le 8 2 % 2 ^ 12
      len (command 8 []) = 8 ∧ len (command 16 []) = 16 ∧ len base ≠ 8 ∧ len base ≠ 16) ∧
    ((command 8 [(0, 4, 0x10), (4, 4, 255)]).cmd.le 64 4 = 0x10 ∧ (command 8 [(0, 4, 0x10), (4, 4, 255)]).cmd.le 68 4 = 255) ∧
    (command 16 [(0, 4, 0x60), (4, 4, 256)]).cmd.le 68 4 = 256 ∧ (command 16 [(0, 4, 0x60)]).cmd.le 64 4 = 0x60 ∧
    (command 8 [(4, 4, 8)]).cmd.le 68 4 = 8 ∧ Sp.get [] base.events 7 = [] ∧
    Sp.get [] ({ base with events := [(7, [1])] } : State).events 7 = [1] ∧ base.arming = none ∧ base.needsArmtd = false ∧
    (command 16 [(0, 4, 1), (8, 8, 1)]).cmd.le 72 8 = 1 := by decide +kernel

/-- PackageCommands: each length; arming fields at 200 and 199; a partition of 7 and of 8; an empty and a full mailbox slot. -/
theorem witness_PackageCommands : (∀ n, n ∈ [8, 16, 24, 48, 72, 128] → (command n []).cmd.le 8 2 % 2 ^ 12 = n) ∧
    (command 24 [(22, 2, 1)]).cmd.le 86 2 ≠ 0 ∧ (200 ≤ (0xC8_000000C8 : W64).toNat % 2 ^ 32 ∧ 200 ≤ (0xC8_000000C8 : W64).toNat / 2 ^ 32) ∧
    (0xC7_000000C8 : W64).toNat / 2 ^ 32 < 200 ∧ (command 8 [(0, 8, 7)]).cmd.le 64 8 < 8 ∧ 8 ≤ (command 8 [(0, 8, 8)]).cmd.le 64 8 ∧
    base.shut.contains 0 = false ∧ ({ base with shut := [0] } : State).shut.contains 0 = true ∧ base.marks = [] ∧
    base.halted.contains 7 = false ∧ ({ base with halted := [7] } : State).halted.contains 7 = true ∧ base.mboxOut = [] ∧
    ({ base with bootst := 0x200 } : State).bootst.getLsbD (2 + 7) = true ∧ base.bootst.getLsbD (2 + 7) = false ∧ base.needsArmtd = false ∧
    (let s := command 8 [(4, 4, 0x3FFFF)]
     (s.cmd.le 8 2 % 2 ^ 12) % 4 = 0 ∧ 4 ≤ s.cmd.le 8 2 % 2 ^ 12 ∧ s.cmd.le 66 2 = 0 ∧ (∀ n, n < 1 → s.cmd.le (68 + 4 * n) 4 < 2 ^ 18) ∧
       ((s.memberList 0).map (· / 256)).dedup.length ≤ 256) := by
  refine ⟨by decide +kernel, by decide +kernel, by decide, by decide, by decide +kernel, by decide +kernel, rfl, rfl, rfl, rfl, rfl, rfl, by decide,
    by decide, rfl, by decide +kernel, by decide +kernel, by decide +kernel, by decide +kernel, by decide +kernel⟩

/-- CommandsAndMemory: a doorbell at the last slot and beyond; an access of one byte at the end of each space, and a length of 0. -/
theorem witness_CommandsAndMemory : (255 : W32).toNat < 256 ∧ 256 ≤ (256 : W32).toNat ∧ 0 ∉ base.fwdSlots ∧
    (∀ x ∈ ([(0, 1, 2 ^ 28 - 1), (1, 1, 2 ^ 22 - 1), (2, 1, 2 ^ 18 - 1)] : List (Nat × Nat × Nat)),
      let s := command 17 [(0, 1, x.1), (4, 4, x.2.1), (8, 8, x.2.2)]
      s.cmd.le 8 2 % 2 ^ 12 = 16 + (s.memAccess 0).len ∧ s.accessStatus 0 (s.memAccess 0) 4016 = none ∧ (s.memAccess 0).space = x.1 ∧
        s.marks = [] ∧ (s.core (s.memAccess 0).core).marks = []) ∧
    (let s := command 16 [(0, 1, 1), (4, 4, 4000)]
     s.cmd.le 8 2 % 2 ^ 12 = 16 ∧ s.accessStatus 0 (s.memAccess 0) 4000 = none ∧ (s.memAccess 0).len = 4000) ∧
    (let s : State := { command 16 [(0, 1, 3), (4, 4, 64)] with bootst := 4 }
     s.accessStatus 0 (s.memAccess 0) 4000 = none ∧ (s.memAccess 0).space = 3) ∧
    (command 16 []).accessStatus 0 ((command 16 []).memAccess 0) 4000 = some 3 := by
  refine ⟨by decide, by decide, by decide, by decide +kernel, by decide +kernel, by decide +kernel, by decide +kernel⟩

/-- A GET has written a byte of SPM, and core 0 has read its completion at cycle n. -/
def loosened (n : Nat) : State :=
  { on { task with spm := [⟨64, 9⟩], loose := [⟨64, 5, 9, .n, [], some 0, some 15, none, false, some n, some n, []⟩] } with now := 3000 }

/-- ControlFlow (a fence orders what the core has read as complete), LoadsRead (a byte that two values may fill). -/
theorem witness_fence : (∃ x ∈ ((loosened 1000).fence 0 .n .t).cur.loose, x.writer = .n ∧ x.early = false ∧ x.seen.any (· ≤ 1000) = true ∧
      x.unordered .t 1009 = false ∧ x.unordered .t 1008 = true) ∧
    (∃ x ∈ ((loosened 1001).fence 0 .n .t).cur.loose, x.unordered .t 5000 = true) ∧ (loosened 1000).cur.marks = [] ∧
    (loosened 1000).focus.slot ≠ .m1 := by decide +kernel

end Sys2Proof.Tests
end

/-! PROOFS. What lands (O48): a register write writes its register, its parity and the signature of a rerun, and nothing else. -/

namespace Sys2Proof.Machine

open Sys2Proof

/-! ### Landings as changes of one core -/

/-- A step lands what stands at the head of the agenda. -/
theorem step_land {s : State} {it : Item} {rest : List Item} {slot : Nat} {l : Land} (ha : s.agenda = it :: rest)
    (he : it.ev = .land slot l) : step s = .next ((s.take1 it rest).land it.core slot l) := by
  simp only [step, ha, he, State.event]

/-- A landing that changes one core, by a function that keeps P, lands with P. -/
theorem Lands.of_modCore {l : Land} {P : Core → Core → Prop} (f : Nat → Nat → Core → Core)
    (hl : ∀ (s : State) (c who : Nat), s.land c who l = s.modCore c (f s.cyc who)) (hP : ∀ cyc who k, P k (f cyc who k)) :
    Lands l P := by
  intro s it rest slot ha he
  refine ⟨_, step_land ha he, ?_, fun c hc => ?_, ?_⟩
  · rw [hl]; rfl
  · rw [hl, State.core_modCore_other _ _ hc]; rfl
  · rw [hl, State.core_modCore_same]; exact hP _ _ _

/-! ### What beside its register a write touches: parity (R366) and the signature (R398) -/

theorem Core.sign_eq (k : Core) (cyc who tag index : Nat) (data : List Byte) :
    ∃ v, k.sign cyc who tag index data = { k with verify := v } := by
  unfold Core.sign
  split
  · exact ⟨k.verify, rfl⟩
  · split
    · exact ⟨k.verify, rfl⟩
    · exact ⟨_, rfl⟩

theorem Core.unmark_eq (k : Core) (st : Store) (u : Nat) : ∃ ms, k.unmark st u = { k with marks := ms } := by
  unfold Core.unmark
  split
  · exact ⟨k.marks, rfl⟩
  · exact ⟨_, rfl⟩

theorem Core.unmarkWords_eq (k : Core) (st : Store) (n r : Nat) (whole : Nat → Bool) :
    ∃ ms, k.unmarkWords st n r whole = { k with marks := ms } := by
  unfold Core.unmarkWords
  split
  · exact ⟨k.marks, rfl⟩
  · exact ⟨_, rfl⟩

/-! ### The four register files -/

/-- Of a core, only the scalar registers are written. -/
theorem Core.writeS_eq (k : Core) (d : Fin 32) (x : W64) : ∃ r, k.writeS d x = { k with regs := { k.regs with s := r } } := by
  unfold Core.writeS
  split
  · exact ⟨k.regs.s, rfl⟩
  · exact ⟨_, rfl⟩

/-- Of a core, only the lane masks are written. -/
theorem Core.writeK_eq (k : Core) (d : Fin 8) (m x : KReg) : ∃ r, k.writeK d m x = { k with regs := { k.regs with k := r } } := by
  unfold Core.writeK
  split
  · exact ⟨k.regs.k, rfl⟩
  · exact ⟨_, rfl⟩

/-- Of a core, only the predicates are written. -/
theorem Core.writeQ_eq (k : Core) (d : Fin 8) (x : Bool) : ∃ r, k.writeQ d x = { k with regs := { k.regs with q := r } } := by
  unfold Core.writeQ
  split
  · exact ⟨k.regs.q, rfl⟩
  · exact ⟨_, rfl⟩

theorem Core.landS_eq (k : Core) (cyc who : Nat) (d : Fin 32) (x : W64) :
    ∃ ms v, k.landS cyc who d x = { k.writeS d x with marks := ms, verify := v } := by
  unfold Core.landS
  split
  · exact ⟨k.marks, k.verify, by simp [Core.writeS, *]⟩
  · obtain ⟨ms, hm⟩ := (k.writeS d x).unmark_eq .s d.val
    obtain ⟨v, hv⟩ := ((k.writeS d x).unmark .s d.val).sign_eq cyc who 0 d.val (leBytes 8 x.toNat)
    exact ⟨ms, v, by rw [hv, hm]⟩

theorem Core.landV_eq (k : Core) (cyc who : Nat) (p : Fin 32) (m x : VReg) :
    ∃ ms v, k.landV cyc who p m x = { k.writeV p m x with marks := ms, verify := v } := by
  unfold Core.landV
  obtain ⟨ms, hm⟩ := (k.writeV p m x).unmarkWords_eq .v 64 p.val fun i => bits m.toNat (64 * i) 64 == 2 ^ 64 - 1
  dsimp only
  rw [hm]
  split
  · exact ⟨ms, _, rfl⟩
  · obtain ⟨v, hv⟩ := Core.sign_eq { k.writeV p m x with marks := ms } cyc who 1 p.val (leBytes 512 (k.writeV p m x).regs.v[p].toNat)
    exact ⟨ms, v, hv⟩

theorem Core.landK_eq (k : Core) (cyc who : Nat) (d : Fin 8) (m x : KReg) :
    ∃ ms v, k.landK cyc who d m x = { k.writeK d m x with marks := ms, verify := v } := by
  unfold Core.landK
  split
  · exact ⟨k.marks, k.verify, by simp [Core.writeK, *]⟩
  · obtain ⟨ms, hm⟩ := (k.writeK d m x).unmarkWords_eq .k 16 d.val fun i => bits m.toNat (64 * i) 64 == 2 ^ 64 - 1
    dsimp only
    rw [hm]
    split
    · exact ⟨ms, _, rfl⟩
    · obtain ⟨v, hv⟩ := Core.sign_eq { k.writeK d m x with marks := ms } cyc who 2 d.val (leBytes 128 (k.writeK d m x).regs.k[d].toNat)
      exact ⟨ms, v, hv⟩

theorem Core.landQ_eq (k : Core) (cyc who : Nat) (d : Fin 8) (x : Bool) :
    ∃ ms v, k.landQ cyc who d x = { k.writeQ d x with marks := ms, verify := v } := by
  unfold Core.landQ
  split
  · exact ⟨k.marks, k.verify, by simp [Core.writeQ, *]⟩
  · obtain ⟨ms, hm⟩ := (k.writeQ d x).unmark_eq .q d.val
    obtain ⟨v, hv⟩ := ((k.writeQ d x).unmark .q d.val).sign_eq cyc who 3 d.val [BitVec.ofBool x |>.zeroExtend 8]
    exact ⟨ms, v, by rw [hv, hm]⟩

/-- A predicate that lands is read, and the others are as before. -/
theorem Core.readQ_landQ (k : Core) (cyc who : Nat) (d r : Fin 8) (x : Bool) :
    (k.landQ cyc who d x).readQ r = if r = 0 then true else if r = d then x else k.readQ r := by
  obtain ⟨ms, v, h⟩ := k.landQ_eq cyc who d x
  rw [h, ← Core.readQ_writeQ]
  rfl

/-- Whether two cores differ at most in the predicates, the parity and the signature of a rerun. -/
def Core.eqButQ (k k' : Core) : Prop := { k' with regs := { k'.regs with q := k.regs.q }, marks := k.marks, verify := k.verify } = k

theorem Core.eqButQ_refl (k : Core) : k.eqButQ k := rfl

theorem Core.eqButQ.landQ {k k' : Core} (h : k.eqButQ k') (cyc who : Nat) (d : Fin 8) (x : Bool) : k.eqButQ (k'.landQ cyc who d x) := by
  obtain ⟨ms, v, hl⟩ := k'.landQ_eq cyc who d x
  obtain ⟨r, hw⟩ := k'.writeQ_eq d x
  rw [hl, hw]
  exact h

/-- The predicates of UPKQ land one after the other (R96). -/
theorem Core.landQs_spec (k : Core) (cyc who : Nat) (x : BitVec 8) (is : List (Fin 8)) :
    k.eqButQ (is.foldl (fun k i => k.landQ cyc who i (x.getLsbD i.val)) k) ∧
      ∀ r : Fin 8, (is.foldl (fun k i => k.landQ cyc who i (x.getLsbD i.val)) k).readQ r =
        if r = 0 then true else if r ∈ is then x.getLsbD r.val else k.readQ r := by
  induction is using List.reverseRecOn with
  | nil => exact ⟨rfl, fun r => by by_cases h : r = 0 <;> simp [h, Core.readQ]⟩
  | append_singleton is i ih =>
    rw [List.foldl_append]
    refine ⟨ih.1.landQ .., fun r => ?_⟩
    simp only [List.foldl_cons, List.foldl_nil, Core.readQ_landQ, ih.2, List.mem_append, List.mem_singleton]
    by_cases h0 : r = 0
    · simp [h0]
    · by_cases hi : r = i <;> simp [h0, hi]

/-! ### The claims -/

theorem registerWritesLand : Claims.RegisterWritesLand := by
  refine ⟨fun d x => ?_, fun p m x => ?_, fun d m x => ?_, fun d x => ?_⟩
  · refine Lands.of_modCore (fun cyc who k => k.landS cyc who d x) (fun _ _ _ => rfl) fun cyc who k => ?_
    obtain ⟨ms, v, hl⟩ := k.landS_eq cyc who d x
    obtain ⟨r, hw⟩ := k.writeS_eq d x
    exact ⟨fun r => by rw [hl, ← Core.readS_writeS]; rfl, by rw [hl, hw]⟩
  · refine Lands.of_modCore (fun cyc who k => k.landV cyc who p m x) (fun _ _ _ => rfl) fun cyc who k => ?_
    obtain ⟨ms, v, hl⟩ := k.landV_eq cyc who p m x
    refine ⟨fun r => ?_, by rw [hl]; rfl⟩
    rw [hl]
    by_cases h : r = p
    · simp [Core.writeV, h]
    · have : p.val ≠ r.val := fun e => h (Fin.ext e.symm)
      simp [Core.writeV, h, this]
  · refine Lands.of_modCore (fun cyc who k => k.landK cyc who d m x) (fun _ _ _ => rfl) fun cyc who k => ?_
    obtain ⟨ms, v, hl⟩ := k.landK_eq cyc who d m x
    obtain ⟨r, hw⟩ := k.writeK_eq d m x
    exact ⟨fun r => by rw [hl, ← Core.readK_writeK]; rfl, by rw [hl, hw]⟩
  · refine Lands.of_modCore (fun cyc who k => k.landQ cyc who d x) (fun _ _ _ => rfl) fun cyc who k => ?_
    exact ⟨fun r => k.readQ_landQ cyc who d r x, k.eqButQ_refl.landQ ..⟩

/-- The loop registers and the stage predicates (R85). -/
theorem loopLands (n : W32) (e : Fin 4) (rb : Fin 8) (q4 q5 q6 q7 : Bool) : Lands (.loop n e rb q4 q5 q6 q7) fun k k' =>
    k'.regs.lcN = n ∧ k'.regs.lcE = e ∧ k'.regs.rb = rb ∧
    (∀ r : Fin 8, k'.readQ r = if r = 4 then q4 else if r = 5 then q5 else if r = 6 then q6 else if r = 7 then q7 else k.readQ r) ∧
    { k' with regs := { k'.regs with lcN := k.regs.lcN, lcE := k.regs.lcE, rb := k.regs.rb, q := k.regs.q }, marks := k.marks,
              verify := k.verify } = k := by
  refine Lands.of_modCore (fun cyc who k =>
    ((((({ k with regs := { k.regs with lcN := n, lcE := e, rb := rb } } : Core).unmark .lcrb 0).landQ cyc who 4 q4).landQ cyc who 5 q5).landQ
      cyc who 6 q6).landQ cyc who 7 q7) (fun _ _ _ => rfl) fun cyc who k => ?_
  obtain ⟨ms, hu⟩ := Core.unmark_eq { k with regs := { k.regs with lcN := n, lcE := e, rb := rb } } .lcrb 0
  rw [hu]
  generalize hk0 : ({ k with regs := { k.regs with lcN := n, lcE := e, rb := rb }, marks := ms } : Core) = k0
  have h : k0.eqButQ ((((k0.landQ cyc who 4 q4).landQ cyc who 5 q5).landQ cyc who 6 q6).landQ cyc who 7 q7) :=
    (((k0.eqButQ_refl.landQ ..).landQ ..).landQ ..).landQ ..
  have hq : ∀ r, ((((k0.landQ cyc who 4 q4).landQ cyc who 5 q5).landQ cyc who 6 q6).landQ cyc who 7 q7).readQ r =
      if r = 4 then q4 else if r = 5 then q5 else if r = 6 then q6 else if r = 7 then q7 else k.readQ r := fun r => by
    have h0 : k0.readQ r = k.readQ r := by rw [← hk0]; rfl
    simp only [Core.readQ_landQ, h0]
    fin_cases r <;> simp [Core.readQ]
  generalize (((k0.landQ cyc who 4 q4).landQ cyc who 5 q5).landQ cyc who 6 q6).landQ cyc who 7 q7 = k' at h hq ⊢
  subst hk0
  refine ⟨congrArg (·.regs.lcN) h, congrArg (·.regs.lcE) h, congrArg (·.regs.rb) h, hq, ?_⟩
  exact congrArg (fun j : Core => { j with
    regs := { j.regs with lcN := k.regs.lcN, lcE := k.regs.lcE, rb := k.regs.rb }, marks := k.marks }) h

theorem systemWritesLand : Claims.SystemWritesLand := by
  refine ⟨fun x => ?_, loopLands, fun x => ?_, fun i x => ?_, fun x => ?_, fun x => ?_⟩
  · refine Lands.of_modCore (fun cyc who k => (List.finRange 8).foldl (fun k i => k.landQ cyc who i (x.getLsbD i.val)) k)
      (fun _ _ _ => rfl) fun cyc who k => ?_
    obtain ⟨hk, hq⟩ := k.landQs_spec cyc who x (List.finRange 8)
    exact ⟨fun r => by simpa using hq r, hk⟩
  · refine Lands.of_modCore (fun _ _ k => ({ k with regs := { k.regs with cbase := x } } : Core).unmark .cbase 0) (fun _ _ _ => rfl)
      fun _ _ k => ?_
    obtain ⟨ms, hu⟩ := Core.unmark_eq { k with regs := { k.regs with cbase := x } } .cbase 0
    rw [hu]
    exact ⟨rfl, rfl⟩
  · refine Lands.of_modCore (fun _ _ k => { k with
      cbank := k.cbank.set i.toNat x (by have := i.isLt; omega)
      marks := k.marks.filter fun m => !(m.store == .cbank && m.unit == i.toNat) }) (fun _ _ _ => rfl) fun _ _ k => ⟨fun j => ?_, rfl⟩
    simp [Vector.getElem_set, eq_comm]
  · exact Lands.of_modCore (fun _ _ k => { k with regs := { k.regs with tvec := x } }) (fun _ _ _ => rfl) fun _ _ _ => rfl
  · exact Lands.of_modCore (fun _ _ k => { k with regs := { k.regs with latch := x } }) (fun _ _ _ => rfl) fun _ _ _ => rfl

/-! ### FLASHLOG (R89) -/

/-- The number of the lowest class of a result. -/
def lowestClass (cl : BitVec 4) : Fin 4 := if cl.getLsbD 0 then 0 else if cl.getLsbD 1 then 1 else if cl.getLsbD 2 then 2 else 3

theorem lowestClass_spec {cl : BitVec 4} (h : cl ≠ 0) :
    cl.getLsbD (lowestClass cl).val = true ∧ ∀ i : Fin 4, i.val < (lowestClass cl).val → cl.getLsbD i.val = false := by
  revert h; revert cl; decide

/-- The flash log with the sticky flags of a result. -/
def sticky (f : W64) (cl : BitVec 4) : W64 := f ||| (cl.zeroExtend 64 <<< 32)

/-- The record of a result: its address, slot and lowest class, and the valid bit. -/
def flashEntry (slot addr : Nat) (cl : BitVec 4) : Nat :=
  addr % 2 ^ 19 + 2 ^ 19 * (slot % 8) + 2 ^ 22 * (lowestClass cl).val + 2 ^ 24

/-- The record stays below the sticky flags. -/
theorem flashEntry_lt (slot addr : Nat) (cl : BitVec 4) : flashEntry slot addr cl < 2 ^ 25 := by
  unfold flashEntry; omega

/-- The log takes the flags of a result with a class, and its record where it holds none. -/
theorem Core.flashRecord_of_ne {cl : BitVec 4} (h : cl ≠ 0) (k : Core) (slot addr : Nat) :
    k.flashRecord slot addr cl = { k with regs := { k.regs with
      flash := if (sticky k.regs.flash cl).getLsbD 24 then sticky k.regs.flash cl
        else sticky k.regs.flash cl ||| BitVec.ofNat 64 (flashEntry slot addr cl) } } := by
  have hlow : (if cl.getLsbD 0 then 0 else if cl.getLsbD 1 then 1 else if cl.getLsbD 2 then 2 else 3) = (lowestClass cl).val := by
    revert cl; decide
  simp only [Core.flashRecord, if_neg h, hlow]
  rfl

theorem sticky_getLsbD_high (f : W64) (cl : BitVec 4) (i : Fin 4) :
    (sticky f cl).getLsbD (32 + i.val) = (f.getLsbD (32 + i.val) || cl.getLsbD i.val) := by
  have : 32 + i.val < 64 ∧ i.val < 64 := by omega
  simp [sticky, this]

theorem sticky_getLsbD_low (f : W64) (cl : BitVec 4) {i : Nat} (h : i < 32) : (sticky f cl).getLsbD i = f.getLsbD i := by
  simp [sticky, h]

/-- The flags leave what lies below them. -/
theorem sticky_toNat_mod (f : W64) (cl : BitVec 4) {n : Nat} (h : n ≤ 32) : (sticky f cl).toNat % 2 ^ n = f.toNat % 2 ^ n := by
  refine Nat.eq_of_testBit_eq fun i => ?_
  rw [Nat.testBit_mod_two_pow, Nat.testBit_mod_two_pow, BitVec.testBit_toNat, BitVec.testBit_toNat]
  by_cases hi : i < n
  · rw [sticky_getLsbD_low f cl (by omega)]
  · simp [hi]

theorem flashEntry_getLsbD_high (slot addr : Nat) (cl : BitVec 4) (i : Fin 4) :
    (BitVec.ofNat 64 (flashEntry slot addr cl)).getLsbD (32 + i.val) = false := by
  have h : 2 ^ 25 ≤ 2 ^ (32 + i.val) := Nat.pow_le_pow_right (by omega) (by omega)
  rw [BitVec.getLsbD_ofNat, Nat.testBit_lt_two_pow ((flashEntry_lt slot addr cl).trans_le h), Bool.and_false]

theorem flashLogKeepsFirst : Claims.FlashLogKeepsFirst := by
  intro slot addr cl hs ha
  refine Lands.of_modCore (fun _ _ k => k.flashRecord slot addr cl) (fun _ _ _ => rfl) fun _ _ k => ?_
  by_cases hcl : cl = 0
  · subst hcl
    simp [Core.flashRecord]
  rw [Core.flashRecord_of_ne hcl]
  refine ⟨rfl, (absurd · hcl), fun i => ?_, fun hv => ?_, fun h0 _ => ?_⟩
  · dsimp only
    split
    · exact sticky_getLsbD_high ..
    · rw [BitVec.getLsbD_or, flashEntry_getLsbD_high, Bool.or_false, sticky_getLsbD_high]
  · dsimp only
    rw [if_pos (by rw [sticky_getLsbD_low _ _ (by omega), hv]), sticky_toNat_mod _ _ (by omega)]
  · refine ⟨lowestClass cl, (lowestClass_spec hcl).1, (lowestClass_spec hcl).2, ?_⟩
    have hlt := flashEntry_lt slot addr cl
    have hm : (sticky 0 cl).toNat % 2 ^ 32 = 0 := sticky_toNat_mod 0 cl le_rfl
    have he : flashEntry slot addr cl = addr + 2 ^ 19 * slot + 2 ^ 22 * (lowestClass cl).val + 2 ^ 24 := by
      unfold flashEntry; omega
    dsimp only
    rw [h0, if_neg (by rw [sticky_getLsbD_low _ _ (by omega)]; simp), BitVec.toNat_or, Nat.or_mod_two_pow, hm, ← he, Nat.zero_or,
      BitVec.toNat_ofNat]
    omega

/-- Settles O48: each landing changes one core by a function that writes its register, parity and the signature alone. -/
theorem writesLand : Obligations.WritesLand := ⟨registerWritesLand, systemWritesLand, flashLogKeepsFirst⟩

end Sys2Proof.Machine

/-! PROOFS. The issue of a slot form (O9, R9, R60): what it reports and posts, and that it leaves every register and memory as it was. -/

namespace Sys2Proof.Machine

open Sys2Proof

/-! ### States that agree but for the agenda and a part of each core -/

/-- Two states agree but for the agenda and what e erases of every core. -/
def State.keeps (e : Core → Core) (s t : State) : Prop :=
  { t with cores := s.cores, agenda := s.agenda } = s ∧ ∀ c, e (t.core c) = e (s.core c)

/-- Whatever an instruction answers as the next state agrees with s in this way. -/
structure Result.keeps (e : Core → Core) (s : State) (r : Result) : Prop where
  of_next : ∀ {t : State}, r = .next t → s.keeps e t

theorem Result.keeps_next {e : Core → Core} {s t : State} (h : s.keeps e t) : Result.keeps e s (.next t) :=
  ⟨by rintro _ ⟨⟩; exact h⟩

section Keeps

variable {e : Core → Core} {s t u : State}

theorem State.keeps_refl (e : Core → Core) (s : State) : s.keeps e s := ⟨rfl, fun _ => rfl⟩

theorem State.keeps.trans (h : s.keeps e t) (h' : t.keeps e u) : s.keeps e u := by
  refine ⟨?_, fun c => (h'.2 c).trans (h.2 c)⟩
  rw [← h.1, ← h'.1]

/-- An eraser that erases no less sees no more. -/
theorem State.keeps.mono {e' : Core → Core} (h : s.keeps e t) (he : ∀ k, e' (e k) = e' k) : s.keeps e' t :=
  ⟨h.1, fun c => by rw [← he (t.core c), h.2 c, he]⟩

theorem State.keeps_post (e : Core → Core) (s : State) (it : Item) : s.keeps e (s.post it) := ⟨rfl, fun _ => rfl⟩

theorem State.keeps_later (e : Core → Core) (s : State) (cyc prio : Nat) (ev : Ev) : s.keeps e (s.later cyc prio ev) := s.keeps_post e _

theorem State.keeps_modCore (s : State) (c : Nat) {f : Core → Core} (hf : ∀ k, e (f k) = e k) : s.keeps e (s.modCore c f) := by
  refine ⟨rfl, fun d => ?_⟩
  rw [State.core_modCore]
  split
  · subst_vars; exact hf _
  · rfl

theorem State.keeps_modCur (s : State) {f : Core → Core} (hf : ∀ k, e (f k) = e k) : s.keeps e (s.modCur f) := s.keeps_modCore _ hf

/-- Under a false guard a form does nothing (R61). -/
theorem State.slot_keeps {g : Guard} {f : State → State} (h : s.keeps e (f s)) : Result.keeps e s (s.slot g f) := by
  refine Result.keeps_next ?_
  split
  · exact h
  · exact s.keeps_refl e

end Keeps

/-! ### What a core keeps -/

/-- A core but for the errors of the cycle and the bundle in issue. -/
def Core.plain (k : Core) : Core := { k with errs := [], issued := none }

/-- A core but for those and the random generator. -/
def Core.undrawn (k : Core) : Core := { k.plain with regs := { k.regs with rngs := 0 } }

/-- A core but for those and a pending return from the handler. -/
def Core.unreturned (k : Core) : Core := { k.plain with rfd := false }

/-- A core but for those and what a fence orders. -/
def Core.unfenced (k : Core) : Core := { k.plain with loose := [], win := k.win.map fun w => { w with opened := [] } }

/-! ### The shared operations of the slots -/

section Operations

variable (s : State)

theorem State.keeps_result (lat : Nat) (l : Land) : s.keeps Core.plain (s.result lat l) := s.keeps_later ..

theorem State.keeps_raiseOn (c : Nat) (e : Err) : s.keeps Core.plain (s.raiseOn c e) := by
  unfold State.raiseOn
  refine (s.keeps_modCore c ?_).trans (State.keeps_post ..)
  exact fun _ => rfl

theorem State.keeps_trap (cls info : Nat) : s.keeps Core.plain (s.trap cls info) := s.keeps_raiseOn ..

theorem State.keeps_modIssued (f : Issued → Issued) : s.keeps Core.plain (s.modIssued f) := s.keeps_modCur fun _ => rfl

theorem State.keeps_take (target : Nat) : s.keeps Core.plain (s.take target) := by
  unfold State.take
  split
  · exact s.keeps_trap ..
  · exact s.keeps_modIssued _

theorem State.keeps_takeReg (a : Sel) {f : Nat → State → State} (h : ∀ n, s.keeps Core.plain (f n s)) :
    s.keeps Core.plain (s.takeReg a f) := by
  unfold State.takeReg
  dsimp only
  split
  · exact s.keeps_trap ..
  · exact h _

theorem State.keeps_callTo (d : Fin 32) (target : Nat) : s.keeps Core.plain (s.callTo d target) := by
  unfold State.callTo
  split
  · exact s.keeps_trap ..
  · split
    · exact s.keeps_trap ..
    · exact (s.keeps_take _).trans (State.keeps_result ..)

/-- A scalar result that R384 turns away is a report alone. -/
theorem State.keeps_putThen (d : Fin 32) (lat : Nat) (x : W64) {f : State → State} (hf : ∀ t : State, t.keeps Core.plain (f t)) :
    s.keeps Core.plain (s.putThen d lat x f) := by
  unfold State.putThen
  split
  · exact s.keeps_trap ..
  · exact (s.keeps_result ..).trans (hf _)

theorem State.keeps_putS (d : Fin 32) (lat : Nat) (x : W64) : s.keeps Core.plain (s.putS d lat x) :=
  s.keeps_putThen d lat x fun t => t.keeps_refl _

theorem State.keeps_flags (lat : Nat) (cl : Classes) : s.keeps Core.plain (s.flags lat cl) := by
  unfold State.flags
  split
  · exact s.keeps_refl _
  · exact s.keeps_result ..

theorem State.keeps_putF (d : Fin 32) (lat : Nat) (r : Nat × Classes) : s.keeps Core.plain (s.putF d lat r) :=
  s.keeps_putThen d lat _ fun t => t.keeps_flags ..

theorem State.keeps_putV (d : Fin 32) (lat : Nat) (m x : VReg) : s.keeps Core.plain (s.putV d lat m x) := s.keeps_result ..

theorem State.keeps_putK (d : Fin 8) (m x : KReg) : s.keeps Core.plain (s.putK d m x) := s.keeps_result ..

theorem State.keeps_putQ (d : Fin 8) (x : Bool) : s.keeps Core.plain (s.putQ d x) := s.keeps_result ..

/-- A vector result with its classes. -/
theorem State.keeps_putV_flags (d : Fin 32) (lat : Nat) (m x : VReg) (lat' : Nat) (cl : Classes) :
    s.keeps Core.plain ((s.putV d lat m x).flags lat' cl) := (s.keeps_putV ..).trans (State.keeps_flags ..)

theorem State.keeps_putVF (d : Fin 32) (lat w : Nat) (k : KReg) (rs : List (Nat × Classes)) :
    s.keeps Core.plain (s.putVF d lat w k rs) := s.keeps_putV_flags ..

theorem State.keeps_drawWords (c n : Nat) : s.keeps Core.undrawn (s.drawWords c n).2 := s.keeps_modCore c fun _ => rfl

theorem State.keeps_load (r : LoadReq) : s.keeps Core.plain (s.load r) := s.keeps_later ..

theorem State.keeps_storeBytes (bs : List (Nat × Byte)) : s.keeps Core.plain (s.storeBytes bs) := s.keeps_result ..

theorem State.keeps_mayWrite (d : Fin 32) {f : State → State} (h : s.keeps Core.plain (f s)) : s.keeps Core.plain (s.mayWrite d f) := by
  unfold State.mayWrite
  split
  · exact s.keeps_trap ..
  · exact h

theorem State.keeps_access (ea n align : Nat) {f : State → State} (h : s.keeps Core.plain (f s)) :
    s.keeps Core.plain (s.access ea n align f) := by
  unfold State.access
  split
  · exact h
  · exact s.keeps_trap ..

theorem State.keeps_vaccess (ea : Nat) (m : VReg) {f : State → State} (h : s.keeps Core.plain (f s)) :
    s.keeps Core.plain (s.vaccess ea m f) := by
  unfold State.vaccess
  split
  · exact h
  · exact s.keeps_trap ..

theorem State.keeps_vload (d : Fin 32) (ea : Nat) (m : VReg) : s.keeps Core.plain (s.vload d ea m) :=
  s.keeps_vaccess ea m (s.keeps_load _)

theorem State.keeps_vstore (d : Fin 32) (ea : Nat) (m : VReg) (w : Nat) : s.keeps Core.plain (s.vstore d ea m w) := by
  refine s.keeps_vaccess ea m ?_
  dsimp only
  split
  · exact s.keeps_result ..
  · exact s.keeps_storeBytes _

theorem State.keeps_scattered (es : List (Nat × Nat)) {f : State → State} (h : s.keeps Core.plain (f s)) :
    s.keeps Core.plain (s.scattered es f) := by
  unfold State.scattered
  split
  · exact s.keeps_trap ..
  · split
    · exact s.keeps_trap ..
    · exact h

/-- A fence changes the orders of what is unordered, and what an open window serves (R298). -/
theorem State.keeps_fence (c : Nat) (p q : PathClass) : s.keeps Core.unfenced (s.fence c p q) := by
  unfold State.fence
  split
  · exact s.keeps_refl _
  · refine s.keeps_modCore c fun k => ?_
    dsimp only
    split
    · simp only [Core.unfenced, Core.plain, Vector.map_map]
      rfl
    · rfl

end Operations

/-! ### The shapes of the forms -/

section Forms

variable (s : State) (g : Guard)

theorem State.alu2_keeps (d : Fin 32) (a b : Sel) (f : W64 → W64 → W64) : Result.keeps Core.plain s (s.alu2 g d a b f) :=
  s.slot_keeps (s.keeps_putS ..)

theorem State.alu1_keeps (d : Fin 32) (a : Sel) (f : W64 → W64) : Result.keeps Core.plain s (s.alu1 g d a f) :=
  s.slot_keeps (s.keeps_putS ..)

theorem State.cmp2_keeps (d : Fin 8) (a b : Sel) (f : W64 → W64 → Bool) : Result.keeps Core.plain s (s.cmp2 g d a b f) :=
  s.slot_keeps (s.keeps_putQ ..)

theorem State.cmpI_keeps (d : Fin 8) (a : Sel) (imm : BitVec 11) (f : W64 → W64 → Bool) :
    Result.keeps Core.plain s (s.cmpI g d a imm f) := s.slot_keeps (s.keeps_putQ ..)

theorem State.logicQ_keeps (d : Fin 8) (a b : PSel) (f : Bool → Bool → Bool) : Result.keeps Core.plain s (s.logicQ g d a b f) :=
  s.slot_keeps (s.keeps_putQ ..)

theorem State.fp2_keeps (d : Fin 32) (a b : Sel) (f : Nat → Nat → Nat × Classes) : Result.keeps Core.plain s (s.fp2 g d a b f) :=
  s.slot_keeps (s.keeps_putF ..)

theorem State.fcmp_keeps (d : Fin 8) (a b : Sel) (f : FVal → FVal → Bool) : Result.keeps Core.plain s (s.fcmp g d a b f) :=
  s.slot_keeps (s.keeps_putQ ..)

theorem State.vint_keeps (d : Fin 32) (a b : Sel) (k : Fin 8) (t : IType) (f : Nat → Nat → Nat → Nat) :
    Result.keeps Core.plain s (s.vint g d a b k t f) := s.slot_keeps (s.keeps_putV ..)

theorem State.vimm_keeps (d : Fin 32) (a : Sel) (f : BitVec 32 → BitVec 32) : Result.keeps Core.plain s (s.vimm g d a f) :=
  s.slot_keeps (s.keeps_putV ..)

theorem State.vcmp_keeps (d : Fin 8) (a b : Sel) (k : Fin 8) (w one : Nat) (f : Nat → Nat → Bool) :
    Result.keeps Core.plain s (s.vcmp g d a b k w one f) := s.slot_keeps (s.keeps_putK ..)

theorem State.logicK_keeps (d : Fin 8) (a b : KSel) (f : KReg → KReg → KReg) : Result.keeps Core.plain s (s.logicK g d a b f) :=
  s.slot_keeps (s.keeps_putK ..)

theorem State.ksetBy_keeps (d : Fin 8) (a : Sel) (wd : Width) (f : Nat → Nat → Bool) : Result.keeps Core.plain s (s.ksetBy g d a wd f) :=
  s.slot_keeps (s.keeps_putK ..)

theorem State.vfp_keeps (d : Fin 32) (a b : Sel) (k : Fin 8) (t : FType) (lat : Nat) (f : Nat → Nat → Nat → Nat × Classes) :
    Result.keeps Core.plain s (s.vfp g d a b k t lat f) := s.slot_keeps (s.keeps_putVF ..)

theorem State.vfi_keeps (d : Fin 32) (f : Nat → Nat × Classes) : Result.keeps Core.plain s (s.vfi d f) :=
  Result.keeps_next (s.keeps_putVF ..)

theorem State.special_keeps (d : Fin 32) (a : Sel) (k : Fin 8) (f : Nat → Nat × Classes) :
    Result.keeps Core.plain s (s.special g d a k f) := s.slot_keeps (s.keeps_putVF ..)

theorem execLoop_keeps (off : BitVec 22) : Result.keeps Core.plain s (execLoop g off s) := by
  refine s.slot_keeps ?_
  dsimp only
  split
  · exact s.keeps_trap ..
  · split
    · exact (s.keeps_result ..).trans (State.keeps_take ..)
    · exact s.keeps_result ..

theorem execVscan_keeps (d : Fin 32) (a c : Sel) (k : Fin 8) (v : Fin 3) : Result.keeps Core.plain s (execVscan g d a c k v s) := by
  refine s.slot_keeps ?_
  dsimp only
  split
  · exact s.keeps_putV_flags ..
  · exact s.keeps_putVF ..

theorem execVredi_keeps (d : Fin 32) (a c : Sel) (k : Fin 8) (t : IType) : Result.keeps Core.plain s (execVredi g d a c k t s) := by
  refine s.slot_keeps ?_
  dsimp only
  split
  · exact s.keeps_putV_flags ..
  · split
    · exact s.keeps_refl _
    · exact s.keeps_putV_flags ..

/-- A taken RFD marks the return that follows its delay bundle (R376). -/
theorem execRfd_keeps : Result.keeps Core.unreturned s (execRfd g s) := by
  refine s.slot_keeps ?_
  split
  · exact (s.keeps_trap ..).mono fun _ => rfl
  · exact ((s.keeps_take _).mono fun _ => rfl).trans (State.keeps_modCur _ fun _ => rfl)

theorem execXfence_keeps (p q : PathClass) : Result.keeps Core.unfenced s (execXfence g p q s) :=
  s.slot_keeps ((s.keeps_fence ..).trans ((State.keeps_modIssued ..).mono fun _ => rfl))

/-! ### The forms that may draw (R109) -/

theorem State.keeps.undrawn {t : State} (h : s.keeps Core.plain t) : s.keeps Core.undrawn t := h.mono fun _ => rfl

theorem State.fcvt_keeps (d : Fin 32) (c : Sel) (f : State → Nat → Nat → Nat × Classes) :
    Result.keeps Core.undrawn s (s.fcvt g d c f) := by
  refine s.slot_keeps ?_
  dsimp only
  split
  · exact (s.keeps_trap ..).undrawn
  · split
    · exact (s.keeps_drawWords ..).trans (State.keeps_putF ..).undrawn
    · exact (s.keeps_putF ..).undrawn

theorem State.conv_keeps (v : Conv) (d : Fin 32) (a cs : Sel) (km : Fin 8) : Result.keeps Core.undrawn s (s.conv v g d a cs km) := by
  refine s.slot_keeps ?_
  dsimp only
  split
  · split
    · exact (s.keeps_drawWords ..).trans (State.keeps_putV_flags ..).undrawn
    · exact (s.keeps_putV_flags ..).undrawn
  · exact (s.keeps_putV_flags ..).undrawn

theorem execVredf_keeps (d : Fin 32) (a c : Sel) (k : Fin 8) (t : FType) : Result.keeps Core.undrawn s (execVredf g d a c k t s) := by
  refine s.slot_keeps ?_
  dsimp only
  split
  · exact (s.keeps_putV_flags ..).undrawn
  · split
    · exact s.keeps_refl _
    · split
      · split
        · exact (s.keeps_drawWords ..).trans (State.keeps_putV_flags ..).undrawn
        · exact (s.keeps_putV_flags ..).undrawn
      · exact (s.keeps_putV_flags ..).undrawn

theorem execVrand_keeps (d : Fin 32) (k : Fin 8) : Result.keeps Core.undrawn s (execVrand g d k s) := by
  unfold execVrand
  have h := s.keeps_drawWords s.focus.core.val 128
  generalize hd : s.drawWords s.focus.core.val 128 = x at h
  refine s.slot_keeps ?_
  rw [hd]
  exact h.trans (State.keeps_putV ..).undrawn

end Forms

/-! ### Every form -/

/-- Whether an instruction stands in a scalar, vector, special-function or memory slot. -/
def isSlotForm (i : Instr) : Bool :=
  match i.space with
  | .scalar | .vector | .special | .memory => true
  | _ => false

theorem isSlotForm_of_space {i : Instr} (h : i.space = .scalar ∨ i.space = .vector ∨ i.space = .special ∨ i.space = .memory) :
    isSlotForm i = true := by
  unfold isSlotForm
  rcases h with h | h | h | h <;> rw [h]

/-- A form that draws changes the generator alone. -/
theorem exec_keeps_undrawn {i : Instr} (h : i.mayDraw = true) (s : State) : Result.keeps Core.undrawn s (exec i s) := by
  cases i with (unfold exec)
  | vrand g d k => exact execVrand_keeps s g d k
  | vredf g d a c k t => exact execVredf_keeps s g d a c k t
  | vcvtf | vcvti | vcvtif | vwiden | vnarrow => exact s.conv_keeps ..
  | fcvtI64F32 | fcvtF32I64 | fcvtF16F32 | fcvtBf16F32 | fcvtF32F16 | fcvtF32Bf16 => exact s.fcvt_keeps ..
  | _ => cases h

/-- A form that draws nothing, other than RFD and XFENCE, reports and posts alone. -/
theorem exec_keeps_plain {i : Instr} (h : isSlotForm i = true) (hd : i.mayDraw = false) (hr : ∀ g, i ≠ .rfd g) (hx : ∀ g p q, i ≠ .xfence g p q)
    (s : State) : Result.keeps Core.plain s (exec i s) := by
  cases i with (unfold exec)
  | add | sub | and | or | xor | andn | min | max | minl | maxl | shl | shr | sra | rol | mul | mulh | mulhl | extr | addsh =>
    exact s.alu2_keeps ..
  | clz | ctz | popc | brev | addi | andi | ori | xori | shli | shri | srai | mov => exact s.alu1_keeps ..
  | cmpeq | cmpne | cmplt | cmple | cmplo | cmpls => exact s.cmp2_keeps ..
  | cmpeqi | cmplti | cmploi => exact s.cmpI_keeps ..
  | pand | por | pxor | pandn => exact s.logicQ_keeps ..
  | fadd | fsub | fmul | fmin | fmax => exact s.fp2_keeps ..
  | fcmpeq | fcmplt | fcmple | fcmpun => exact s.fcmp_keeps ..
  | ins | pkq | rdtimeFrac | rdcad | rdpcyc | rdcore | rdtrap => exact s.slot_keeps (s.keeps_putS ..)
  | fabs | fneg | fma | fmaD => exact s.slot_keeps (s.keeps_putF ..)
  | upkq | lcset | setcb | cbwr | settv => exact s.slot_keeps (s.keeps_result ..)
  | movi | movhi | addl | fmovi => exact Result.keeps_next (s.keeps_putS ..)
  | faddi | fmuli => exact Result.keeps_next (s.keeps_putF ..)
  | br => exact s.slot_keeps (s.keeps_take _)
  | call => exact s.slot_keeps (s.keeps_callTo ..)
  | jr => exact s.slot_keeps (s.keeps_takeReg _ fun _ => s.keeps_take _)
  | jalr => exact s.slot_keeps (s.keeps_takeReg _ fun _ => s.keeps_callTo ..)
  | loop => exact execLoop_keeps ..
  | nopw | waitt => exact s.slot_keeps (s.keeps_modIssued _)
  | trap => exact s.slot_keeps (s.keeps_trap ..)
  | rdtime => exact s.slot_keeps (s.keeps_putThen _ _ _ fun t => t.keeps_result ..)
  | flog => exact s.slot_keeps (s.keeps_putThen _ _ _ fun t => t.keeps_later ..)
  | rfd => exact absurd rfl (hr _)
  | xfence => exact absurd rfl (hx _ _ _)
  | vadd | vsub | vmul | vmin | vmax | vminl | vmaxl | vand | vor | vxor | vshl | vshr | vsra | vadds | vsubs => exact s.vint_keeps ..
  | vaddi | vandi | vshli | vshri | vsrai => exact s.vimm_keeps ..
  | vcmpeq | vcmplt | vcmple | vfcmpeq | vfcmplt | vfcmple | vfcmpun => exact s.vcmp_keeps ..
  | vfadd | vfsub | vfmul | vfma | vfmad | vfmin | vfmax | vfabs | vfneg => exact s.vfp_keeps ..
  | vfaddi | vfmuli => exact s.vfi_keeps ..
  | vfmovi | vmovi => exact Result.keeps_next (s.keeps_putV ..)
  | vsel | vmov | vperm | vshuf | vrot | vbcst => exact s.slot_keeps (s.keeps_putV ..)
  | kand | kor | kxor | kandn => exact s.logicK_keeps ..
  | ksetNz | ksetNeg => exact s.ksetBy_keeps ..
  | ksetFirst => exact s.slot_keeps (s.keeps_putK ..)
  | vscan => exact execVscan_keeps ..
  | vredi => exact execVredi_keeps ..
  | exp2 | log2 | sqrt | sin | cos | tanh | sigm | rcp | rsq => exact s.special_keeps ..
  | rcpnr | rsqnr => exact s.slot_keeps (s.keeps_putVF ..)
  | vrandSeed => exact s.slot_keeps (s.keeps_later ..)
  | ld | ldi => exact s.slot_keeps (s.keeps_mayWrite _ (s.keeps_access _ _ _ (s.keeps_load _)))
  | st | sti | kst => exact s.slot_keeps (s.keeps_access _ _ _ (s.keeps_storeBytes _))
  | kld | vldb => exact s.slot_keeps (s.keeps_access _ _ _ (s.keeps_load _))
  | vld | vldi => exact s.slot_keeps (s.keeps_vload ..)
  | vst | vsti => exact s.slot_keeps (s.keeps_vstore ..)
  | vlds | vldx => exact s.slot_keeps (s.keeps_scattered _ (s.keeps_load _))
  | vsts | vstx => exact s.slot_keeps (s.keeps_scattered _ (s.keeps_storeBytes _))
  | vrand | vredf | vcvtf | vcvti | vcvtif | vwiden | vnarrow | fcvtI64F32 | fcvtF32I64 | fcvtF16F32 | fcvtBf16F32 | fcvtF32F16
  | fcvtF32Bf16 => cases hd
  | _ => cases h

/-- What agrees but for an eraser that O9's exceptions cover agrees as O9 says. -/
theorem State.keeps.sameBut {e : Core → Core} {s t : State} (h : s.keeps e t) (he : ∀ k, (e k).kept = k.kept) : s.sameBut t :=
  h.mono he

/-- Settles O9: each form answers s with reports, posts and, where it draws, returns or fences, the one change that goes with it. -/
theorem issueChangesNothingElse : Obligations.IssueChangesNothingElse := by
  intro i s t hi ht
  by_cases hr : ∃ g, i = .rfd g
  · obtain ⟨g, rfl⟩ := hr
    have h := (execRfd_keeps s g).of_next ht
    exact ⟨h.sameBut fun _ => rfl, fun _ c => congrArg (·.regs.rngs) (h.2 c), fun hg => absurd rfl (hg g),
      fun _ c => ⟨congrArg (·.loose) (h.2 c), congrArg (·.win) (h.2 c)⟩⟩
  by_cases hx : ∃ g p q, i = .xfence g p q
  · obtain ⟨g, p, q, rfl⟩ := hx
    have h := (execXfence_keeps s g p q).of_next ht
    have hk : ∀ k : Core, k.unfenced.kept = k.kept := fun k => by
      simp only [Core.unfenced, Core.plain, Core.kept, Vector.map_map]
      rfl
    exact ⟨h.sameBut hk, fun _ c => congrArg (·.regs.rngs) (h.2 c), fun _ c => congrArg (·.rfd) (h.2 c),
      fun hg => absurd rfl (hg g p q)⟩
  cases hd : i.mayDraw with
  | true =>
    have h := (exec_keeps_undrawn hd s).of_next ht
    exact ⟨h.sameBut fun _ => rfl, (nomatch ·), fun _ c => congrArg (·.rfd) (h.2 c),
      fun _ c => ⟨congrArg (·.loose) (h.2 c), congrArg (·.win) (h.2 c)⟩⟩
  | false =>
    have h := exec_keeps_plain (isSlotForm_of_space hi) hd (fun g e => hr ⟨g, e⟩) (fun g p q e => hx ⟨g, p, q, e⟩) s |>.of_next ht
    exact ⟨h.sameBut fun _ => rfl, fun _ c => congrArg (·.regs.rngs) (h.2 c), fun _ c => congrArg (·.rfd) (h.2 c),
      fun _ c => ⟨congrArg (·.loose) (h.2 c), congrArg (·.win) (h.2 c)⟩⟩

end Sys2Proof.Machine

/-! PROOFS. The memories keep their canonical form (O26): the form is an invariant of each operation, and so of every step. -/

namespace Sys2Proof.Machine

open Sys2Proof

/-! ### The form under the updates of a core and of the state -/

/-- What an instruction answers as the next state has its memories in canonical form. -/
structure Result.memWf (r : Result) : Prop where
  of_next : ∀ {t : State}, r = .next t → t.memWf

theorem State.memWf.next {t : State} (h : t.memWf) : Result.memWf (.next t) := ⟨by rintro _ ⟨⟩; exact h⟩

theorem Result.memWf.ite {p : Prop} [Decidable p] {a b : Result} (h : Result.memWf a) (h' : Result.memWf b) :
    Result.memWf (if p then a else b) := by
  split
  · exact h
  · exact h'

section Cores

variable {k k' : Core}

/-- A core with the memories of another has them in the same form. -/
theorem Core.memWf.same (h : k.memWf) (hs : k'.spm = k.spm := by rfl) (hd : k'.dmem = k.dmem := by rfl) (hi : k'.imem = k.imem := by rfl)
    (ha : k'.mx.abuf = k.mx.abuf := by rfl) (hb : k'.ch.hbm = k.ch.hbm := by rfl) : k'.memWf := by
  unfold Core.memWf
  rw [hs, hd, hi, ha, hb]
  exact h

theorem Core.memWf.ite {p : Prop} [Decidable p] (h : k.memWf) (h' : k'.memWf) : (if p then k else k').memWf := by
  split
  · exact h
  · exact h'

end Cores

section States

variable {s t : State}

/-- A state with the cores and the package memories of another has them in the same form. -/
theorem State.memWf.same (h : s.memWf) (hc : t.cores = s.cores := by rfl) (hk : t.chunk = s.chunk := by rfl)
    (hm : t.cmd = s.cmd := by rfl) : t.memWf := by
  unfold State.memWf State.core
  rw [hc, hk, hm]
  exact h

theorem State.memWf.core (h : s.memWf) (c : Nat) : (s.core c).memWf := h.2.2 c

theorem State.memWf.ite {p : Prop} [Decidable p] (h : s.memWf) (h' : t.memWf) : (if p then s else t).memWf := by
  split
  · exact h
  · exact h'

/-- A change that is made on a condition. -/
theorem State.memWf.when {p : Prop} [Decidable p] (h : s.memWf) (h' : s.memWf → t.memWf) : (if p then t else s).memWf := (h' h).ite h

/-- A change that is made but on a condition. -/
theorem State.memWf.unless {p : Prop} [Decidable p] (h : s.memWf) (h' : s.memWf → t.memWf) : (if p then s else t).memWf := h.ite (h' h)

theorem State.memWf.foldl {α : Type} {f : State → α → State} {xs : List α} (h : s.memWf) (hf : ∀ t x, t.memWf → (f t x).memWf) :
    (xs.foldl f s).memWf := by
  induction xs generalizing s with
  | nil => exact h
  | cons x xs ih => exact ih (hf s x h)

/-- The state of a pair. -/
theorem State.memWf.of_eq {α : Type} {x : α × State} {a : α} (h : x.2.memWf) (e : x = (a, t)) : t.memWf := by
  subst e
  exact h

theorem State.memWf.setCore {c : Nat} {k : Core} (h : s.memWf) (hk : k.memWf) : (s.setCore c k).memWf := by
  refine ⟨h.1, h.2.1, fun d => ?_⟩
  by_cases hd : d = c
  · rw [hd, State.core_setCore_same]; exact hk
  · rw [State.core_setCore_other _ _ hd]; exact h.core d

theorem State.memWf.modCore {c : Nat} {f : Core → Core} (h : s.memWf) (hf : ∀ k, k.memWf → (f k).memWf) : (s.modCore c f).memWf :=
  h.setCore (hf _ (h.core c))

theorem State.memWf.modCur {f : Core → Core} (h : s.memWf) (hf : ∀ k, k.memWf → (f k).memWf) : (s.modCur f).memWf := h.modCore hf

/-- An operation that O9's relation allows leaves the memories as they are. -/
theorem State.memWf.of_sameBut (h : s.memWf) (hs : s.sameBut t) : t.memWf := by
  obtain ⟨hp, hc⟩ := hs
  refine ⟨?_, ?_, fun c => (h.core c).same ?_ ?_ ?_ ?_ ?_⟩
  · rw [← hp] at h; exact h.1
  · rw [← hp] at h; exact h.2.1
  · exact congrArg (·.spm) (hc c)
  · exact congrArg (·.dmem) (hc c)
  · exact congrArg (·.imem) (hc c)
  · exact congrArg (·.mx.abuf) (hc c)
  · exact congrArg (·.ch.hbm) (hc c)

end States

/-! ### Each operation keeps the form

`State.memWf.f` (`Core.memWf.f`, `execF_memWf`) says that the operation `f` keeps it. Most operations write no memory and answer a chain of
operations that come before; those that write one (a landing, a chain's WR, a copy of pages, a load of an image, a saved context, an
accumulator, a message) write it by `Memory.storeAll`, which `Memory.wf_storeAll` covers. -/

section Operations

-- One lemma is elaborated after another: several hundred at a time, each thread with a stack of its own, exceed the memory limit.
set_option Elab.async false

variable {s : State} {k : Core}

/-! ### Posts, errors, drains, reads and landings -/

theorem State.memWf.post {it : Item} (h : s.memWf) : (s.post it).memWf := by
  unfold State.post
  exact h.same

theorem State.memWf.at {core cyc prio : Nat} {ev : Ev} (h : s.memWf) : (s.at core cyc prio ev).memWf := by
  unfold State.at
  exact h.post

theorem State.memWf.atLast {core cyc : Nat} {ev : Ev} (h : s.memWf) : (s.atLast core cyc ev).memWf := by
  unfold State.atLast
  exact h.post

theorem State.memWf.drop {core : Nat} {p : Ev → Bool} (h : s.memWf) : (s.drop core p).memWf := by
  unfold State.drop
  exact h.same

theorem State.memWf.fresh (h : s.memWf) : s.fresh.2.memWf := by
  unfold State.fresh
  exact h.same

theorem State.memWf.later {cyc prio : Nat} {ev : Ev} (h : s.memWf) : (s.later cyc prio ev).memWf := by
  unfold State.later
  exact h.at

theorem State.memWf.msi {v : Msi} (h : s.memWf) : (s.msi v).memWf := by
  unfold State.msi
  exact h.when (·.same)

theorem State.memWf.vector {v : Nat} (h : s.memWf) : (s.vector v).memWf := by
  unfold State.vector
  exact h.msi

theorem State.memWf.eventMsi {part cls act : Nat} (h : s.memWf) : (s.eventMsi part cls act).memWf := by
  unfold State.eventMsi
  split
  · exact h.vector
  · exact h

theorem State.memWf.pushEvent {part : Nat} {r : W64} (h : s.memWf) : (s.pushEvent part r).memWf := by
  unfold State.pushEvent
  exact State.memWf.ite h.same h.same

theorem State.memWf.postAt {part core cls : Nat} {act : Recovery} {cad : Nat} (h : s.memWf) :
    (s.postAt part core cls act cad).memWf := by
  unfold State.postAt
  exact (h.pushEvent.unless (·.same)).eventMsi

theorem State.memWf.postEvent {part core cls : Nat} {act : Recovery} (h : s.memWf) :
    (s.postEvent part core cls act).memWf := by
  unfold State.postEvent
  exact h.postAt

theorem State.memWf.postPackage {cls : Nat} (h : s.memWf) : (s.postPackage cls).memWf := by
  unfold State.postPackage
  exact h.foldl fun _ _ ht => ht.postAt

theorem State.memWf.raiseOn {c : Nat} {e : Err} (h : s.memWf) : (s.raiseOn c e).memWf := by
  unfold State.raiseOn
  exact (h.modCore fun _ hk => hk.same).at

theorem State.memWf.trap {cls info : Nat} (h : s.memWf) : (s.trap cls info).memWf := by
  unfold State.trap
  exact h.raiseOn

theorem Core.memWf.noteError {cls : Nat} {multi : Bool} (hk : k.memWf) : (k.noteError cls multi).memWf := by
  unfold Core.noteError
  exact hk.same

theorem Core.memWf.countUe {es : List Err} (hk : k.memWf) : (k.countUe es).memWf := by
  unfold Core.countUe
  exact hk.same

theorem Core.memWf.writeTrap {e : Err} {cad f drain : Nat} (hk : k.memWf) : (k.writeTrap e cad f drain).memWf := by
  unfold Core.writeTrap
  exact hk.same

theorem State.memWf.wakeIdle {c t : Nat} (h : s.memWf) : (s.wakeIdle c t).memWf := by
  unfold State.wakeIdle
  exact h.unless (·.post)

theorem State.memWf.stopChain {c t : Nat} (h : s.memWf) : (s.stopChain c t).memWf := by
  unfold State.stopChain
  exact (h.drop.modCore fun _ hk => hk.same).wakeIdle

theorem State.memWf.setDrain {c : Nat} {d : Drain} {own : Bool} (h : s.memWf) : (s.setDrain c d own).memWf := by
  unfold State.setDrain
  exact (h.modCore fun _ hk => hk.same).when (·.stopChain)

theorem State.memWf.beginDrain {c : Nat} {d : Drain} {own : Bool} (h : s.memWf) : (s.beginDrain c d own).memWf := by
  unfold State.beginDrain
  exact ((h.drop.modCore fun _ hk => hk.same).setDrain).atLast

theorem Core.memWf.arrive {cyc : Nat} {fence : W32} {pclass budget : Nat} {ends : Bool} (hk : k.memWf) :
    (k.arrive cyc fence pclass budget ends).memWf := by
  unfold Core.arrive
  exact hk.same

theorem State.memWf.checkArrival {c cyc : Nat} (h : s.memWf) : (s.checkArrival c cyc).memWf := by
  unfold State.checkArrival
  exact h.at

theorem State.memWf.failRecord {id : Nat} (h : s.memWf) : (s.failRecord id).memWf := by
  unfold State.failRecord
  extract_lets preps s1 s2
  have h1 : s1.memWf := h.foldl fun _ _ ht => ht.modCore fun _ hk => Core.memWf.ite hk.same hk
  have h2 : s2.memWf := h1.same
  exact h2.when (·.at)

theorem State.memWf.endTask {c cls : Nat} (h : s.memWf) : (s.endTask c cls).memWf := by
  unfold State.endTask
  extract_lets k s1 s2 s3
  have h1 : s1.memWf := by
    dsimp only [s1]
    split
    · exact h.unless (·.stopChain)
    · exact h
  have h2 : s2.memWf := h1.modCore fun _ hk => (hk.ite hk.arrive).same rfl
  have h3 : s3.memWf := by
    dsimp only [s3]
    split
    · exact h2.failRecord
    · exact h2
  exact h3.checkArrival

theorem State.memWf.corrected {c n : Nat} (h : s.memWf) : (s.corrected c n).memWf := by
  unfold State.corrected
  exact (h.modCore fun _ hk => hk.same).when (·.vector)

theorem State.memWf.fixes {c : Nat} {st : Store} {units : List Nat} (h : s.memWf) : (s.fixes c st units).memWf := by
  unfold State.fixes
  split
  · exact h
  · exact h.corrected

theorem Core.memWf.unmark {st : Store} {u : Nat} (hk : k.memWf) : (k.unmark st u).memWf := by
  unfold Core.unmark
  exact hk.ite hk.same

theorem Core.memWf.unmarkWords {st : Store} {n r : Nat} {whole : Nat → Bool} (hk : k.memWf) :
    (k.unmarkWords st n r whole).memWf := by
  unfold Core.unmarkWords
  exact hk.ite hk.same

theorem Core.memWf.unmarkAll {st : Store} (hk : k.memWf) : (k.unmarkAll st).memWf := by
  unfold Core.unmarkAll
  exact hk.ite hk.same

theorem Core.memWf.unmarkRegs (hk : k.memWf) : k.unmarkRegs.memWf := by
  unfold Core.unmarkRegs
  exact hk.ite hk.same

theorem State.memWf.restore {c e : Nat} (h : s.memWf) : (s.restore c e).memWf := by
  unfold State.restore
  dsimp only
  split
  · exact h
  · split
    · exact (h.modCore fun _ hk => hk.writeTrap.noteError.countUe).postEvent.endTask
    · exact (h.fixes.modCore fun _ hk => hk.unmarkRegs.same).at

theorem State.memWf.enterHandler {c e : Nat} {d : Drain} (h : s.memWf) : (s.enterHandler c e d).memWf := by
  unfold State.enterHandler
  exact (h.modCore fun _ hk => hk.same).at

theorem State.memWf.finishDrain {c : Nat} {d : Drain} (h : s.memWf) : (s.finishDrain c d).memWf := by
  unfold State.finishDrain
  extract_lets e k s1 s2 act s3
  have h2 : s2.memWf := (h.modCore fun _ hk => hk.writeTrap).modCore fun _ hk => hk.noteError
  have h3 : s3.memWf := h2.unless (·.postAt)
  clear_value act
  refine h2.enterHandler.ite ?_
  split
  · exact (h3.modCore fun _ hk => hk.same).restore
  · exact (h3.modCore fun _ hk => hk.same).endTask
  · exact h3.endTask

theorem State.memWf.finishRfd {c : Nat} {d : Drain} (h : s.memWf) : (s.finishRfd c d).memWf := by
  unfold State.finishRfd
  exact State.memWf.ite ((h.modCore fun _ hk => hk.same).restore) (((h.modCore fun _ hk => hk.noteError).postAt).endTask)

theorem State.memWf.raiseQuarantine {c cls : Nat} (h : s.memWf) : (s.raiseQuarantine c cls).memWf := by
  unfold State.raiseQuarantine
  exact h.postEvent.unless (·.same)

theorem State.memWf.lateFault {c : Nat} {e : Err} {multi : Bool} (h : s.memWf) : (s.lateFault c e multi).memWf := by
  unfold State.lateFault
  extract_lets k s1 s2
  have h1 : s1.memWf := h.when fun ht => ht.modCore fun _ hk => hk.noteError
  have h2 : s2.memWf := h1.unless (·.postEvent)
  split
  · exact h2.failRecord
  · exact h2

theorem State.memWf.errInDrain {c : Nat} {d : Drain} {e : Err} {multi stopped : Bool} (h : s.memWf) :
    (s.errInDrain c d e multi stopped).memWf := by
  unfold State.errInDrain
  dsimp only
  refine h.setDrain.ite (.ite ?_ (.ite ?_ (h.modCore fun _ hk => hk.noteError).postEvent))
  · exact (h.modCore fun _ hk => hk.same).postEvent.setDrain
  · exact ((h.when fun ht => ht.modCore fun _ hk => hk.same).unless (·.postAt)).setDrain

theorem State.memWf.errInRestore {c : Nat} {e : Err} {multi : Bool} (h : s.memWf) :
    (s.errInRestore c e multi).memWf := by
  unfold State.errInRestore
  exact (h.modCore fun _ hk => hk.same).postEvent

theorem State.memWf.resumeIssue {c : Nat} (h : s.memWf) : (s.resumeIssue c).memWf := by
  unfold State.resumeIssue
  exact h.unless (·.at)

theorem State.memWf.resumeParked {c : Nat} {d : Drain} (h : s.memWf) : (s.resumeParked c d).memWf := by
  unfold State.resumeParked
  exact (h.modCore fun _ hk => hk.same).resumeIssue

theorem State.memWf.park {c : Nat} {multi : Bool} (h : s.memWf) : (s.park c multi).memWf := by
  unfold State.park
  extract_lets k part s1
  have h1 : s1.memWf := (h.modCore fun _ hk => hk.same).postEvent
  split
  · exact h1.resumeIssue
  · exact h1.when fun ht => (ht.unless (·.postAt)).modCore fun _ hk => hk.same

theorem State.memWf.unpark {c : Nat} {e : Err} (h : s.memWf) : (s.unpark c e).memWf := by
  unfold State.unpark
  exact State.memWf.ite (h.modCore fun _ hk => hk.same) h.park

theorem State.memWf.resolveNow {c : Nat} {stopped : Bool} (h : s.memWf) : (s.resolveNow c stopped).memWf := by
  unfold State.resolveNow
  extract_lets k es multi stopped'
  split
  · exact h
  · next e _ =>
    extract_lets s1 s2 s3
    have h1 : s1.memWf := h.modCore fun k hk =>
      have hu : Core.memWf (if k.life.holds || e.act == .q then k.countUe es else k) := .ite hk.countUe hk
      hu.same
    have h2 : s2.memWf := h1.when (·.raiseQuarantine)
    have h3 : s3.memWf := h2.when (·.unpark)
    refine h2.lateFault.ite (h2.park.ite ?_)
    split
    · exact h3.errInDrain
    · exact h3.errInRestore.ite h3.beginDrain

theorem State.memWf.resolveLate {c : Nat} (h : s.memWf) : (s.resolveLate c).memWf := by
  unfold State.resolveLate
  dsimp only
  split
  · exact h
  · exact h.drop.post.when (·.stopChain)

theorem State.memWf.resolve {c : Nat} (h : s.memWf) : (s.resolve c).memWf := by
  unfold State.resolve
  exact h.resolveNow.unless fun ht => State.memWf.ite (h.unless (·.post)) (h.resolveLate.ite ht)

theorem State.memWf.meet {c : Nat} {st : Store} {reader slot addr : Nat} {units : List Nat} (h : s.memWf) :
    (s.meet c st reader slot addr units).2.memWf := by
  unfold State.meet
  dsimp only
  split
  · exact h
  · exact h.fixes.foldl fun _ _ ht => ht.raiseOn

theorem Core.memWf.sign {cyc who tag index : Nat} {data : List Byte} (hk : k.memWf) :
    (k.sign cyc who tag index data).memWf := by
  unfold Core.sign
  dsimp only
  split
  · exact hk
  · exact hk.ite hk.same

theorem Core.memWf.keepOld {cyc : Nat} {as : List Nat} (hk : k.memWf) : (k.keepOld cyc as).memWf := by
  unfold Core.keepOld
  exact hk.same

theorem Core.memWf.touch {spm set : Bool} {ws : List Nat} (hk : k.memWf) : (k.touch spm set ws).memWf := by
  unfold Core.touch
  extract_lets k1
  have h1 : k1.memWf := hk.ite hk.same
  exact Core.memWf.ite h1.same h1.same

theorem State.memWf.werr {c code entry dev core tag rank : Nat} (h : s.memWf) :
    (s.werr c code entry dev core tag rank).memWf := by
  unfold State.werr
  exact h.modCore fun _ hk => Core.memWf.ite hk.same hk.same

theorem State.memWf.werrSelf {c e code : Nat} (h : s.memWf) : (s.werrSelf c e code).memWf := by
  unfold State.werrSelf
  exact h.werr

theorem State.memWf.watch {c : Nat} {timed : Bool} {own : Option (Fin 32)} {bs : List (Nat × Byte)} (h : s.memWf) :
    (s.watch c timed own bs).memWf := by
  unfold State.watch
  refine h.when fun ht => ht.foldl fun t e hu => ?_
  exact hu.when fun hv => State.memWf.when (hv.setCore ((hv.core c).same)) (·.werrSelf)

/-- Bytes stored in SPM keep the form. -/
theorem Core.memWf.storeSpm {bs : List (Nat × Byte)} (hk : k.memWf) :
    Core.memWf { k with spm := k.spm.storeAll bs } := by
  obtain ⟨hs, hd, hi, ha, hh⟩ := hk
  exact ⟨Memory.wf_storeAll bs hs, hd, hi, ha, hh⟩

/-- Bytes stored in DMEM keep the form. -/
theorem Core.memWf.storeDmem {bs : List (Nat × Byte)} (hk : k.memWf) :
    Core.memWf { k with dmem := k.dmem.storeAll bs } := by
  obtain ⟨hs, hd, hi, ha, hh⟩ := hk
  exact ⟨hs, Memory.wf_storeAll bs hd, hi, ha, hh⟩

theorem Core.memWf.storeBytes {cyc : Nat} {spm set : Bool} {who : Option Nat} {bs : List (Nat × Byte)} (hk : k.memWf) :
    (k.storeBytes cyc spm set who bs).memWf := by
  unfold Core.storeBytes
  extract_lets as k1 k2 k3
  have h1 : k1.memWf := hk.keepOld.ite hk
  have h2 : k2.memWf := h1.storeSpm.ite h1.storeDmem
  have h3 : k3.memWf := h2.touch
  split
  · exact h3
  · exact Core.memWf.ite h3 h3.sign

theorem State.memWf.landRaw {c : Nat} {spm set : Bool} {who : Option Nat} {half : List Nat} {bs : List (Nat × Byte)}
    {pre : State → State} (h : s.memWf) (hpre : ∀ t, t.memWf → (pre t).memWf) :
    (s.landRaw c spm set who half bs pre).memWf := by
  unfold State.landRaw
  split
  · next t e => exact h.meet.of_eq e
  · next t e =>
    have ht := h.meet.of_eq e
    exact (hpre _ ht).modCore fun _ hk => hk.storeBytes

theorem State.memWf.loosen {c : Nat} {bs : List (Nat × Byte)} (h : s.memWf) : (s.loosen c bs).memWf := by
  unfold State.loosen
  exact h.unless fun ht => ht.modCore fun _ hk => hk.same

theorem State.memWf.landBytes {c : Nat} {spm set : Bool} {who : Nat} {half : List Nat} {bs : List (Nat × Byte)}
    (h : s.memWf) : (s.landBytes c spm set who half bs).memWf := by
  unfold State.landBytes
  exact h.landRaw fun _ ht => ht.when (·.watch.loosen)

theorem State.memWf.landUntimed {c : Nat} {cls : PathClass} {op : Option Nat} {handle : Option (Fin 16)} {entry : Option (Fin 32)}
    {origins : List (Nat × Nat)} {done : Option Nat} {bs : List (Nat × Byte)} (h : s.memWf) :
    (s.landUntimed c cls op handle entry origins done bs).memWf := by
  unfold State.landUntimed
  exact (h.modCore fun _ hk => hk.same).unless fun ht => ht.landRaw fun _ hu => (hu.modCore fun _ hk => hk.same).watch

theorem State.memWf.sees {c : Nat} {p : Loose → Bool} {ys : List (Nat × Nat)} (h : s.memWf) :
    (s.sees c p ys).memWf := by
  unfold State.sees
  exact h.unless fun ht => ht.modCore fun _ hk => hk.same

theorem State.memWf.settle {c : Nat} {cls : PathClass} {key : Nat} {as : List Nat} {bs : List Byte} (h : s.memWf) :
    (s.settle c cls key as bs).2.memWf := by
  unfold State.settle
  dsimp only
  split
  · exact h
  · exact h.same.when (·.sees)

theorem State.memWf.completes {c id : Nat} {handle : Option (Fin 16)} (h : s.memWf) :
    (s.completes c id handle).memWf := by
  unfold State.completes
  exact h.unless fun ht => ht.modCore fun _ hk => hk.same

theorem Core.memWf.ordered {d : Nat} (hk : k.memWf) : (k.ordered d).memWf := by
  unfold Core.ordered
  exact hk.same

theorem State.memWf.readRaw {c : Nat} {spm : Bool} {reader slot addr : Nat} {as : List Nat} (h : s.memWf) :
    (s.readRaw c spm reader slot addr as).2.memWf := by
  unfold State.readRaw
  split
  · next t e => exact h.meet.of_eq e
  · next t e => exact h.meet.of_eq e

theorem State.memWf.readBy {cls : PathClass} {key c : Nat} {spm : Bool} {reader slot addr : Nat} {as : List Nat}
    (h : s.memWf) : (s.readBy cls key c spm reader slot addr as).2.memWf := by
  unfold State.readBy
  dsimp only
  split
  · next t e => exact h.readRaw.of_eq e
  · next t e =>
    have ht := h.readRaw.of_eq e
    split
    · exact ht.settle
    · exact ht

theorem State.memWf.readBytes {c : Nat} {spm : Bool} {reader slot addr : Nat} {as : List Nat} (h : s.memWf) :
    (s.readBytes c spm reader slot addr as).2.memWf := by
  unfold State.readBytes
  exact h.readBy

theorem Core.memWf.flashRecord {slot addr : Nat} {cl : BitVec 4} (hk : k.memWf) :
    (k.flashRecord slot addr cl).memWf := by
  unfold Core.flashRecord
  exact hk.ite hk.same

theorem Core.memWf.writeS {d : Fin 32} {x : W64} (hk : k.memWf) : (k.writeS d x).memWf := by
  unfold Core.writeS
  exact hk.ite hk.same

theorem Core.memWf.writeV {p : Fin 32} {m x : VReg} (hk : k.memWf) : (k.writeV p m x).memWf := by
  unfold Core.writeV
  exact hk.same

theorem Core.memWf.writeK {d : Fin 8} {m x : KReg} (hk : k.memWf) : (k.writeK d m x).memWf := by
  unfold Core.writeK
  exact hk.ite hk.same

theorem Core.memWf.writeQ {d : Fin 8} {x : Bool} (hk : k.memWf) : (k.writeQ d x).memWf := by
  unfold Core.writeQ
  exact hk.ite hk.same

theorem Core.memWf.landS {cyc who : Nat} {d : Fin 32} {x : W64} (hk : k.memWf) : (k.landS cyc who d x).memWf := by
  unfold Core.landS
  exact hk.ite hk.writeS.unmark.sign

theorem Core.memWf.landV {cyc who : Nat} {p : Fin 32} {m x : VReg} (hk : k.memWf) : (k.landV cyc who p m x).memWf := by
  unfold Core.landV
  exact hk.writeV.unmarkWords.ite hk.writeV.unmarkWords.sign

theorem Core.memWf.landK {cyc who : Nat} {d : Fin 8} {m x : KReg} (hk : k.memWf) : (k.landK cyc who d m x).memWf := by
  unfold Core.landK
  exact hk.ite (hk.writeK.unmarkWords.ite hk.writeK.unmarkWords.sign)

theorem Core.memWf.landQ {cyc who : Nat} {d : Fin 8} {x : Bool} (hk : k.memWf) : (k.landQ cyc who d x).memWf := by
  unfold Core.landQ
  exact hk.ite hk.writeQ.unmark.sign

theorem State.memWf.land {c who : Nat} {l : Land} (h : s.memWf) : (s.land c who l).memWf := by
  unfold State.land
  dsimp only
  split
  · exact h.modCore fun _ hk => hk.landS
  · exact h.modCore fun _ hk => hk.landV
  · exact h.modCore fun _ hk => hk.landK
  · exact h.modCore fun _ hk => hk.landQ
  · exact h.modCore fun _ hk => List.foldlRecOn _ _ hk fun _ hk' _ _ => hk'.landQ
  · exact h.modCore fun _ hk => hk.same.unmark.landQ.landQ.landQ.landQ
  · exact h.modCore fun _ hk => hk.same.unmark
  · exact h.modCore fun _ hk => hk.same
  · exact h.modCore fun _ hk => hk.same
  · exact h.modCore fun _ hk => hk.same
  · exact h.modCore fun _ hk => hk.flashRecord
  · exact h.landBytes
  · exact h.landBytes
  · exact h.landBytes

theorem State.memWf.drawWords {c n : Nat} (h : s.memWf) : (s.drawWords c n).2.memWf := by
  unfold State.drawWords
  dsimp only
  exact h.modCore fun _ hk => hk.same

/-! ### Results of a slot -/

theorem State.memWf.result {lat : Nat} {l : Land} (h : s.memWf) : (s.result lat l).memWf := by
  unfold State.result
  exact h.later

theorem State.memWf.putThen {d : Fin 32} {lat : Nat} {x : W64} {f : State → State}
    (h : s.memWf) (hf : ∀ t, t.memWf → (f t).memWf) : (s.putThen d lat x f).memWf := by
  unfold State.putThen
  split
  · exact h.trap
  · exact hf _ h.result

theorem State.memWf.mayWrite {d : Fin 32} {f : State → State} (h : s.memWf) (hf : ∀ t, t.memWf → (f t).memWf) :
    (s.mayWrite d f).memWf := by
  unfold State.mayWrite
  exact h.trap.ite (hf _ h)

/-! ### Guards and phases -/

theorem State.memWf.slot {g : Guard} {f : State → State} (h : s.memWf) (hf : ∀ t, t.memWf → (f t).memWf) :
    Result.memWf (s.slot g f) := by
  unfold State.slot
  exact (h.when fun ht => hf _ ht).next

theorem State.memWf.exchangeOnly {f : State → State} (h : s.memWf) (hf : ∀ t, t.memWf → (f t).memWf) :
    (s.exchangeOnly f).memWf := by
  unfold State.exchangeOnly
  exact State.memWf.ite (hf _ h) h.trap

theorem State.memWf.computeOnly {f : State → State} (h : s.memWf) (hf : ∀ t, t.memWf → (f t).memWf) :
    (s.computeOnly f).memWf := by
  unfold State.computeOnly
  exact h.trap.ite (hf _ h)

/-! ### Waits of the bundle in issue -/

theorem State.memWf.modIssued {f : Issued → Issued} (h : s.memWf) : (s.modIssued f).memWf := by
  unfold State.modIssued
  exact h.modCur fun _ hk => hk.same

theorem State.memWf.waitFor {w : Wait} (h : s.memWf) : (s.waitFor w).memWf := by
  unfold State.waitFor
  exact h.modIssued

/-! ### Engine queues -/

theorem State.memWf.joinQueue {q : QueueId} {i : Instr} {o : BitVec 12} {a b : W64} {tag : BitVec 16} (h : s.memWf) :
    (s.joinQueue q i o a b tag).memWf := by
  unfold State.joinQueue
  exact (h.modCur fun _ hk => hk.same).at

theorem State.memWf.enqueue {q : QueueId} {i : Instr} {o : BitVec 12} {a b : W64} {tag : BitVec 16} (h : s.memWf) :
    (s.enqueue q i o a b tag).memWf := by
  unfold State.enqueue
  split
  · exact h.trap
  · exact h.joinQueue

theorem State.memWf.acted {c issued status : Nat} (h : s.memWf) : (s.acted c issued status).memWf := by
  unfold State.acted
  exact h.modCore fun _ hk => Core.memWf.ite hk.same hk

theorem State.memWf.onceOnly {again : Nat → State → State} {f : State → State}
    (h : s.memWf) (hagain : ∀ n t, t.memWf → (again n t).memWf) (hf : ∀ t, t.memWf → (f t).memWf) : (s.onceOnly again f).memWf := by
  unfold State.onceOnly
  exact State.memWf.ite (hagain _ _ (h.modCur fun _ hk => hk.same)) (hf _ h)

/-! ### Windows, handles and remote operations -/

theorem State.memWf.modHandle {c : Nat} {r : Fin 16} {f : Handle → Handle} (h : s.memWf) :
    (s.modHandle c r f).memWf := by
  unfold State.modHandle
  exact h.modCore fun _ hk => hk.same

theorem execHwait_memWf {g : Guard} {r : Fin 16} {vis : Bool} (h : s.memWf) : Result.memWf (execHwait g r vis s) := by
  unfold execHwait
  exact h.slot fun _ ht => ht.waitFor

theorem State.memWf.seesBy {c : Nat} {ws : List Wait} (h : s.memWf) : (s.seesBy c ws).memWf := by
  unfold State.seesBy
  exact h.sees

theorem execHtest_memWf {g : Guard} {d : Fin 32} {r : Fin 16} {clr : Bool} (h : s.memWf) :
    Result.memWf (execHtest g d r clr s) := by
  unfold execHtest
  exact h.slot fun _ ht => ht.putThen fun _ hu => hu.seesBy.when (·.later)

theorem State.memWf.packet {dev : Nat} (h : s.memWf) : (s.packet dev).memWf := by
  unfold State.packet
  exact h.unless (·.same)

theorem State.memWf.modWin {c : Nat} {e : Fin 32} {f : Window → Window} (h : s.memWf) : (s.modWin c e f).memWf := by
  unfold State.modWin
  exact h.modCore fun _ hk => hk.same

theorem State.memWf.opens {c : Nat} {e : Fin 32} {state : Fin 4} {tag : BitVec 16} (h : s.memWf) :
    (s.opens c e state tag).memWf := by
  unfold State.opens
  exact (h.unless (·.same)).modWin

theorem State.memWf.winErr {c : Nat} {e : Fin 32} (h : s.memWf) : (s.winErr c e).memWf := by
  unfold State.winErr
  exact h.raiseOn

theorem State.memWf.withWin {c : Nat} {e : Fin 32} {f : State → State} (h : s.memWf) (hf : ∀ t, t.memWf → (f t).memWf) :
    (s.withWin c e f).memWf := by
  unfold State.withWin
  exact h.winErr.ite (hf _ h.fixes)

theorem State.memWf.modOp {id : Nat} {f : RemoteOp → RemoteOp} (h : s.memWf) : (s.modOp id f).memWf := by
  unfold State.modOp
  exact h.same

theorem State.memWf.dropOp {id : Nat} (h : s.memWf) : (s.dropOp id).memWf := by
  unfold State.dropOp
  exact h.same

theorem State.memWf.delivery (h : s.memWf) : s.delivery.2.memWf := by
  unfold State.delivery
  dsimp only
  exact h.fresh

theorem State.memWf.report {o : RemoteOp} {t code cyc : Nat} (h : s.memWf) : (s.report o t code cyc).memWf := by
  unfold State.report
  exact h.at

theorem State.memWf.answer {c : Nat} {o : RemoteOp} {code : Nat} (h : s.memWf) : (s.answer c o code).memWf := by
  unfold State.answer
  dsimp only
  exact h.delivery.report.ite (h.delivery.packet.modOp.unless (·.dropOp))

theorem State.memWf.grantTo {c : Nat} {e : Fin 32} {o : RemoteOp} (h : s.memWf) : (s.grantTo c e o).memWf := by
  unfold State.grantTo
  exact h.modWin.modOp.answer

theorem State.memWf.reject {c : Nat} {o : RemoteOp} {code : Nat} (h : s.memWf) : (s.reject c o code).memWf := by
  unfold State.reject
  exact h.werr.answer

theorem State.memWf.grantLocks {c : Nat} {e : Fin 32} {n : Nat} (h : s.memWf) : (s.grantLocks c e n).memWf := by
  induction n generalizing s with
  | zero => exact h
  | succ n ih =>
    unfold State.grantLocks
    extract_lets w
    split
    · exact h
    · split
      · exact ih h.modWin
      · extract_lets s1 s2
        have h1 : s1.memWf := h.modWin
        have h2 : s2.memWf := h1.opens.ite (h1.when (·.opens)).modWin
        exact (ih h2.grantTo).ite h

theorem State.memWf.wwaited {c : Nat} {e : Fin 32} (h : s.memWf) : (s.wwaited c e).memWf := by
  unfold State.wwaited
  split
  · exact h.when (·.acted)
  · exact h

theorem State.memWf.applied {c : Nat} {e : Fin 32} (h : s.memWf) : (s.applied c e).memWf := by
  unfold State.applied
  extract_lets k w bad good s1 s2 s3 s4 s5
  have h1 : s1.memWf := h.landUntimed
  have h2 : s2.memWf := h1.foldl fun _ _ hu => hu.raiseOn
  have h3 : s3.memWf := h2.modWin
  have h4 : s4.memWf := by
    dsimp only [s4]
    split
    · exact h3.answer
    · exact h3
  have h5 : s5.memWf := h4.when (·.at)
  exact h.ite (h5.when (·.grantLocks))

theorem State.memWf.expects {c : Nat} {e : Fin 32} (h : s.memWf) : (s.expects c e).memWf := by
  unfold State.expects
  exact h.modCore fun _ hk => hk.same

theorem State.memWf.closeWindow {c : Nat} {e : Fin 32} (h : s.memWf) : (s.closeWindow c e).memWf := by
  unfold State.closeWindow
  extract_lets w s1 s2 n result s3 s4 t
  have h1 : s1.memWf := h.when (·.werrSelf)
  have h2 : s2.memWf := h1.fixes.ite (h1.unless (·.winErr)).modWin
  have h3 : s3.memWf := h2.same
  have h4 : s4.memWf := h3.modWin
  exact h.ite (h4.applied.ite (h4.modCore fun _ hk => hk.same).expects.at)

theorem State.memWf.flushApplies {c : Nat} (h : s.memWf) : (s.flushApplies c).memWf := by
  unfold State.flushApplies
  exact h.drop.foldl fun _ _ ht => ht.applied

theorem State.memWf.rejectWaiting {c : Nat} {e : Fin 32} (h : s.memWf) : (s.rejectWaiting c e).memWf := by
  unfold State.rejectWaiting
  dsimp only
  refine h.modWin.foldl fun _ _ ht => ?_
  split
  · exact ht.reject
  · exact ht

theorem execWpost_memWf {g : Guard} {a : Fin 32} (h : s.memWf) : Result.memWf (execWpost g a s) := by
  unfold execWpost
  exact h.slot fun _ ht => ht.exchangeOnly fun _ hu => hu.onceOnly (fun _ _ hv => hv) fun _ hv =>
    hv.withWin fun _ hw => hw.later.ite hw.trap

theorem State.memWf.wpost {c : Nat} {e : Fin 32} (h : s.memWf) : (s.wpost c e).memWf := by
  unfold State.wpost
  exact h.unless fun ht => (ht.opens.modWin.acted.foldl fun _ _ hu => hu.reject.ite hu.grantTo).when (·.rejectWaiting.closeWindow)

theorem execWwait_memWf {g : Guard} {a : Fin 32} (h : s.memWf) : Result.memWf (execWwait g a s) := by
  unfold execWwait
  refine h.slot fun _ ht => ht.exchangeOnly fun _ hu => hu.onceOnly (fun _ _ hv => hv) fun _ hv => hv.withWin fun _ hw => ?_
  exact State.memWf.ite (hw.waitFor.closeWindow.ite hw.waitFor.modWin) hw.trap

theorem State.memWf.remote {g : Guard} {i : Instr} {kd : OpKind} {o : BitVec 12} {ra rb : Fin 32} (h : s.memWf) :
    Result.memWf (s.remote g i kd o ra rb) := by
  unfold State.remote
  dsimp only
  refine h.slot fun _ ht => ht.exchangeOnly fun _ hu => hu.onceOnly (fun _ _ hv => hv) fun _ hv => ?_
  split
  · exact hv.trap
  · split
    · exact hv.trap
    · exact hv.joinQueue.later

theorem execGet_memWf {g : Guard} {o : BitVec 12} {a b : Fin 32} (h : s.memWf) : Result.memWf (execGet g o a b s) := by
  unfold execGet
  exact h.remote

theorem execPut_memWf {g : Guard} {o : BitVec 12} {a b : Fin 32} (h : s.memWf) : Result.memWf (execPut g o a b s) := by
  unfold execPut
  exact h.remote

theorem execPutMc_memWf {g : Guard} {o : BitVec 12} {a b : Fin 32} (h : s.memWf) :
    Result.memWf (execPutMc g o a b s) := by
  unfold execPutMc
  exact h.remote

theorem execRacc_memWf {g : Guard} {o : BitVec 12} {a b : Fin 32} (h : s.memWf) :
    Result.memWf (execRacc g o a b s) := by
  unfold execRacc
  exact h.remote

theorem execWstart_memWf {g : Guard} {o : BitVec 12} {a b : Fin 32} (h : s.memWf) :
    Result.memWf (execWstart g o a b s) := by
  unfold execWstart
  exact h.remote

theorem execWcompl_memWf {g : Guard} {o : BitVec 12} {a b : Fin 32} (h : s.memWf) :
    Result.memWf (execWcompl g o a b s) := by
  unfold execWcompl
  exact h.remote

theorem execWlock_memWf {g : Guard} {o : BitVec 12} {a b : Fin 32} (h : s.memWf) :
    Result.memWf (execWlock g o a b s) := by
  unfold execWlock
  exact h.remote

theorem execWunlock_memWf {g : Guard} {o : BitVec 12} {a b : Fin 32} (h : s.memWf) :
    Result.memWf (execWunlock g o a b s) := by
  unfold execWunlock
  exact h.remote

theorem State.memWf.send {o : RemoteOp} (h : s.memWf) : (s.send o).memWf := by
  unfold State.send
  dsimp only
  refine h.foldl fun _ _ ht => ht.delivery.at.ite (.ite ?_ ?_)
  · exact (ht.same.packet.when (·.modOp)).at
  · exact (ht.same.packet.when (·.modOp)).report

theorem State.memWf.deliverCopy {id group : Nat} (h : s.memWf) : (s.deliverCopy id group).memWf := by
  unfold State.deliverCopy
  dsimp only
  exact h.dropOp.ite (h.modOp.foldl fun _ _ ht => ht.delivery.at)

theorem State.memWf.startRemote {cmd : Cmd} (h : s.memWf) : (s.startRemote cmd).memWf := by
  unfold State.startRemote
  extract_lets c kd a r err targets reads n w len id down o s1 s2 s3 lost s4 s5 s6 s7
  have herr {t info} (ht : State.memWf t) : (err t info).memWf := ht.raiseOn
  have h1 : s1.memWf := h.same.acted
  have h2 : s2.memWf := h1.when (·.modHandle)
  have h3 : s3.memWf := h2.foldl fun _ _ ht => ht.werr.report
  have h4 : s4.memWf := h3.unless (·.at)
  have h5 : s5.memWf := h4.when (·.at)
  have h6 : s6.memWf := h5.at
  have h7 : s7.memWf := h5.modCur fun _ hk => hk.same
  exact (herr h).ite ((herr h).ite (h6.send.ite (State.memWf.ite (h7.at.send.ite h7.later) h5.send)))

theorem State.memWf.source {c id n : Nat} (h : s.memWf) : (s.source c id n).memWf := by
  unfold State.source
  split
  · exact h
  · extract_lets total
    refine h.dropOp.ite ?_
    split
    next res t e =>
    have ht := h.readBy.of_eq e
    split
    · exact ht.werr.modOp.report
    · extract_lets s1 s2
      have h1 : s1.memWf := ht.modOp
      have h2 : s2.memWf := h1.at
      refine h1.at.ite ?_
      split
      · exact h2.send
      · exact h2

theorem State.memWf.serveGet {c : Nat} {e : Fin 32} {o : RemoteOp} (h : s.memWf) : (s.serveGet c e o).memWf := by
  unfold State.serveGet
  extract_lets w as
  split
  next res t e =>
  have ht := h.readRaw.of_eq e
  split
  · exact ht.reject
  · extract_lets free s1 bs s2 s3
    have h2 : s2.memWf := State.memWf.modWin (ht.same : s1.memWf)
    exact State.memWf.ite (State.memWf.delivery h2.modOp).at h2.dropOp

theorem State.memWf.accept {c : Nat} {e : Fin 32} {o : RemoteOp} (h : s.memWf) : (s.accept c e o).memWf := by
  unfold State.accept
  extract_lets s1 w
  have h1 : s1.memWf := h.unless (·.modWin)
  split
  · exact h1.serveGet
  · exact h1.modWin.answer
  · exact h1.modWin.answer
  · exact h1.modWin.answer
  · exact h1.modWin.ite h1.grantTo
  · exact h1.modWin.grantLocks
  · exact (h1.modWin.when (·.closeWindow)).answer
  · exact h1.modWin.modWin.closeWindow.ite h1.modWin.grantLocks.answer

theorem execRemoteOperationReceipt_memWf (h : s.memWf) : Result.memWf (execRemoteOperationReceipt s) := by
  unfold execRemoteOperationReceipt
  extract_lets c
  split
  · exact h.next
  · extract_lets s1 e s2
    have h1 : s1.memWf := h.packet
    have h2 : s2.memWf := h1.modOp
    refine h1.at.next.ite ?_
    split
    next n t e =>
    have ht := h2.fresh.of_eq e
    refine ht.next.ite (.ite ht.winErr.answer.next ?_)
    extract_lets s3
    have h3 : s3.memWf := ht.fixes
    split
    · exact h3.reject.next
    · exact h3.accept.next

theorem State.memWf.sweepOp {id : Nat} (h : s.memWf) : (s.sweepOp id).memWf := by
  unfold State.sweepOp
  split
  · exact h.when (·.dropOp)
  · exact h

theorem execLocalReuseEvent_memWf (h : s.memWf) : Result.memWf (execLocalReuseEvent s) := by
  unfold execLocalReuseEvent
  dsimp only
  refine State.memWf.next ?_
  split
  · exact h
  · refine h.unless fun ht => .sweepOp (.modOp ?_)
    split
    · exact ht.modHandle
    · exact ht

theorem State.memWf.deliver {o : RemoteOp} {code : BitVec 4} (h : s.memWf) : (s.deliver o code).memWf := by
  unfold State.deliver
  dsimp only
  refine .modOp (.completes ?_)
  split
  · exact h.at
  · exact h

theorem State.memWf.rejected {o : RemoteOp} {code : BitVec 4} (h : s.memWf) : (s.rejected o code).memWf := by
  unfold State.rejected
  refine h.deliver.ite ?_
  split
  · exact h.at
  · exact h

theorem execVisibilityEvent_memWf {code : BitVec 4} (h : s.memWf) : Result.memWf (execVisibilityEvent code s) := by
  unfold execVisibilityEvent
  dsimp only
  refine State.memWf.next ?_
  split
  · exact h
  · exact (h.modOp.rejected.ite (h.modOp.unless (·.deliver))).sweepOp

theorem execRemoteTimeout_memWf (h : s.memWf) : Result.memWf (execRemoteTimeout s) := by
  unfold execRemoteTimeout
  dsimp only
  refine State.memWf.next ?_
  split
  · exact h
  · exact h.unless fun ht => (((ht.foldl fun _ _ hu => hu.werr).rejected).modOp).sweepOp

theorem State.memWf.getLand {c id : Nat} {bs : List (Nat × Byte)} (h : s.memWf) : (s.getLand c id bs).memWf := by
  unfold State.getLand
  dsimp only
  split
  · exact h
  · exact ((h.fresh.unless (·.landUntimed)).delivery).report

/-! ### Collectives -/

theorem execColl_memWf {g : Guard} {o : BitVec 12} {a : Fin 32} {r : Fin 16} (h : s.memWf) :
    Result.memWf (execColl g o a r s) := by
  unfold execColl
  dsimp only
  refine h.slot fun _ ht => ht.exchangeOnly fun _ hu => hu.onceOnly (fun _ _ hv => hv) fun _ hv => ?_
  split
  · exact hv.trap
  · exact hv.trap.ite (hv.trap.ite hv.joinQueue.later)

theorem State.memWf.modCall {id : Nat} {f : Call → Call} (h : s.memWf) : (s.modCall id f).memWf := by
  unfold State.modCall
  exact h.same

theorem State.memWf.wakeCalls (h : s.memWf) : s.wakeCalls.memWf := by
  unfold State.wakeCalls
  exact h.foldl fun _ _ ht => ht.when fun hu => hu.unless (·.at)

theorem State.memWf.startColl {cmd : Cmd} {r : Fin 16} (h : s.memWf) : (s.startColl cmd r).memWf := by
  unfold State.startColl
  dsimp only
  split
  · exact h.readBytes
  · refine h.readBytes.withWin fun _ ht => ht.withWin fun _ hu => hu.raiseOn.ite (.wakeCalls (.at ?_))
    split
    · exact hu.same.acted.modCall
    · exact hu.same.acted.same rfl

theorem State.memWf.modGroup {id : Nat} {f : Group → Group} (h : s.memWf) : (s.modGroup id f).memWf := by
  unfold State.modGroup
  exact h.same

theorem State.memWf.memberEvent {m : CollMember} {reuse vis : Bool} {code : BitVec 4} (h : s.memWf) :
    (s.memberEvent m reuse vis code).memWf := by
  unfold State.memberEvent
  split
  · exact h.when (·.at)
  · exact h

theorem State.memWf.callEvents {x : Call} {code : BitVec 4} {reuse : Bool} (h : s.memWf) :
    (s.callEvents x code reuse).memWf := by
  unfold State.callEvents
  exact h.foldl fun _ _ ht => ht.completes.memberEvent

theorem State.memWf.endCall {x : Call} {acc : Option (Nat × Nat)} {failed : Bool} (h : s.memWf) :
    (s.endCall x acc failed).memWf := by
  unfold State.endCall
  extract_lets calls src
  have h1 : src.memWf := h.modGroup
  exact State.memWf.ite (State.memWf.wakeCalls h1.same) (State.memWf.wakeCalls h.same)

theorem State.memWf.writeResults {x : Call} {g : Group} {failed : Bool} (h : s.memWf) :
    (s.writeResults x g failed).memWf := by
  unfold State.writeResults
  exact h.same.foldl fun _ _ ht => ht.unless fun hu => hu.withWin fun _ ht => ht.landUntimed

theorem State.memWf.failCall {x : Call} (h : s.memWf) : (s.failCall x).memWf := by
  unfold State.failCall
  extract_lets s1 s2 s3
  have h1 : s1.memWf := by
    dsimp only [s1]
    split
    · refine h.when fun ht => ?_
      split
      · exact ht.writeResults
      · exact ht
    · exact h
  have h2 : s2.memWf := h1.foldl fun _ _ ht => ht.werr
  have h3 : s3.memWf := by
    dsimp only [s3]
    split
    · exact h2.postEvent
    · exact h2
  exact h3.callEvents.endCall

theorem State.memWf.setApart {x : Call} (h : s.memWf) : (s.setApart x).memWf := by
  unfold State.setApart
  extract_lets isIn out t
  have h1 : t.memWf := h.modCall
  have h2 : State.memWf { t with nextId := t.nextId + 1, calls := t.calls ++ [{ x with id := t.nextId, members := out }] } := h1.same
  exact h.unless fun _ => h2.foldl fun _ _ hu => hu.at

theorem State.memWf.beginCall {x : Call} (h : s.memWf) : (s.beginCall x).memWf := by
  unfold State.beginCall
  dsimp only
  exact h.failCall.ite h.fresh.modCall.at

theorem execCollectiveSequenceStart_memWf (h : s.memWf) : Result.memWf (execCollectiveSequenceStart s) := by
  unfold execCollectiveSequenceStart
  dsimp only
  refine State.memWf.next ?_
  split
  · exact h
  · refine h.unless fun ht => ?_
    split
    · exact ht.setApart.beginCall
    · exact ht.setApart

theorem State.memWf.collSource {g : Group} {m : CollMember} (h : s.memWf) : (s.collSource g m).2.memWf := by
  unfold State.collSource
  dsimp only
  split
  · exact h
  · split
    · exact h.winErr
    · exact h.fixes.readBy

/-- The reads of the members' sources, one after another. -/
theorem State.memWf.collSources {g : Group} {ms : List CollMember} {x : List (List W32) × Bool × State} (hx : x.2.2.memWf) :
    (ms.foldl (fun (bs, ok, (s : State)) (m : CollMember) =>
        let (res, s) := s.collSource g m
        (bs ++ [res.getD []], ok && res.isSome, s)) x).2.2.memWf :=
  List.foldlRecOn (motive := fun y : List (List W32) × Bool × State => y.2.2.memWf) _ _ hx fun _ hy _ _ => State.memWf.collSource hy

theorem State.memWf.collRead {id : Nat} (h : s.memWf) : (s.collRead id).memWf := by
  unfold State.collRead
  split
  · exact h
  · split
    · exact h.failCall
    · extract_lets ms
      split
      next blocks ok t e =>
      have ht : t.memWf := (State.memWf.collSources h).of_eq (congrArg Prod.snd e)
      extract_lets sums s1
      have h1 : s1.memWf := ht.foldl fun _ _ hu => hu.memberEvent
      refine ht.failCall.ite ?_
      split
      next n u e' =>
      exact (h1.fresh.of_eq e').modCall.at

/-- The accumulator of a group is written in the chunk store. -/
theorem State.memWf.writeAccumulator {group : Nat} {g : Group} {xs : List W32} {a : Nat × Nat} {t : State} (h : s.memWf)
    (e : s.writeAccumulator group g xs = some (a, t)) : t.memWf := by
  unfold State.writeAccumulator at e
  obtain ⟨x, -, hx⟩ := Option.map_eq_some_iff.mp e
  cases hx
  obtain ⟨hch, hcmd, hcores⟩ := h
  exact ⟨Memory.wf_storeAll _ hch, hcmd, hcores⟩

theorem execCollectiveCompletion_memWf (h : s.memWf) : Result.memWf (execCollectiveCompletion s) := by
  unfold execCollectiveCompletion
  refine State.memWf.next ?_
  split
  · exact h
  · split
    · exact h.failCall
    · extract_lets thin first g
      split
      · exact h.failCall
      · split
        · split
          · next t e => exact (h.writeAccumulator e).callEvents.endCall
          · exact h.failCall
        · split
          next n t e =>
          have ht := h.fresh.of_eq e
          exact ht.failCall.ite ht.writeResults.callEvents.endCall

theorem execCollectiveTimeout_memWf (h : s.memWf) : Result.memWf (execCollectiveTimeout s) := by
  unfold execCollectiveTimeout
  refine State.memWf.next ?_
  split
  · exact h
  · exact h.when (·.failCall)

/-! ### The chain of a channel -/

/-- A list of updates, each of which keeps the form of the state beside a count. -/
theorem State.memWf.foldlSnd {α β : Type} {f : β × State → α → β × State} {xs : List α} {x : β × State} (h : x.2.memWf)
    (hf : ∀ y a, y.2.memWf → (f y a).2.memWf) : (xs.foldl f x).2.memWf :=
  List.foldlRecOn (motive := fun y : β × State => y.2.memWf) _ _ h fun y hy a _ => hf y a hy

/-- A core with another HBM of canonical form and the other memories as they were. -/
theorem Core.memWf.hbm {k' : Core} (hk : k.memWf) (hb : Memory.wf k'.ch.hbm) (hs : k'.spm = k.spm := by rfl)
    (hd : k'.dmem = k.dmem := by rfl) (hi : k'.imem = k.imem := by rfl) (ha : k'.mx.abuf = k.mx.abuf := by rfl) : k'.memWf := by
  obtain ⟨hs', hd', hi', ha', -⟩ := hk
  exact ⟨hs ▸ hs', hd ▸ hd', hi ▸ hi', ha ▸ ha', hb⟩

theorem Core.memWf.hbmWf (hk : k.memWf) : Memory.wf k.ch.hbm := hk.2.2.2.2

@[simp] theorem Channel.modBank_hbm {x : Channel} {ba : Nat} {f : Bank → Bank} : (x.modBank ba f).hbm = x.hbm := rfl

@[simp] theorem Channel.modPc_hbm {x : Channel} {p : Fin 2} {f : Pseudo → Pseudo} : (x.modPc p f).hbm = x.hbm := rfl

@[simp] theorem Channel.usePort_hbm {x : Channel} {cyc : Nat} {u : Nat × Nat} : (x.usePort cyc u).hbm = x.hbm := rfl

@[simp] theorem Channel.stepPtr_hbm {x : Channel} {p : Fin 2} : (x.stepPtr p).hbm = x.hbm := rfl

/-- A command on the bus changes the record of the banks, never what they hold. -/
@[simp] theorem Channel.issue_hbm {x : Channel} {t : Nat} {c : BusCmd} : (x.issue t c).hbm = x.hbm := by
  have hclose (xs : List (Nat × Bank)) (y : Channel) :
      (xs.foldl (fun h b => h.modBank b.1 fun k => { k with row := none }) y).hbm = y.hbm :=
    List.foldlRecOn (motive := fun z : Channel => z.hbm = y.hbm) _ _ rfl fun _ hz _ _ => hz
  unfold Channel.issue
  extract_lets y
  have hy : y.hbm = x.hbm := by dsimp only [y]; split <;> rfl
  cases c with
  | pre b => rw [← hy]; dsimp only; split <;> rfl
  | prea p =>
    rw [← hy]
    simp only [Channel.modPc_hbm, hclose]
    split <;> rfl
  | _ => exact hy

theorem State.memWf.modCh {f : Channel → Channel} (h : s.memWf) (hf : ∀ x, (f x).hbm = x.hbm := by simp) :
    (s.modCh f).memWf := by
  unfold State.modCh
  exact h.modCur fun k hk => hk.same (hb := hf k.ch)

theorem State.memWf.modRun {f : ChainRun → ChainRun} (h : s.memWf) : (s.modRun f).memWf := by
  unfold State.modRun
  exact h.modCh

theorem State.memWf.breakTraining (h : s.memWf) : s.breakTraining.memWf := by
  unfold State.breakTraining
  exact (h.modCur fun _ hk => hk.same).later

theorem State.memWf.chainFault {cls info : Nat} {loc : Option Nat} {val0 : W32} (h : s.memWf) :
    (s.chainFault cls info loc val0).memWf := by
  unfold State.chainFault
  dsimp only
  split
  · exact h
  · exact h.stopChain.breakTraining.ite h.stopChain.raiseOn

theorem State.memWf.chainNext {idx last : Nat} (h : s.memWf) : (s.chainNext idx last).memWf := by
  unfold State.chainNext
  exact h.modRun.stopChain.ite h.modRun.post

theorem State.memWf.chainOn (h : s.memWf) : s.chainOn.memWf := by
  unfold State.chainOn
  split
  · exact h
  · exact h.chainNext

theorem State.memWf.busCmd {c : BusCmd} {ports : List (Nat × Nat)} {f : State → State}
    (h : s.memWf) (hf : ∀ t, t.memWf → (f t).memWf) : Result.memWf (s.busCmd c ports f) := by
  unfold State.busCmd
  refine State.memWf.next ?_
  split
  · exact h
  · split
    · exact h.chainFault
    · exact hf _ h

theorem State.memWf.plainCmd {c : BusCmd} (h : s.memWf) : Result.memWf (s.plainCmd c) := by
  unfold State.plainCmd
  exact h.busCmd fun _ ht => ht.modCh.chainOn

theorem State.memWf.noteWr {c va reach scope : Nat} {data : BitVec 512} (h : s.memWf) :
    (s.noteWr c va reach scope data).memWf := by
  unfold State.noteWr
  exact h.same

theorem State.memWf.fixLookup {va : Nat} (h : s.memWf) : (s.fixLookup va).memWf := by
  unfold State.fixLookup
  split
  · exact h.fixes
  · exact h

theorem execAct_memWf {n : Fin 4} {off : BitVec 15} {dt : BitVec 11} (h : s.memWf) :
    Result.memWf (execAct n off dt s) := by
  unfold execAct
  dsimp only
  split
  · exact h.chainFault.next
  · refine (h.unless (·.fixLookup)).busCmd fun _ ht => ?_
    split
    · exact ht.chainFault
    · exact ht.modCh.chainOn

theorem State.memWf.readBlock {ba col : Nat} (h : s.memWf) : (s.readBlock ba col).memWf := by
  unfold State.readBlock
  dsimp only
  exact h.chainFault.ite h.at.modCh.chainOn

theorem Core.memWf.modLanes {p : Fin 2} {f : Nat → Lane → Lane} (hk : k.memWf) : (k.modLanes p f).memWf := by
  unfold Core.modLanes
  exact hk.same

theorem Core.memWf.allLanes {f : Nat → Lane → Lane} (hk : k.memWf) : (k.allLanes f).memWf := by
  unfold Core.allLanes
  exact hk.modLanes.modLanes

theorem State.memWf.patternWr {ba col : Nat} (h : s.memWf) : (s.patternWr ba col).memWf := by
  unfold State.patternWr
  extract_lets p
  split
  next n t e =>
  have ht := h.fresh.of_eq e
  refine ht.chainFault.ite (State.memWf.chainOn (ht.modCur fun k hk => ?_))
  extract_lets pa lanes src x k1
  have h1 : k1.memWf := hk.modLanes
  have hx : x.hbm = k.ch.hbm.storeAll (addressed pa (dqBlock lanes)) := Channel.issue_hbm
  refine h1.hbm ?_
  rw [hx]
  exact Memory.wf_storeAll _ hk.hbmWf

theorem State.memWf.patternRd {ba col : Nat} (h : s.memWf) : (s.patternRd ba col).memWf := by
  unfold State.patternRd
  extract_lets p free t
  have ht : t.memWf := h.same
  refine ht.chainFault.ite (State.memWf.chainOn (ht.modCur fun k hk => ?_))
  extract_lets stored k1
  have h1 : k1.memWf := hk.modLanes
  exact h1.same (hb := Channel.issue_hbm)

theorem execRd_memWf {ba : BitVec 7} {col : BitVec 4} {dt : BitVec 11} (h : s.memWf) :
    Result.memWf (execRd ba col dt s) := by
  unfold execRd
  exact Result.memWf.ite (h.busCmd fun _ ht => ht.patternRd) (h.busCmd fun _ ht => ht.readBlock)

theorem State.memWf.writeBlock {ba col : Nat} (h : s.memWf) : (s.writeBlock ba col).memWf := by
  unfold State.writeBlock
  extract_lets p a b pa
  refine h.chainFault.ite ?_
  split
  next data t e =>
  have ht := h.settle.of_eq e
  extract_lets u
  have hu : u.memWf := ht.noteWr
  refine State.memWf.chainOn (hu.modCur fun _ hk => hk.hbm ?_)
  rw [Channel.stepPtr_hbm, Channel.usePort_hbm, Channel.issue_hbm]
  exact Memory.wf_storeAll _ hk.hbmWf

theorem State.memWf.meetSample {a : Nat} (h : s.memWf) : (s.meetSample a).2.memWf := by
  unfold State.meetSample
  exact h.meet

theorem execWr_memWf {ba : BitVec 7} {col : BitVec 4} {dt : BitVec 11} (h : s.memWf) :
    Result.memWf (execWr ba col dt s) := by
  unfold execWr
  extract_lets a
  have hm : (if s.readAhead then (true, s) else s.meetSample a).2.memWf := by
    split
    · exact h
    · exact h.meetSample
  refine (h.busCmd fun _ ht => ht.patternWr).ite ?_
  split
  · next t e => exact (hm.of_eq e).stopChain.next
  · next t e => exact (hm.of_eq e).busCmd fun _ hu => hu.writeBlock

theorem execPre_memWf {ba : BitVec 7} {dt : BitVec 11} (h : s.memWf) : Result.memWf (execPre ba dt s) := by
  unfold execPre
  exact h.plainCmd

theorem execPrea_memWf {p : Fin 2} {dt : BitVec 11} (h : s.memWf) : Result.memWf (execPrea p dt s) := by
  unfold execPrea
  exact h.plainCmd

theorem execRefab_memWf {p : Fin 2} {dt : BitVec 11} (h : s.memWf) : Result.memWf (execRefab p dt s) := by
  unfold execRefab
  exact h.plainCmd

theorem execRefpb_memWf {ba : BitVec 7} {dt : BitVec 11} (h : s.memWf) : Result.memWf (execRefpb ba dt s) := by
  unfold execRefpb
  exact h.plainCmd

theorem State.memWf.takeMail {c : Nat} (h : s.memWf) : (s.takeMail c).memWf := by
  unfold State.takeMail
  dsimp only
  split
  · exact h
  · exact State.memWf.ite h.same.post (h.same.when (·.post))

theorem State.memWf.grant {p : Fin 2} (h : s.memWf) : (s.grant p).memWf := by
  unfold State.grant
  exact h.modCh.post.takeMail

theorem execMaint_memWf {p : Fin 2} {dt : BitVec 11} (h : s.memWf) : Result.memWf (execMaint p dt s) := by
  unfold execMaint
  exact h.busCmd fun _ ht => ht.grant.chainOn

theorem execChainWaitt_memWf {next : Bool} {n : BitVec 16} {dt : BitVec 11} (h : s.memWf) :
    Result.memWf (execChainWaitt next n dt s) := by
  unfold execChainWaitt
  refine State.memWf.next ?_
  split
  · exact h
  · exact h.modRun.ite h.chainNext

theorem State.memWf.releaseWaitt {c : Nat} (h : s.memWf) : (s.releaseWaitt c).memWf := by
  unfold State.releaseWaitt
  dsimp only
  split
  · split
    · exact h.same.modRun.chainNext.same rfl
    · exact h
  · exact h

theorem execPtr_memWf {p : Fin 2} {v : BitVec 16} {dt : BitVec 11} (h : s.memWf) : Result.memWf (execPtr p v dt s) := by
  unfold execPtr
  exact h.modCh.chainOn.next

theorem execRowb_memWf {k : Fin 4} {v : BitVec 15} {dt : BitVec 11} (h : s.memWf) :
    Result.memWf (execRowb k v dt s) := by
  unfold execRowb
  exact h.modCh.chainOn.next

theorem execLcnt_memWf {j : Fin 2} {v : BitVec 14} {dt : BitVec 11} (h : s.memWf) :
    Result.memWf (execLcnt j v dt s) := by
  unfold execLcnt
  exact h.modCh.chainOn.next

theorem execChainLoop_memWf {j : Fin 2} {v : BitVec 14} {dt : BitVec 11} (h : s.memWf) :
    Result.memWf (execChainLoop j v dt s) := by
  unfold execChainLoop
  exact (h.unless fun ht => ht.modCh.chainNext.ite ht.modCh.chainOn).next

theorem execChainEnd_memWf {dt : BitVec 11} (h : s.memWf) : Result.memWf (execChainEnd dt s) := by
  unfold execChainEnd
  exact (h.stopChain.when (·.later)).next

theorem State.memWf.chainStep {ex : Instr → State → Result}
    (h : s.memWf) (hex : ∀ i t, t.memWf → Result.memWf (ex i t)) : Result.memWf (s.chainStep ex) := by
  unfold State.chainStep
  dsimp only
  split
  · exact h.next
  · refine h.chainFault.next.ite (h.chainFault.next.ite ?_)
    split
    · exact hex _ _ (h.unless (·.fixes))
    · exact ((h.unless (·.fixes)).chainFault).next

theorem execTlgo_memWf {g : Guard} {o : BitVec 12} {a b : Fin 32} (h : s.memWf) :
    Result.memWf (execTlgo g o a b s) := by
  unfold execTlgo
  exact h.slot fun _ ht => ht.enqueue

theorem Core.memWf.takeTiming (hk : k.memWf) : k.takeTiming.memWf := by
  unfold Core.takeTiming
  exact hk.allLanes.same rfl

theorem State.memWf.beginChain {idx p0 p1 issued scope : Nat} {firmware : Bool} (h : s.memWf) :
    (s.beginChain idx p0 p1 issued scope firmware).memWf := by
  unfold State.beginChain
  exact ((h.modCur fun _ hk => hk.takeTiming).modCh).chainNext.unless (·.later.later)

theorem State.memWf.startTlgo {a b : W64} {issued scope : Nat} (h : s.memWf) :
    (s.startTlgo a b issued scope).memWf := by
  unfold State.startTlgo
  exact h.raiseOn.ite h.beginChain

theorem execChainRdLanding_memWf {addr : BitVec 22} {pa : BitVec 31} {idx : BitVec 14} {data : BitVec 512} {mark : Fin 3}
    (h : s.memWf) : Result.memWf (execChainRdLanding addr pa idx data mark s) := by
  unfold execChainRdLanding
  exact (h.landBytes.raiseOn.ite (h.landBytes.when fun ht => ht.modCur fun _ hk => hk.same)).next

theorem State.memWf.chainLeft {n : Nat} (h : s.memWf) : (s.chainLeft n).memWf := by
  unfold State.chainLeft
  exact h.stopChain.ite h.modRun

theorem State.memWf.chainReads {read : State → Nat → Bool × State} {xs : List (Nat × Nat × Nat)} (h : s.memWf)
    (hr : ∀ t a, t.memWf → (read t a).2.memWf) : (s.chainReads read xs).memWf := by
  induction xs generalizing s with
  | nil => exact h
  | cons x xs ih =>
    obtain ⟨n, t, a⟩ := x
    unfold State.chainReads
    split
    · next u e => exact ih ((hr s a h).of_eq e).modRun
    · next u e => exact ((hr s a h).of_eq e).chainLeft

theorem State.memWf.chainSample {next : Option Nat} (h : s.memWf) : (s.chainSample next).memWf := by
  unfold State.chainSample
  split
  · exact h
  · exact h.later.unless fun ht => ht.chainReads fun _ _ hu => hu.meetSample

theorem State.memWf.meetLook {va : Nat} (h : s.memWf) : (s.meetLook va).2.memWf := by
  unfold State.meetLook
  dsimp only
  split
  · exact h.raiseOn
  · exact h.fixLookup

theorem State.memWf.chainLook {next : Option Nat} (h : s.memWf) : (s.chainLook next).memWf := by
  unfold State.chainLook
  split
  · exact h
  · exact h.post.chainReads fun _ _ hu => hu.meetLook

theorem execIdleChainCommand_memWf (h : s.memWf) : Result.memWf (execIdleChainCommand s) := by
  unfold execIdleChainCommand
  extract_lets t
  have ht : t.memWf := by
    dsimp only [t]
    split
    · exact h.grant
    · exact h.modCh
    · exact h
  exact h.next.ite (ht.unless (·.post)).next

theorem State.memWf.rateFault {info : Nat} (h : s.memWf) : (s.rateFault info).memWf := by
  unfold State.rateFault
  dsimp only
  refine h.unless fun ht => ?_
  split
  · exact ht.stopChain.breakTraining.ite ht.stopChain.raiseOn
  · exact ht.unless (·.raiseOn)

theorem State.memWf.wake (h : s.memWf) : s.wake.memWf := by
  unfold State.wake
  exact h.unless (·.wakeIdle)

theorem execRefreshDebtIncrement_memWf (h : s.memWf) : Result.memWf (execRefreshDebtIncrement s) := by
  unfold execRefreshDebtIncrement
  exact ((h.post.rateFault.ite h.post.modCh).wake).next

theorem execMaintenanceDebtIncrement_memWf (h : s.memWf) : Result.memWf (execMaintenanceDebtIncrement s) := by
  unfold execMaintenanceDebtIncrement
  exact ((h.post.rateFault.ite h.post.modCh).wake).next

/-! ### Maintenance slots: copies, moves and the host's accesses -/

/-- Bytes stored in HBM, block by block. -/
theorem Memory.wf_storeBlocks {m : Memory} (bs : List (Nat × List Byte)) (h : m.wf) :
    Memory.wf (bs.foldl (fun m b => m.storeAll (addressed b.1 b.2)) m) :=
  List.foldlRecOn (motive := fun m : Memory => m.wf) _ _ h fun _ hm _ _ => Memory.wf_storeAll _ hm

theorem State.memWf.writeHbm {c : Nat} {bs : List (Nat × List Byte)} (h : s.memWf) : (s.writeHbm c bs).memWf := by
  unfold State.writeHbm
  exact h.modCore fun _ hk => hk.hbm (Memory.wf_storeBlocks bs hk.hbmWf)

theorem State.memWf.readBlocks {c : Nat} {units : List Nat} (h : s.memWf) : (s.readBlocks c units).memWf := by
  unfold State.readBlocks
  exact h.unless fun ht => ht.modCore fun _ hk => hk.same

theorem State.memWf.postBlock {c : Nat} (h : s.memWf) : (s.postBlock c).memWf := by
  unfold State.postBlock
  exact (h.modCore fun _ hk => hk.noteError.countUe).postEvent

theorem State.memWf.propagate {c p n : Nat} (h : s.memWf) : (s.propagate c p n).2.memWf := by
  unfold State.propagate
  refine State.memWf.foldlSnd h fun x r hx => ?_
  obtain ⟨used, t⟩ := x
  dsimp -zeta only
  split
  · exact hx
  · extract_lets unit bad t1 t2 t3 t4
    have h2 : t2.memWf := State.memWf.writeHbm hx.readBlocks
    have h3 : t3.memWf := h2.foldl fun _ _ hu => hu.postBlock
    have h4 : t4.memWf := h3.same
    split
    · exact h4
    · exact h4.at

theorem State.memWf.moveWork {c : Nat} {p : Fin 2} {n : Nat} (h : s.memWf) : (s.moveWork c p n).2.memWf := by
  unfold State.moveWork
  refine State.memWf.foldlSnd h fun x m hx => ?_
  obtain ⟨used, t⟩ := x
  dsimp -zeta only
  extract_lets half
  split
  · exact State.memWf.readBlocks hx.same
  · split
    · exact hx
    · extract_lets w k blocks t1
      have h1 : t1.memWf := State.memWf.writeHbm hx
      exact h1.same

theorem State.memWf.grantMoves (h : s.memWf) : s.grantMoves.memWf := by
  unfold State.grantMoves
  exact (h.foldl fun _ _ ht => ht.at).same rfl

/-- The command memory with bytes stored. -/
theorem State.memWf.storeCmd {bs : List (Nat × Byte)} (h : s.memWf) :
    State.memWf { s with cmd := s.cmd.storeAll bs } := by
  obtain ⟨hch, hcmd, hcores⟩ := h
  exact ⟨hch, Memory.wf_storeAll bs hcmd, hcores⟩

theorem State.memWf.setStatus {slot code : Nat} (h : s.memWf) : (s.setStatus slot code).memWf := by
  unfold State.setStatus
  obtain ⟨hch, hcmd, hcores⟩ := h
  exact ⟨hch, Memory.wf_store _ _ hcmd, hcores⟩

theorem State.memWf.complete {slot code : Nat} (h : s.memWf) : (s.complete slot code).memWf := by
  unfold State.complete
  exact State.memWf.ite (h.setStatus.same rfl) h.setStatus.vector

theorem State.memWf.nextCommand (h : s.memWf) : s.nextCommand.memWf := by
  unfold State.nextCommand
  exact h.same.unless (·.at)

theorem State.memWf.hbmWork {c p n : Nat} (h : s.memWf) : (s.hbmWork c p n).2.memWf := by
  unfold State.hbmWork
  split
  · exact h
  · split
    · exact h
    · extract_lets mine work as nbad t m x u
      have ht : t.memWf := h.writeHbm.ite (h.readBlocks.modCore fun _ hk => hk.same)
      have hu : u.memWf := ht.unless (·.storeCmd)
      dsimp only
      split
      · exact (State.memWf.complete (hu.same : State.memWf { u with hbmCmd := none })).nextCommand
      · exact ht.same

theorem State.memWf.fillMail {core : Nat} {i : Instr} {msg : BitVec 512} (h : s.memWf) :
    (s.fillMail core i msg).memWf := by
  unfold State.fillMail
  exact h.same.at

theorem State.memWf.fromStack {core : Nat} {i : Instr} {msg : List Byte} (h : s.memWf) :
    (s.fromStack core i msg).memWf := by
  unfold State.fromStack
  exact State.memWf.ite h.same h.fillMail

theorem State.memWf.emptyMail (h : s.memWf) : s.emptyMail.memWf := by
  unfold State.emptyMail
  dsimp only
  split
  · exact (h.same.same rfl).fillMail
  · exact h.same

theorem State.memWf.scrub {c : Nat} {p : Fin 2} {n : Nat} (h : s.memWf) : (s.scrub c p n).memWf := by
  unfold State.scrub
  split
  next free t e =>
  have ht := h.fresh.of_eq e
  extract_lets k at0 len units soft hard found u chan
  have hu : u.memWf := ht.modCore fun _ hk => hk.same
  exact ht.ite (hu.ite hu.fromStack)

theorem State.memWf.reportTemp {c : Nat} (h : s.memWf) : (s.reportTemp c).memWf := by
  unfold State.reportTemp
  dsimp only
  exact h.fresh.when (·.fromStack)

theorem State.memWf.repair {c : Nat} {p : Fin 2} (h : s.memWf) : (s.repair c p).memWf := by
  unfold State.repair
  split
  · exact h
  · extract_lets lane st spare t lo u
    have ht : t.memWf := h.modCore fun _ hk => hk.same
    have hu : u.memWf := ht.when fun hv => hv.modCore fun _ hk => hk.same
    exact hu.fromStack

theorem execMaintSlotEnd_memWf (h : s.memWf) : Result.memWf (execMaintSlotEnd s) := by
  unfold execMaintSlotEnd
  extract_lets c p
  split
  next a t ea =>
  have ht := h.propagate.of_eq ea
  split
  next b u eb =>
  have hu := ht.moveWork.of_eq eb
  extract_lets u'
  split
  next d v ed =>
  have hv := (State.memWf.hbmWork hu.grantMoves).of_eq ed
  extract_lets w
  have hw : w.memWf := hv.when (·.scrub.repair.reportTemp)
  exact (hw.modCore fun _ hk => hk.same).wake.next

/-! ### Launch records, preparation and the start of a task -/

theorem Core.memWf.map {id : Nat} {ls : List (List W64)} (hk : k.memWf) : (k.map id ls).memWf := by
  unfold Core.map
  exact hk.same

theorem State.memWf.modRecord {id : Nat} {f : Record → Record} (h : s.memWf) : (s.modRecord id f).memWf := by
  unfold State.modRecord
  exact h.same

theorem State.memWf.leaseWork {r : Record} (h : s.memWf) : (s.leaseWork r).memWf := by
  unfold State.leaseWork
  extract_lets gang t repl size others moved u
  have ht : t.memWf := h.modRecord.foldl fun _ _ hu => hu.modCore fun _ hk => hk.map
  have hu : u.memWf := ht.same
  exact h.ite (h.modRecord.at.ite ((hu.when (·.at)).ite h))

theorem State.memWf.readEntry {r : Record} {f : State → State} (h : s.memWf) (hf : ∀ t, t.memWf → (f t).memWf) :
    (s.readEntry r f).memWf := by
  unfold State.readEntry
  refine State.memWf.ite (h.unless fun ht => ?_) (hf _ h.same)
  split
  · exact ht.unless (·.at)
  · exact ht

theorem State.memWf.badEntry {c entry : Nat} (h : s.memWf) : (s.badEntry c entry).memWf := by
  unfold State.badEntry
  exact h.unless (·.raiseOn)

theorem State.memWf.headWork (h : s.memWf) : s.headWork.memWf := by
  unfold State.headWork
  refine h.foldl fun _ _ ht => ?_
  split
  · split
    · exact ht.unless fun hu => hu.readEntry fun _ ht => ht.leaseWork
    · exact ht
  · exact ht

theorem State.memWf.enqueueRecord {w : BitVec 1024} {part : Nat} (h : s.memWf) : (s.enqueueRecord w part).memWf := by
  unfold State.enqueueRecord
  exact h.same.headWork

theorem execLeaseGrant_memWf (h : s.memWf) : Result.memWf (execLeaseGrant s) := by
  unfold execLeaseGrant
  exact h.modRecord.next

theorem execTranslationInvalidate_memWf (h : s.memWf) : Result.memWf (execTranslationInvalidate s) := by
  unfold execTranslationInvalidate
  exact ((h.modCur fun _ hk => hk.same).headWork).next

theorem State.memWf.invalidate {c e : Nat} (h : s.memWf) : (s.invalidate c e).memWf := by
  unfold State.invalidate
  exact State.memWf.ite ((h.modCore fun _ hk => hk.same).at) h.at

theorem execInvalidateWatchdogExpiry_memWf (h : s.memWf) : Result.memWf (execInvalidateWatchdogExpiry s) := by
  unfold execInvalidateWatchdogExpiry
  dsimp only
  refine State.memWf.next ?_
  split
  · exact h
  · exact h.unless (·.at.raiseOn)

theorem State.memWf.quiesce {c cyc : Nat} {valids : Bool} (h : s.memWf) : (s.quiesce c cyc valids).memWf := by
  unfold State.quiesce
  dsimp only
  refine (h.foldl fun _ _ ht => ht.when (·.at)).when fun ht => ht.foldl fun _ _ hu => ?_
  split
  · exact hu.at
  · exact hu

theorem State.memWf.tteValid {c e : Nat} {w : W64} (h : s.memWf) : (s.tteValid c e w).memWf := by
  unfold State.tteValid
  exact h.modCore fun _ hk => Core.memWf.ite hk.same.unmark hk

theorem execRecordCompletion_memWf (h : s.memWf) : Result.memWf (execRecordCompletion s) := by
  unfold execRecordCompletion
  refine State.memWf.next ?_
  split
  · exact h
  · extract_lets e t u
    have ht : t.memWf := h.foldl fun _ _ hu => hu.foldl fun _ _ hv =>
      hv.ite ((hv.when (·.invalidate)).ite (hv.modCore fun _ hk => hk.same))
    have hu : u.memWf := ht.same
    exact hu.msi.headWork

theorem State.memWf.checkRecord {id : Nat} (h : s.memWf) : (s.checkRecord id).memWf := by
  unfold State.checkRecord
  split
  · exact h.when (·.at)
  · exact h

theorem State.memWf.activate (h : s.memWf) : s.activate.memWf := by
  unfold State.activate
  dsimp only
  refine (h.foldl fun _ _ ht => ?_).headWork
  split
  · exact ht
  · split
    · exact ht
    · refine ht.when fun hu => hu.readEntry fun _ ht => ?_
      split
      · exact ((ht.same.modRecord.when (·.postEvent)).modRecord).checkRecord
      · exact ht.same.modRecord.checkRecord

/-- The code of an image is loaded in IMEM from the chunk store. -/
theorem Core.memWf.loadCode {image : Nat} (hk : k.memWf) : (s.loadCode image k).memWf := by
  unfold State.loadCode
  obtain ⟨hs, hd, hi, ha, hb⟩ := hk
  exact ⟨hs, hd, Memory.wf_storeAll _ hi, ha, hb⟩

theorem State.memWf.prepare {c : Nat} {r : Record} {n : Nat} (h : s.memWf) : (s.prepare c r n).memWf := by
  unfold State.prepare
  extract_lets image sec same bt bc cb wins
  refine h.modCore fun k hk => ?_
  extract_lets q
  have hq : q.memWf := hk.ite hk.loadCode
  obtain ⟨hs, hd, hi, ha, hb⟩ := hq
  exact ⟨hs, Memory.wf_storeAll _ hd, hi, ha, hb⟩

theorem State.memWf.bind {r : Record} {c k : Nat} (h : s.memWf) : (s.bind r c k).memWf := by
  unfold State.bind
  extract_lets image bad t
  have ht : t.memWf := h.modRecord.prepare
  exact ht.when fun hu => (hu.modCore fun _ hk => hk.same).failRecord

theorem State.memWf.setCredit {p k x : Nat} (h : s.memWf) : (s.setCredit p k x).memWf := by
  unfold State.setCredit
  exact h.same

theorem State.memWf.bindPart {p n : Nat} (h : s.memWf) : (s.bindPart p n).memWf := by
  induction n generalizing s with
  | zero => exact h
  | succ n ih =>
    unfold State.bindPart
    extract_lets free cand prios
    refine h.ite ?_
    split
    · exact ih (h.foldl fun _ _ ht => ht.setCredit)
    · split
      · exact h
      · split
        · exact ih h.bind.setCredit
        · exact h

theorem State.memWf.bindAll (h : s.memWf) : s.bindAll.memWf := by
  unfold State.bindAll
  exact h.when fun ht => ht.foldl fun _ _ hu => hu.bindPart

theorem State.memWf.startTask {c : Nat} (h : s.memWf) : (s.startTask c).memWf := by
  unfold State.startTask
  split
  · exact h
  · extract_lets t u
    have hu : u.memWf := State.memWf.drop (h.same : t.memWf)
    refine (hu.modCore fun k hk => ?_).at
    obtain ⟨hs, hd, hi, -, hb⟩ := hk.unmarkRegs
    exact ⟨hs, hd, hi, rfl, hb⟩

theorem State.memWf.startPrepared (h : s.memWf) : s.startPrepared.memWf := by
  unfold State.startPrepared
  dsimp only
  refine h.unless fun ht => ht.foldl fun _ _ hu => ?_
  split
  · exact hu
  · exact hu.when (·.same.startTask)

theorem State.memWf.releaseRecord {c : Nat} (h : s.memWf) : (s.releaseRecord c).memWf := by
  unfold State.releaseRecord
  split
  · exact h
  · exact ((h.modCore fun _ hk => hk.same).modRecord).checkRecord

theorem execLaunch_memWf {g : Guard} {a d : Fin 32} (h : s.memWf) : Result.memWf (execLaunch g a d s) := by
  unfold execLaunch
  exact h.slot fun _ ht => ht.mayWrite fun _ hu => hu.onceOnly (fun _ _ hv => hv.result) fun _ hv => hv.later

theorem State.memWf.launchRead {c a : Nat} {d : Fin 32} (h : s.memWf) : (s.launchRead c a d).memWf := by
  unfold State.launchRead
  dsimp only
  refine h.acted.at.ite ?_
  split
  · exact h.readBytes
  · exact ((h.readBytes.when (·.enqueueRecord)).acted).at

/-! ### Barriers, arrivals, admissions and boundaries -/

theorem State.memWf.checkBarrier {c : Nat} {die : Bool} (h : s.memWf) : (s.checkBarrier c die).memWf := by
  unfold State.checkBarrier
  exact h.foldl fun _ _ ht => ht.when fun hu => hu.unless (·.at)

theorem State.memWf.checkBarriers {c : Nat} (h : s.memWf) : (s.checkBarriers c).memWf := by
  unfold State.checkBarriers
  exact h.checkBarrier.checkBarrier

theorem execBarrierRelease_memWf {die : Bool} (h : s.memWf) : Result.memWf (execBarrierRelease die s) := by
  unfold execBarrierRelease
  exact h.modIssued.next

theorem State.memWf.bar {die : Bool} (h : s.memWf) : (s.bar die).memWf := by
  unfold State.bar
  exact (h.waitFor.modCur fun _ hk => Core.memWf.ite hk.same hk.same).checkBarrier

theorem execBarQuad_memWf {g : Guard} (h : s.memWf) : Result.memWf (execBarQuad g s) := by
  unfold execBarQuad
  exact h.slot fun _ ht => ht.bar

theorem execBarDie_memWf {g : Guard} (h : s.memWf) : Result.memWf (execBarDie g s) := by
  unfold execBarDie
  exact h.slot fun _ ht => ht.bar

theorem State.memWf.arriveNow {a b : Fin 32} {ends : Bool} (h : s.memWf) : (s.arriveNow a b ends).memWf := by
  unfold State.arriveNow
  exact ((h.modCur fun _ hk => hk.arrive).checkArrival).checkBarriers

theorem execCadv_memWf {g : Guard} {a b : Fin 32} (h : s.memWf) : Result.memWf (execCadv g a b s) := by
  unfold execCadv
  exact h.slot fun _ ht => ht.arriveNow

theorem execCadvEnd_memWf {g : Guard} {a b : Fin 32} (h : s.memWf) : Result.memWf (execCadvEnd g a b s) := by
  unfold execCadvEnd
  exact h.slot fun _ ht => ht.arriveNow

theorem State.memWf.accrue {upto : Nat} (h : s.memWf) : (s.accrue upto).memWf := by
  unfold State.accrue
  dsimp only
  exact h.same

theorem State.memWf.closeAll {c : Nat} (h : s.memWf) : (s.closeAll c).memWf := by
  unfold State.closeAll
  exact h.foldl fun _ _ ht => ht.rejectWaiting.closeWindow

theorem State.memWf.parkCore {c : Nat} (h : s.memWf) : (s.parkCore c).memWf := by
  unfold State.parkCore
  exact (h.closeAll.modCore fun _ hk => hk.same).at

theorem State.memWf.parkStragglers (h : s.memWf) : s.parkStragglers.memWf := by
  unfold State.parkStragglers
  exact (h.foldl fun _ _ ht => ht.closeAll.ite ht.parkCore).foldl fun _ _ ht => ht.checkBarriers

theorem State.memWf.discardOf {c : Nat} (h : s.memWf) : (s.discardOf c).memWf := by
  unfold State.discardOf
  extract_lets d late t u
  have hu : u.memWf := State.memWf.modCore (h.same : t.memWf) fun _ hk => hk.same
  exact h.ite (hu.foldl fun _ _ hu => hu.raiseOn)

theorem State.memWf.discardLate (h : s.memWf) : s.discardLate.memWf := by
  unfold State.discardLate
  exact h.foldl fun _ _ ht => ht.discardOf

theorem State.memWf.decideNow (h : s.memWf) : s.decideNow.memWf := by
  unfold State.decideNow
  extract_lets src t
  have ht : t.memWf := h.discardLate.same
  exact ht.at

theorem State.memWf.tryDecide (h : s.memWf) : s.tryDecide.memWf := by
  unfold State.tryDecide
  exact h.unless fun ht => ht.when (·.decideNow)

theorem State.memWf.closeAtArrival {c : Nat} (h : s.memWf) : (s.closeAtArrival c).memWf := by
  unfold State.closeAtArrival
  exact h.foldl fun _ _ ht => ht.unless (·.rejectWaiting.closeWindow)

theorem State.memWf.countArrival {c : Nat} (h : s.memWf) : (s.countArrival c).memWf := by
  unfold State.countArrival
  exact ((h.modCore fun _ hk => hk.same).when (·.discardOf)).tryDecide

theorem execArrivalCount_memWf (h : s.memWf) : Result.memWf (execArrivalCount s) := by
  unfold execArrivalCount
  dsimp only
  refine State.memWf.next ?_
  split
  · exact h
  · refine h.unless fun ht => ht.closeAll.countArrival.checkBarriers.ite (ht.countArrival.ite ?_)
    exact ht.closeAtArrival.countArrival.ite ht.closeAtArrival.at

theorem execStragglerBudgetExpiry_memWf (h : s.memWf) : Result.memWf (execStragglerBudgetExpiry s) := by
  unfold execStragglerBudgetExpiry
  exact (h.unless (·.parkStragglers.decideNow)).next

theorem State.memWf.placeBoundary (h : s.memWf) : s.placeBoundary.memWf := by
  unfold State.placeBoundary
  exact h.when (·.drop.at)

theorem execTimeDrivenBoundary_memWf (h : s.memWf) : Result.memWf (execTimeDrivenBoundary s) := by
  unfold execTimeDrivenBoundary
  exact (h.unless fun ht => ht.placeBoundary.ite ht.parkStragglers.decideNow).next

theorem execArmingCheck_memWf (h : s.memWf) : Result.memWf (execArmingCheck s) := by
  unfold execArmingCheck
  dsimp only
  refine State.memWf.next ?_
  split
  · exact h
  · exact State.memWf.ite h.same.complete (((h.same.same rfl).complete).placeBoundary)

theorem State.memWf.admitPhase {draw : Nat} {od : Bool} (h : s.memWf) : (s.admitPhase draw od).memWf := by
  unfold State.admitPhase
  exact (h.same.when (·.same.postPackage)).at

theorem State.memWf.endEmergency (h : s.memWf) : s.endEmergency.memWf := by
  unfold State.endEmergency
  exact h.when (·.same)

theorem State.memWf.cutDrain {c : Nat} {d : Drain} (h : s.memWf) : (s.cutDrain c d).memWf := by
  unfold State.cutDrain
  exact ((h.modCore fun _ hk => hk.writeTrap.noteError).unless (·.postAt)).modCore fun _ hk => hk.same

/-- What ends with a task: its windows close, its chain stops and its core is free. -/
theorem State.memWf.finishTask {c : Nat} (h : s.memWf) : (s.finishTask c).memWf := by
  unfold State.finishTask
  extract_lets s1 s2 s3 s4
  have h1 : s1.memWf := State.memWf.flushApplies (h.foldl fun _ _ ht => ht.rejectWaiting.closeWindow)
  have h2 : s2.memWf := by
    dsimp only [s2]
    split
    · exact h1.unless (·.stopChain)
    · exact h1
  have h4 : s4.memWf := h2.quiesce.modCore fun _ hk => hk.same
  exact h4.releaseRecord

theorem State.memWf.killTask {c : Nat} (h : s.memWf) : (s.killTask c).memWf := by
  unfold State.killTask
  extract_lets s1 k s2 s3
  have h1 : s1.memWf := h.drop
  have h2 : s2.memWf := by
    dsimp only [s2]
    split
    · exact h1.ite (State.memWf.ite (h1.ite (h1.modCore fun _ hk => hk.noteError).postAt) h1.cutDrain)
    · exact h1
  have h3 : s3.memWf := by
    dsimp only [s3]
    split
    · exact h2.failRecord
    · exact h2
  exact h3.finishTask

theorem State.memWf.openWindows {c : Nat} {fence : Option W32} {count : BitVec 48} (h : s.memWf) :
    (s.openWindows c fence count).memWf := by
  unfold State.openWindows
  dsimp only
  exact h.foldl fun _ _ ht => State.memWf.ite (ht.withWin fun _ hu => hu.opens) (ht.when (·.modWin))

theorem State.memWf.preemptPart {p : Nat} (h : s.memWf) : (s.preemptPart p).memWf := by
  unfold State.preemptPart
  extract_lets cs parked s1 s2 halts s3 s4
  have h1 : s1.memWf := h.foldl fun _ _ ht => ht.killTask.postEvent
  have h2 : s2.memWf := h1.foldl fun t c ht => by
    extract_lets k u
    have hu : u.memWf := by
      dsimp only [u]
      split
      · exact ht.modRecord
      · exact ht
    exact hu.modCore fun _ hk => hk.same
  have h3 : s3.memWf := h2.foldl fun _ _ ht => (ht.openWindows.closeAll.modCore fun _ hk => hk.same).at
  have h4 : s4.memWf := by
    clear_value halts
    dsimp only [s4]
    split
    · exact h3.postEvent
    · exact h3
  exact h4.same

theorem State.memWf.takePreempts (h : s.memWf) : s.takePreempts.memWf := by
  unfold State.takePreempts
  refine h.foldl fun t p ht => ?_
  have hp : (t.preemptPart p).memWf := ht.preemptPart
  exact hp.same

theorem State.memWf.atAdmission {cyc : Nat} (h : s.memWf) : (s.atAdmission cyc).memWf := by
  unfold State.atAdmission
  extract_lets s1 s2 s3
  have h2 : s2.memWf := State.memWf.when (h.accrue : s1.memWf) (·.same)
  have h3 : s3.memWf := h2.when (·.endEmergency)
  exact State.memWf.takePreempts h3.same

theorem execPowerAdmission_memWf (h : s.memWf) : Result.memWf (execPowerAdmission s) := by
  unfold execPowerAdmission
  dsimp only
  refine State.memWf.next ?_
  split
  · exact h.atAdmission.admitPhase
  · exact h.atAdmission.at

theorem State.memWf.endTasks (h : s.memWf) : s.endTasks.memWf := by
  unfold State.endTasks
  extract_lets s1 s2
  have h1 : s1.memWf := h.foldl fun _ _ ht => ht.finishTask
  have h2 : s2.memWf := h1.foldl fun _ _ ht => ht.foldl fun _ _ hu => (hu.when (·.killTask)).modCore fun _ hk => hk.same
  exact h2.same

theorem State.memWf.takeResumes (h : s.memWf) : s.takeResumes.memWf := by
  unfold State.takeResumes
  extract_lets s1
  have h1 : s1.memWf := h.foldl fun _ _ ht => ht.foldl fun _ _ hu => hu.at
  exact h1.same

theorem State.memWf.applyPartset (h : s.memWf) : s.applyPartset.memWf := by
  unfold State.applyPartset
  extract_lets lifted s1
  have h1 : s1.memWf := h.foldl fun _ _ ht => ht.when fun hu => hu.foldl fun _ _ hv => hv.modCore fun _ hk => hk.same
  exact h1.same

theorem State.memWf.continueTask {c cls : Nat} (h : s.memWf) : (s.continueTask c cls).memWf := by
  unfold State.continueTask
  exact ((h.modCore fun _ hk => hk.same).quiesce).at

theorem State.memWf.stepCadence (h : s.memWf) : s.stepCadence.memWf := by
  unfold State.stepCadence
  exact h.same.when (·.same.placeBoundary)

/-- A change of every core. -/
theorem State.memWf.mapCores {f : Nat → Core → Core} (h : s.memWf) (hf : ∀ c k, k.memWf → (f c k).memWf) :
    State.memWf { s with cores := s.cores.map fun x => (x.1, f x.1 x.2) } := by
  obtain ⟨hch, hcmd, hcores⟩ := h
  refine ⟨hch, hcmd, fun c => ?_⟩
  have hc := hcores c
  unfold State.core at hc ⊢
  dsimp only
  generalize s.cores = xs at hc ⊢
  induction xs with
  | nil => exact hc
  | cons x xs ih =>
    obtain ⟨d, k⟩ := x
    rw [Sp.get] at hc
    rw [List.map_cons, Sp.get]
    by_cases e : d = c
    · rw [if_pos e] at hc ⊢; exact hf _ _ hc
    · rw [if_neg e] at hc ⊢; exact ih hc

theorem execPhaseBoundary_memWf (h : s.memWf) : Result.memWf (execPhaseBoundary s) := by
  unfold execPhaseBoundary
  extract_lets carried s1 s2 s3 s4 goes s5 s6 s7 s8 s9 s10 s11 s12 s13 s14
  have h1 : s1.memWf := h.foldl fun _ _ ht => ht.flushApplies
  have h2 : s2.memWf := h1.mapCores (f := fun _ k => k.ordered (s1.decided.getD s1.cyc)) fun _ _ hk => hk.ordered
  have h3 : s3.memWf := h2.foldl fun _ _ ht => ht.openWindows
  have h4 : s4.memWf := h3.endTasks.takePreempts.takeResumes.applyPartset
  have h5 : s5.memWf := h4.stepCadence
  clear_value s5
  have h6 : s6.memWf := h5.same
  have h7 : s7.memWf := h6.foldl fun _ _ ht => ht.continueTask
  have h8 : s8.memWf := h7.foldl fun _ _ ht => ht.quiesce
  clear_value s8
  have h9 : s9.memWf := h8.same
  have h10 : s10.memWf := h9.foldl fun _ _ ht => ht.when (·.releaseWaitt)
  have h11 : s11.memWf := by
    clear_value s10
    dsimp only [s11]
    split
    · exact h10.same
    · exact State.memWf.bindAll (h10.unless (·.at)).activate.startPrepared
  have h12 : s12.memWf := h11.when (·.at)
  have h13 : s13.memWf := h12.unless (·.at)
  have h14 : s14.memWf := h13.foldl fun _ _ ht => ht.when (·.checkBarriers)
  exact h14.at.next

/-! ### Messages of the fabric, of TIME, of power and of the stacks -/

theorem execFlitReceipt_memWf {ok : Bool} (h : s.memWf) : Result.memWf (execFlitReceipt ok s) := by
  unfold execFlitReceipt
  exact (State.memWf.ite h.same (h.same.when (·.at))).next

theorem execStationDown_memWf (h : s.memWf) : Result.memWf (execStationDown s) := by
  unfold execStationDown
  extract_lets i
  split
  next n t e =>
  extract_lets u
  have hu : u.memWf := (h.fresh.of_eq e).same
  exact hu.postPackage.at.next

theorem execStationRetrained_memWf (h : s.memWf) : Result.memWf (execStationRetrained s) := by
  unfold execStationRetrained
  exact h.same.postPackage.next

theorem State.memWf.revertDrive (h : s.memWf) : s.revertDrive.memWf := by
  unfold State.revertDrive
  exact h.when (·.same)

theorem execTimeLockLoss_memWf (h : s.memWf) : Result.memWf (execTimeLockLoss s) := by
  unfold execTimeLockLoss
  exact (h.same.when (·.revertDrive.postPackage)).next

theorem execPtpMessageReceipt_memWf {ns : W64} (h : s.memWf) : Result.memWf (execPtpMessageReceipt ns s) := by
  unfold execPtpMessageReceipt
  refine h.next.ite ?_
  split
  next n t e =>
  extract_lets now off near lost u v
  have hu : u.memWf := (h.fresh.of_eq e).same
  have hv : v.memWf := hu.when (·.at)
  exact hv.placeBoundary.next

theorem State.memWf.beginEmergency (h : s.memWf) : s.beginEmergency.memWf := by
  unfold State.beginEmergency
  extract_lets src t
  have ht : t.memWf := State.memWf.same (h.accrue : src.memWf)
  exact h.ite ht.revertDrive.postPackage

theorem execPowerAlarm_memWf (h : s.memWf) : Result.memWf (execPowerAlarm s) := by
  unfold execPowerAlarm
  exact h.same.beginEmergency.next

theorem execPowerAlarmRelease_memWf (h : s.memWf) : Result.memWf (execPowerAlarmRelease s) := by
  unfold execPowerAlarmRelease
  exact h.same.next

theorem execStackTemperature_memWf {deg : Byte} (h : s.memWf) : Result.memWf (execStackTemperature deg s) := by
  unfold execStackTemperature
  extract_lets src t
  have ht : t.memWf := State.memWf.same (h.emptyMail : src.memWf)
  exact (ht.when (·.beginEmergency)).next

theorem execScrubRange_memWf {chan : Fin 32} {pa len : W32} (h : s.memWf) :
    Result.memWf (execScrubRange chan pa len s) := by
  unfold execScrubRange
  exact (h.modCore fun _ hk => hk.same).next

theorem execRepairLane_memWf {chan : Fin 32} {pc : Fin 2} {lane spare : Byte} (h : s.memWf) :
    Result.memWf (execRepairLane chan pc lane spare s) := by
  unfold execRepairLane
  exact (h.modCore fun _ hk => hk.same).next

theorem execCorrectedErrorCount_memWf {chan : Fin 32} {_ce ue _first : W32} (h : s.memWf) :
    Result.memWf (execCorrectedErrorCount chan _ce ue _first s) := by
  unfold execCorrectedErrorCount
  exact (h.emptyMail.foldl fun _ _ ht => ht.postBlock).next

theorem State.memWf.outOfService {c : Nat} (h : s.memWf) : (s.outOfService c).memWf := by
  unfold State.outOfService
  exact (h.modCore fun _ hk => hk.same).when (·.same)

theorem execRepairDone_memWf {chan : Fin 32} {status : Byte} (h : s.memWf) :
    Result.memWf (execRepairDone chan status s) := by
  unfold execRepairDone
  dsimp only
  refine State.memWf.next ?_
  split
  · exact (h.emptyMail.modCore fun _ hk => hk.same).at
  · exact h.emptyMail.when (·.outOfService)

theorem execForwardedStatusReceipt_memWf (h : s.memWf) : Result.memWf (execForwardedStatusReceipt s) := by
  unfold execForwardedStatusReceipt
  exact h.complete.nextCommand.next

theorem execForwardedCommandReceipt_memWf (h : s.memWf) : Result.memWf (execForwardedCommandReceipt s) := by
  unfold execForwardedCommandReceipt
  extract_lets slot message t
  have ht : t.memWf := State.memWf.same (h.storeCmd (bs := message))
  exact (ht.unless (·.nextCommand)).next

theorem execForwardedEventRecordReceipt_memWf {part : Fin 8} {r : W64} (h : s.memWf) :
    Result.memWf (execForwardedEventRecordReceipt part r s) := by
  unfold execForwardedEventRecordReceipt
  exact h.packet.pushEvent.eventMsi.next

/-! ### Commands of the host -/

theorem State.memWf.finish {slot code : Nat} (h : s.memWf) : (s.finish slot code).memWf := by
  unfold State.finish
  exact h.complete.nextCommand

theorem State.memWf.reply {slot : Nat} {bs : List Byte} (h : s.memWf) : (s.reply slot bs).memWf := by
  unfold State.reply
  exact h.storeCmd

theorem State.memWf.replyWord {slot : Nat} {x : W64} (h : s.memWf) : (s.replyWord slot x).memWf := by
  unfold State.replyWord
  exact h.reply.finish

theorem execCmddb_memWf {v : W32} (h : s.memWf) : Result.memWf (execCmddb v s) := by
  unfold execCmddb
  exact (h.when fun ht => ht.same.unless (·.nextCommand)).next

theorem State.memWf.barWrite {addr : Nat} {data : List Byte} (h : s.memWf) : (s.barWrite addr data).memWf := by
  unfold State.barWrite
  extract_lets t
  have ht : t.memWf := h.storeCmd
  exact h.ite (ht.when (·.at))

theorem State.memWf.forward {slot dev : Nat} (h : s.memWf) : (s.forward slot dev).memWf := by
  unfold State.forward
  exact h.finish.ite h.same.packet.at

theorem State.memWf.takeCommand (h : s.memWf) : s.takeCommand.memWf := by
  unfold State.takeCommand
  dsimp only
  split
  · exact h.same
  · refine .ite h.same.finish (.ite h.same.finish (.ite h.same.finish (.ite h.same.forward ?_)))
    split
    · exact h.same.at
    · exact h.same.finish

theorem execRdreg_memWf (h : s.memWf) : Result.memWf (execRdreg s) := by
  unfold execRdreg
  dsimp only
  refine (h.finish.unless fun ht => ?_).next
  split
  · exact h.replyWord
  · exact ht

theorem State.memWf.writeTim {c : Nat} {i : Fin 3} {v : W64} (h : s.memWf) : (s.writeTim c i v).2.memWf := by
  unfold State.writeTim
  dsimp only
  split
  · exact h
  · split
    · exact h
    · exact h.modCore fun _ hk => hk.same

theorem State.memWf.setCadNew {new : Cad} (h : s.memWf) : (s.setCadNew new).memWf := by
  unfold State.setCadNew
  exact h.same

theorem State.memWf.writeCad {code : Nat} {v : W64} (h : s.memWf) : (s.writeCad code v).2.memWf := by
  unfold State.writeCad
  dsimp only
  split
  · exact h
  · split
    · split
      · exact h
      · exact h.same
    · split
      · exact h.setCadNew
      · split
        · exact h
        · split
          · exact h
          · exact h.setCadNew

theorem State.memWf.writeReg {code i : Nat} {v : W64} (h : s.memWf) : (s.writeReg code i v).2.memWf := by
  unfold State.writeReg
  split
  · exact h.writeCad
  · exact h.writeCad
  · exact h.writeCad
  · exact h.writeTim
  · exact h.writeTim
  · exact h.writeTim
  · exact h.same
  · exact h.same
  · exact h.same
  · exact h.same
  · split
    · exact h
    · split
      · exact h
      · exact h.same
  · exact h

theorem execWrreg_memWf (h : s.memWf) : Result.memWf (execWrreg s) := by
  unfold execWrreg
  dsimp only
  exact (h.finish.ite h.writeReg.finish).next

theorem execWrrwWrite_memWf (h : s.memWf) : Result.memWf (execWrrwWrite s) := by
  unfold execWrrwWrite
  exact (h.finish.ite h.same.finish).next

theorem execWerrRead_memWf (h : s.memWf) : Result.memWf (execWerrRead s) := by
  unfold execWerrRead
  exact (h.finish.ite ((h.modCore fun _ hk => hk.same).replyWord)).next

theorem execCerrstRead_memWf (h : s.memWf) : Result.memWf (execCerrstRead s) := by
  unfold execCerrstRead
  exact (h.finish.ite ((h.modCore fun _ hk => hk.same).replyWord)).next

theorem execPerrstRead_memWf (h : s.memWf) : Result.memWf (execPerrstRead s) := by
  unfold execPerrstRead
  exact (h.finish.ite h.same.replyWord).next

theorem execEventQueueRead_memWf (h : s.memWf) : Result.memWf (execEventQueueRead s) := by
  unfold execEventQueueRead
  dsimp only
  refine (h.finish.ite ?_).next
  split
  · exact h.replyWord
  · exact h.same.replyWord

theorem Core.memWf.phyClear (hk : k.memWf) : k.phyClear.memWf := by
  unfold Core.phyClear
  exact hk.allLanes

theorem execPhyctlClr_memWf (h : s.memWf) : Result.memWf (execPhyctlClr s) := by
  unfold execPhyctlClr
  exact (h.modCur fun _ hk => hk.phyClear).next

theorem State.memWf.arm {slot : Nat} {regs : Cad} {count : Option (BitVec 48)} (h : s.memWf) :
    (s.arm slot regs count).memWf := by
  unfold State.arm
  exact h.finish.ite (h.finish.ite h.same.nextCommand)

theorem execArmtd_memWf (h : s.memWf) : Result.memWf (execArmtd s) := by
  unfold execArmtd
  exact (h.finish.ite (h.finish.ite h.arm)).next

theorem execCadctlDriveArm_memWf (h : s.memWf) : Result.memWf (execCadctlDriveArm s) := by
  unfold execCadctlDriveArm
  exact (h.finish.ite (h.finish.ite h.arm)).next

theorem execEnqueue_memWf (h : s.memWf) : Result.memWf (execEnqueue s) := by
  unfold execEnqueue
  dsimp only
  refine (h.finish.unless fun ht => h.finish.ite (ht.ite ?_)).next
  split
  · exact h.enqueueRecord.finish
  · exact h.finish
  · exact h.finish
  · exact h.finish

theorem execGroupdef_memWf (h : s.memWf) : Result.memWf (execGroupdef s) := by
  unfold execGroupdef
  exact (h.finish.ite (h.finish.ite h.same.wakeCalls.finish)).next

theorem execPartset_memWf (h : s.memWf) : Result.memWf (execPartset s) := by
  unfold execPartset
  exact (h.finish.ite h.same.finish).next

theorem execPreempt_memWf (h : s.memWf) : Result.memWf (execPreempt s) := by
  unfold execPreempt
  exact (h.finish.ite (State.memWf.ite h.same.finish h.same.finish)).next

theorem execMboxsend_memWf (h : s.memWf) : Result.memWf (execMboxsend s) := by
  unfold execMboxsend
  exact (h.finish.ite (h.finish.ite (h.at.ite h.same.finish))).next

theorem execAttest_memWf (h : s.memWf) : Result.memWf (execAttest s) := by
  unfold execAttest
  dsimp only
  exact (h.fresh.finish.ite h.fresh.reply.finish).next

/-- The chunk store with bytes stored. -/
theorem State.memWf.storeChunk {bs : List (Nat × Byte)} (h : s.memWf) :
    State.memWf { s with chunk := s.chunk.storeAll bs } := by
  obtain ⟨hch, hcmd, hcores⟩ := h
  exact ⟨Memory.wf_storeAll bs hch, hcmd, hcores⟩

theorem execMemwr_memWf (h : s.memWf) : Result.memWf (execMemwr s) := by
  unfold execMemwr
  extract_lets slot a data
  refine State.memWf.next (h.finish.ite ?_)
  split
  · exact h.finish
  · refine State.memWf.ite h.same (h.finish.ite (State.memWf.ite (State.memWf.finish ?_) (State.memWf.finish ?_)))
    · exact State.memWf.same (h.storeChunk (bs := addressed a.addr data))
    · exact h.landRaw fun _ ht => ht

theorem execMemrd_memWf (h : s.memWf) : Result.memWf (execMemrd s) := by
  unfold execMemrd
  dsimp only
  refine (h.finish.ite ?_).next
  split
  · exact h.finish
  · refine State.memWf.ite h.same (.ite ?_ ?_)
    · exact (h.unless fun ht => ht.modCore fun _ hk => hk.same).finish
    · exact (h.unless (·.fixes)).reply.finish

/-! ### Power-on and training -/

theorem Core.memWf.modPhy {f : Phy → Phy} (hk : k.memWf) : (k.modPhy f).memWf := by
  unfold Core.modPhy
  exact hk.same

theorem State.memWf.beginTraining {c : Nat} (h : s.memWf) : (s.beginTraining c).memWf := by
  unfold State.beginTraining
  refine (h.modCore fun k hk => ?_).at
  extract_lets k1
  have h1 : k1.memWf := hk.allLanes
  exact h1.same

theorem State.memWf.bringUp {step : Nat} (h : s.memWf) : (s.bringUp step).memWf := by
  unfold State.bringUp
  exact h.at

theorem State.memWf.booted {x : W64} (h : s.memWf) : (s.booted x).memWf := by
  unfold State.booted
  exact h.same

theorem State.memWf.endTraining {c : Nat} {ok conf : Bool} (h : s.memWf) : (s.endTraining c ok conf).memWf := by
  unfold State.endTraining
  extract_lets s1 s2
  have h1 : s1.memWf := h.modCore fun _ hk => hk.same
  have h2 : s2.memWf := h1.unless (·.outOfService)
  exact h2.when (·.booted.bringUp)

theorem State.memWf.runTraining {c : Nat} {f : Lane → Lane} (h : s.memWf) : (s.runTraining c f).memWf := by
  unfold State.runTraining
  extract_lets s1 src
  have h1 : s1.memWf := h.modCore fun _ hk => hk.allLanes.phyClear.modPhy
  clear_value s1
  have h2 : src.memWf := State.memWf.beginChain h1.same
  clear_value src
  exact State.memWf.ite h2.same h.at

theorem Core.memWf.trainTo {stage : TrainStage} {repairs : List (Nat × Nat × Nat)} (hk : k.memWf) :
    (k.trainTo stage repairs).memWf := by
  unfold Core.trainTo
  exact hk.modPhy

theorem Core.memWf.endReadSweep (hk : k.memWf) : k.endReadSweep.memWf := by
  unfold Core.endReadSweep
  exact hk.allLanes.trainTo

theorem State.memWf.endWriteSweep {c : Nat} (h : s.memWf) : (s.endWriteSweep c).memWf := by
  unfold State.endWriteSweep
  dsimp only
  split
  · exact ((h.modCore fun _ hk => hk.allLanes).modCore fun _ hk => hk.trainTo).at
  · exact (h.modCore fun _ hk => hk.allLanes).endTraining

theorem State.memWf.askRepair {c : Nat} {r : Nat × Nat × Nat} (h : s.memWf) : (s.askRepair c r).memWf := by
  unfold State.askRepair
  extract_lets src
  have h1 : src.memWf := h.modCore fun _ hk => hk.modPhy
  exact h.at.ite h1.same

theorem State.memWf.sweep {c : Nat} {t : Train} {f : Nat → Lane → Lane} {ended : State → State}
    (h : s.memWf) (hended : ∀ t, t.memWf → (ended t).memWf) : (s.sweep c t f ended).memWf := by
  unfold State.sweep
  extract_lets judged v s1 s2
  have h1 : s1.memWf := h.when fun ht => ht.modCore fun _ hk => hk.allLanes
  have h2 : s2.memWf := h1.modCore fun _ hk => hk.modPhy
  exact (hended _ h2).ite h2.runTraining

theorem State.memWf.trainStep {c : Nat} (h : s.memWf) : (s.trainStep c).memWf := by
  unfold State.trainStep
  split
  · exact h
  · split
    · exact h.sweep fun _ ht => (ht.modCore fun _ hk => hk.endReadSweep).at
    · exact h.sweep fun _ ht => ht.endWriteSweep
    · refine h.endTraining.ite ?_
      split
      · exact h.askRepair
      · exact (h.modCore fun _ hk => hk.trainTo).at
    · exact h.endTraining.ite ((h.modCore fun _ hk => hk.trainTo).runTraining)

theorem State.memWf.startDebts (h : s.memWf) : s.startDebts.memWf := by
  unfold State.startDebts
  exact h.foldl fun _ _ ht => ht.foldl fun _ _ hu => hu.post.post

theorem execResetRelease_memWf (h : s.memWf) : Result.memWf (execResetRelease s) := by
  unfold execResetRelease
  refine State.memWf.next ?_
  split
  · extract_lets t
    have ht : t.memWf := h.same
    exact ht.startDebts.at.bringUp
  · exact h.when (·.booted.bringUp)
  · exact h.foldl fun _ _ ht => ht.beginTraining
  · extract_lets failed t
    have ht : t.memWf := h.foldl fun _ _ hu => hu.same
    exact ht.booted.bringUp
  · extract_lets up
    exact State.memWf.when h fun _ => (State.memWf.booted h.same).bringUp
  · exact State.memWf.booted h.same
  · exact h

/-! ### Loads -/

theorem State.memWf.readPoint {r : LoadReq} (h : s.memWf) : (s.readPoint r).memWf := by
  unfold State.readPoint
  dsimp only
  split
  · exact h.readBytes
  · split
    · exact h.readBytes.result
    · exact h.readBytes.result
    · exact h.readBytes.result
    · exact h.readBytes.result
    · split
      · exact h.readBytes.raiseOn
      · exact h.readBytes.result

/-! ### The matrix unit -/

theorem execMset_memWf {g : Guard} {o : BitVec 12} {a : Fin 32} {k : Fin 8} (h : s.memWf) :
    Result.memWf (execMset g o a k s) := by
  unfold execMset
  exact h.slot fun _ ht => ht.enqueue

theorem execMcall_memWf {g : Guard} {o : BitVec 12} {a b : Fin 32} (h : s.memWf) :
    Result.memWf (execMcall g o a b s) := by
  unfold execMcall
  exact h.slot fun _ ht => ht.computeOnly fun _ hu => hu.enqueue

theorem execMload_memWf {g : Guard} {o : BitVec 12} {a b : Fin 32} (h : s.memWf) :
    Result.memWf (execMload g o a b s) := by
  unfold execMload
  exact h.slot fun _ ht => ht.computeOnly fun _ hu => hu.enqueue

theorem execCpyaSpm_memWf {g : Guard} {o : BitVec 12} {a b : Fin 32} (h : s.memWf) :
    Result.memWf (execCpyaSpm g o a b s) := by
  unfold execCpyaSpm
  exact h.slot fun _ ht => ht.enqueue

theorem execCpyaAcc_memWf {g : Guard} {o : BitVec 12} {a b : Fin 32} (h : s.memWf) :
    Result.memWf (execCpyaAcc g o a b s) := by
  unfold execCpyaAcc
  exact h.slot fun _ ht => ht.enqueue

theorem State.memWf.modMx {f : Matrix → Matrix} (h : s.memWf) (hf : ∀ x, (f x).abuf = x.abuf := by simp) :
    (s.modMx f).memWf := by
  unfold State.modMx
  exact h.modCur fun k hk => hk.same (ha := hf k.mx)

theorem State.memWf.modSeq {f : Machine.Seq → Machine.Seq} (h : s.memWf) : (s.modSeq f).memWf := by
  unfold State.modSeq
  exact h.modMx

theorem State.memWf.mxErr {cls info loc : Nat} (h : s.memWf) : (s.mxErr cls info loc).memWf := by
  unfold State.mxErr
  dsimp only
  exact h.raiseOn

theorem State.memWf.seqStop (h : s.memWf) : s.seqStop.memWf := by
  unfold State.seqStop
  dsimp only
  split
  · exact h.modMx
  · exact h.drop.modMx.later

theorem State.memWf.portStop (h : s.memWf) : s.portStop.memWf := by
  unfold State.portStop
  dsimp only
  exact h.modSeq.seqStop

theorem State.memWf.arrayStop {o : MmaOp} {dead : Nat → Bool} (h : s.memWf) : (s.arrayStop o dead).memWf := by
  unfold State.arrayStop
  dsimp only
  exact h.drop.modSeq.seqStop

theorem State.memWf.mxStop {cls info loc : Nat} (h : s.memWf) : (s.mxStop cls info loc).memWf := by
  unfold State.mxStop
  exact h.mxErr.seqStop

theorem State.memWf.stepTo {target : Option Nat} {cyc : Nat} (h : s.memWf) : (s.stepTo target cyc).memWf := by
  unfold State.stepTo
  exact h.modSeq.later

theorem State.memWf.stepOn {n : Nat} (h : s.memWf) : (s.stepOn n).memWf := by
  unfold State.stepOn
  exact h.stepTo

theorem State.memWf.startMset {k : Fin 8} {x : W64} (h : s.memWf) : (s.startMset k x).memWf := by
  unfold State.startMset
  exact h.modCur fun _ hk => hk.same.unmark

theorem State.memWf.startMcall {a b : W64} (h : s.memWf) : (s.startMcall a b).memWf := by
  unfold State.startMcall
  refine h.mxErr.ite (h.mxErr.ite (.ite (h.foldl fun _ _ ht => ht.raiseOn) (h.mxErr.ite ?_)))
  exact h.fixes.raiseOn.ite h.fixes.modMx.later

theorem State.memWf.beginWld {l : Load} {addr : Nat} (h : s.memWf) : (s.beginWld l addr).memWf := by
  unfold State.beginWld
  exact h.later

theorem State.memWf.beginWldp {l : Load} {ok : State → State} (h : s.memWf) (hok : ∀ t, t.memWf → (ok t).memWf) :
    (s.beginWldp l ok).memWf := by
  unfold State.beginWldp
  exact h.mxStop.ite (hok _ h.later)

theorem State.memWf.startMload {a b : W64} (h : s.memWf) : (s.startMload a b).memWf := by
  unfold State.startMload
  exact h.mxErr.ite (h.mxErr.ite (State.memWf.ite (h.beginWldp fun _ ht => ht.modMx) h.modMx.beginWld))

theorem State.memWf.startCpya {o : CopyOp} (h : s.memWf) : (s.startCpya o).memWf := by
  unfold State.startCpya
  exact h.mxErr.ite (h.raiseOn.ite h.modMx.later)

theorem execMend_memWf (h : s.memWf) : Result.memWf (execMend s) := by
  unfold execMend
  exact h.seqStop.next

theorem execMnop_memWf {n : BitVec 16} (h : s.memWf) : Result.memWf (execMnop n s) := by
  unfold execMnop
  exact h.stepOn.next

theorem execMseta_memWf {k : Fin 8} {imm : BitVec 32} (h : s.memWf) : Result.memWf (execMseta k imm s) := by
  unfold execMseta
  exact h.modMx.stepOn.next

theorem execMadda_memWf {k : Fin 8} {imm : BitVec 32} (h : s.memWf) : Result.memWf (execMadda k imm s) := by
  unfold execMadda
  exact h.modMx.stepOn.next

theorem execMsetc_memWf {k : Fin 4} {imm : BitVec 32} (h : s.memWf) : Result.memWf (execMsetc k imm s) := by
  unfold execMsetc
  exact h.modMx.stepOn.next

theorem execMloop_memWf {k : Fin 4} {target : BitVec 13} (h : s.memWf) : Result.memWf (execMloop k target s) := by
  unfold execMloop
  exact (h.modMx.stepTo.ite h.modMx.stepOn).next

theorem execMsync_memWf {mask : BitVec 4} (h : s.memWf) : Result.memWf (execMsync mask s) := by
  unfold execMsync
  dsimp only
  refine State.memWf.next ?_
  split
  · exact h
  · exact h.stepTo

theorem execAgath_memWf {bs is : Fin 8} {wd : Fin 4} {stride : Bool} {a : Fin 8} {aoff nm : BitVec 11} (h : s.memWf) :
    Result.memWf (execAgath bs is wd stride a aoff nm s) := by
  unfold execAgath
  exact h.mxStop.next.ite (h.mxStop.next.ite (h.mxStop.next.ite (h.mxStop.next.ite h.modSeq.later.stepOn.next)))

theorem execWld_memWf {d : Fin 8} {j : BitVec 16} {int half : Bool} (h : s.memWf) :
    Result.memWf (execWld d j int half s) := by
  unfold execWld
  exact h.modSeq.beginWld.stepOn.next

theorem execWldp_memWf {d : Fin 8} {fmt : Fin 16} {half : Bool} (h : s.memWf) :
    Result.memWf (execWldp d fmt half s) := by
  unfold execWldp
  exact (h.beginWldp fun _ ht => ht.modSeq.stepOn).next

theorem State.memWf.clearGroups {c0 n fuel m : Nat} (h : s.memWf) : (s.clearGroups c0 n fuel m).memWf := by
  induction fuel generalizing s m with
  | zero => exact h
  | succ fuel ih =>
    unfold State.clearGroups
    exact ih h.later

theorem execAclr_memWf {c : Fin 8} {coff nm : BitVec 11} (h : s.memWf) : Result.memWf (execAclr c coff nm s) := by
  unfold execAclr
  exact h.modSeq.clearGroups.stepOn.next

theorem execMma_memWf {c : Fin 8} {coff : BitVec 11} {a : Fin 8} {aoff : BitVec 11} {afmt : Fin 16} {x2 half : Bool} {nm : BitVec 11}
    (h : s.memWf) : Result.memWf (execMma c coff a aoff afmt x2 half nm s) := by
  unfold execMma
  exact h.mxStop.next.ite h.modSeq.later.stepOn.next

theorem execRoutineEnd_memWf (h : s.memWf) : Result.memWf (execRoutineEnd s) := by
  unfold execRoutineEnd
  exact h.modMx.next

theorem State.memWf.seqStep {ex : Instr → State → Result} (h : s.memWf) (hex : ∀ i t, t.memWf → Result.memWf (ex i t)) :
    Result.memWf (s.seqStep ex) := by
  unfold State.seqStep
  dsimp only
  split
  · exact h.next
  · refine Result.memWf.ite h.same.mxStop.next (Result.memWf.ite h.same.mxStop.next (Result.memWf.ite h.same.later.next ?_))
    split
    · exact h.same.fixes.mxStop.next
    · exact hex _ _ h.same.fixes

theorem State.memWf.portErr {info loc : Nat} (h : s.memWf) : (s.portErr info loc).memWf := by
  unfold State.portErr
  exact h.mxErr.portStop

theorem State.memWf.portCycle {loc : Nat} {f : State → State} (h : s.memWf) (hf : ∀ t, t.memWf → (f t).memWf) :
    (s.portCycle loc f).memWf := by
  unfold State.portCycle
  exact h.portErr.ite (hf _ h)

theorem State.memWf.gatherList {g : Gather} {k : Nat} (h : s.memWf) : (s.gatherList g k).memWf := by
  unfold State.gatherList
  dsimp only
  split
  · exact h.readBytes.portStop
  · exact h.readBytes.later

theorem State.memWf.gatherRows {g : Gather} {m : Nat} (h : s.memWf) : (s.gatherRows g m).memWf := by
  unfold State.gatherRows
  dsimp only
  split
  · exact h.portErr
  · split
    · exact h.portErr
    · split
      · exact h.readBytes.portStop
      · exact h.readBytes.later.when (·.later)

theorem State.memWf.loadEnds {l : Load} {free sw : Nat} (h : s.memWf) : (s.loadEnds l free sw).memWf := by
  unfold State.loadEnds
  exact h.modMx.ite h.modSeq

theorem State.memWf.loadEntry {l : Load} {addr : Nat} (h : s.memWf) : (s.loadEntry l addr).memWf := by
  unfold State.loadEntry
  dsimp only
  refine h.portErr.ite ?_
  split
  · exact h.readBytes.portStop
  · exact h.readBytes.portErr.ite (h.readBytes.loadEnds.later.ite h.readBytes.loadEnds.later)

theorem State.memWf.loadBlocks {l : Load} {k : Nat} (h : s.memWf) : (s.loadBlocks l k).memWf := by
  unfold State.loadBlocks
  dsimp only
  split
  · exact h.readBytes.portStop
  · split
    · split
      · exact h.readBytes.raiseOn.portStop
      · exact h.readBytes
    · exact h.readBytes.later.ite h.readBytes.later

theorem State.memWf.loadPlain {l : Load} {k : Nat} (h : s.memWf) : (s.loadPlain l k).memWf := by
  unfold State.loadPlain
  dsimp only
  split
  · exact h.readBytes.portStop
  · exact h.readBytes.later.ite h.readBytes.later

theorem State.memWf.port {p : Port} {addr : Nat} (h : s.memWf) : (s.port p addr).memWf := by
  unfold State.port
  dsimp only
  refine h.same.portCycle fun _ ht => ?_
  split
  · exact ht.gatherList
  · exact ht.gatherRows
  · exact ht.loadEntry
  · exact ht.loadBlocks
  · exact ht.loadPlain

theorem Core.memWf.passArray (hk : k.memWf) : k.passArray.memWf := by
  unfold Core.passArray
  exact hk.ite hk.same

theorem State.memWf.array {o : MmaOp} {m addr : Nat} (h : s.memWf) : (s.array o m addr).memWf := by
  unfold State.array
  refine State.memWf.ite h.same.mxErr.arrayStop (.when (.later ?_) (·.later))
  exact h.same.unless fun ht => (ht.modCur fun _ hk => hk.passArray).foldl fun _ _ hu => hu.raiseOn

theorem Core.memWf.writeAcc {els : List (Nat × W32)} (hk : k.memWf) : (k.writeAcc els).memWf := by
  unfold Core.writeAcc
  exact hk.same

theorem Core.memWf.signRows {cyc who : Nat} {els acc : List (Nat × W32)} (hk : k.memWf) :
    (k.signRows cyc who els acc).memWf := by
  unfold Core.signRows
  exact hk.ite (List.foldlRecOn _ _ hk fun _ hk' _ _ => hk'.sign)

theorem Core.memWf.landArray {cyc : Nat} {ups : List (Nat × AccUpd)} (hk : k.memWf) : (k.landArray cyc ups).memWf := by
  unfold Core.landArray
  extract_lets els wrote k1
  have h1 : k1.memWf := hk.writeAcc
  clear_value k1
  exact Core.memWf.signRows h1.same

theorem State.memWf.landAcc {c : Nat} {src : Option (MmaOp × Nat × Nat)} {ups : List (Nat × AccUpd)} (h : s.memWf) :
    (s.landAcc c src ups).memWf := by
  unfold State.landAcc
  split
  · exact h.modCore fun _ hk => hk.landArray
  · split
    · next t e =>
      have ht := h.meet.of_eq e
      exact ht.arrayStop
    · next t e =>
      have ht := h.meet.of_eq e
      exact ht.modCore fun _ hk => hk.landArray

theorem Core.memWf.landCopy {cyc : Nat} {els : List (Nat × W32)} (hk : k.memWf) : (k.landCopy cyc els).memWf := by
  unfold Core.landCopy
  extract_lets array free before k1 src k2
  have h1 : k1.memWf := hk.writeAcc
  have h2 : k2.memWf := h1.same
  exact h2.signRows

theorem State.memWf.landCopyAcc {c : Nat} {els : List (Nat × W32)} (h : s.memWf) : (s.landCopyAcc c els).memWf := by
  unfold State.landCopyAcc
  exact h.modCore fun _ hk => hk.landCopy

theorem State.memWf.rowWords {mode : Nat} (h : s.memWf) : (s.rowWords mode).2.memWf := by
  unfold State.rowWords
  split
  · split
    next ws t e =>
    exact (h.drawWords.of_eq e : t.memWf)
  · exact h

theorem State.memWf.copyStop (h : s.memWf) : s.copyStop.memWf := by
  unfold State.copyStop
  exact h.modMx

theorem State.memWf.readRng {o : CopyOp} (h : s.memWf) : (s.readRng o).2.memWf := by
  unfold State.readRng
  split
  · exact h.raiseOn
  · exact h

theorem State.memWf.copyRow {o : CopyOp} {k : Nat} (h : s.memWf) : (s.copyRow o k).memWf := by
  unfold State.copyRow
  extract_lets c row at_ w acc next
  split
  next rng t e =>
  have ht := h.readRng.of_eq e
  have hnext {u : State} (hu : u.memWf) : (next u).memWf := hu.when (·.later)
  split
  · split
    next sound u e =>
    have hu := ht.meet.of_eq e
    refine hu.copyStop.ite ?_
    split
    next ws v e =>
    have hv := hu.rowWords.of_eq e
    extract_lets xs v1
    have h1 : v1.memWf := hv.later
    exact hnext (h1.when (·.later))
  · split
    next res u e =>
    have hu := ht.readBytes.of_eq e
    split
    · exact hu.copyStop
    · extract_lets x
      split
      next ws v e =>
      have hv := hu.rowWords.of_eq e
      exact hnext hv.later

/-! ### Drains, reruns and saved contexts -/

theorem State.memWf.rerunAgain {c : Nat} (h : s.memWf) : (s.rerunAgain c).memWf := by
  unfold State.rerunAgain
  exact (h.modCore fun _ hk => hk.same).restore

theorem execTrapDrainCompletion_memWf (h : s.memWf) : Result.memWf (execTrapDrainCompletion s) := by
  unfold execTrapDrainCompletion
  dsimp only
  refine State.memWf.next ?_
  split
  · exact h
  · exact h.atLast.ite (h.resumeParked.ite (h.finishRfd.ite (h.rerunAgain.ite h.finishDrain)))

theorem execRerunVerification_memWf (h : s.memWf) : Result.memWf (execRerunVerification s) := by
  unfold execRerunVerification
  dsimp only
  refine State.memWf.next ?_
  split
  · exact h
  · exact State.memWf.ite ((h.modCur fun _ hk => hk.same).beginDrain) (State.memWf.ite ((h.modCur fun _ hk => hk.same).at) h.raiseOn)

theorem State.memWf.contextReads {c : Nat} (h : s.memWf) : (s.contextReads c).memWf := by
  unfold State.contextReads
  exact (h.foldl fun _ _ ht => ht.fixes).foldl fun _ _ ht => ht.raiseOn

/-- A table of cells that all lie at `b` or above keeps its form when `b` is taken from each address. -/
theorem Sp.wf_mapSub {α : Type} [DecidableEq α] {d : α} {m : List (Nat × α)} {b : Nat}
    (h : Sp.wf d m = true) (hb : ∀ e ∈ m, b ≤ e.1) :
    Sp.wf d (m.map fun e => (e.1 - b, e.2)) = true := by
  induction m with
  | nil => rfl
  | cons a r ih =>
    obtain ⟨hx, hlt, hr⟩ := Sp.wf_cons.mp h
    rw [List.map_cons]
    refine Sp.wf_cons.mpr ⟨hx, fun e he => ?_, ih hr fun e he => hb e (List.mem_cons_of_mem _ he)⟩
    obtain ⟨f, hf, rfl⟩ := List.mem_map.mp (List.mem_of_mem_head? he)
    have h1 := Sp.wf_lt h f hf
    have h2 := hb a List.mem_cons_self
    dsimp only
    omega

theorem Memory.wf_taken {m : Memory} (off n : Nat) (h : m.wf) : (m.taken off n).wf := by
  unfold Memory.taken
  refine Sp.wf_mapSub (Memory.wf_filter _ h) fun e he => ?_
  have hp := (List.mem_filter.mp he).2
  simp only [Bool.and_eq_true, decide_eq_true_eq] at hp
  exact hp.1

theorem Memory.wf_saveContext {m : Memory} (image : List (Nat × Byte)) (h : m.wf) : (m.saveContext image).wf := by
  unfold Memory.saveContext
  exact Memory.wf_storeAll _ (Memory.wf_filter _ h)

theorem Core.memWf.takeContext {m : Memory} (hk : k.memWf) (hm : m.wf) : (k.takeContext m).memWf := by
  unfold Core.takeContext
  obtain ⟨-, -, hi, -, hb⟩ := hk
  exact ⟨Memory.wf_taken _ _ hm, Memory.wf_taken _ _ hm, hi, Memory.wf_taken _ _ hm, hb⟩

theorem State.memWf.contextChain {cycles : Nat} {ev : Instr} (h : s.memWf) : (s.contextChain cycles ev).memWf := by
  unfold State.contextChain
  exact ((h.modCur fun _ hk => hk.takeTiming).modCh).at

theorem execContextSave_memWf (h : s.memWf) : Result.memWf (execContextSave s) := by
  unfold execContextSave
  extract_lets c free t
  have ht : t.memWf := h.same
  refine State.memWf.next (State.memWf.ite (h.ite h.stopChain) (State.memWf.ite (h.contextChain.ite h.at) ?_))
  exact (ht.contextReads.modCur fun _ hk => hk.hbm (Memory.wf_saveContext _ hk.hbmWf)).stopChain

theorem execContextRestore_memWf (h : s.memWf) : Result.memWf (execContextRestore s) := by
  unfold execContextRestore
  extract_lets c t u
  have ht : t.memWf := h.stopChain
  have hu : u.memWf := ht.same
  refine State.memWf.next (State.memWf.ite (h.ite h.stopChain) (State.memWf.ite (h.at.ite h.contextChain) (ht.killTask.ite ?_)))
  refine hu.modCur fun k hk => ?_
  extract_lets k1
  have h1 : k1.memWf := hk.takeContext hk.hbmWf
  split
  · exact h1.loadCode
  · exact h1

/-! ### The start of a queued command -/

theorem State.memWf.startCommand {cmd : Cmd} (h : s.memWf) : (s.startCommand cmd).memWf := by
  unfold State.startCommand
  split
  · exact h.startMset
  · exact h.startMcall
  · exact h.startMload
  · exact h.startCpya
  · exact h.startCpya
  · exact h.startTlgo
  · exact h.startColl
  · exact h.startRemote
  · exact h.startRemote
  · exact h.startRemote
  · exact h.startRemote
  · exact h.startRemote
  · exact h.startRemote
  · exact h.startRemote
  · exact h.startRemote
  · exact h

theorem execEngineCommandStart_memWf {q : QueueId} (h : s.memWf) : Result.memWf (execEngineCommandStart q s) := by
  unfold execEngineCommandStart
  refine State.memWf.next ?_
  split
  · exact h
  · extract_lets t
    have ht : t.memWf := h.modCur fun _ hk => hk.same
    exact State.memWf.startCommand ht.same

/-! ### Daymarks -/

theorem Core.memWf.reissue {cyc : Nat} (hk : k.memWf) : (k.reissue cyc).memWf := by
  unfold Core.reissue
  exact hk.same

theorem execDaymark_memWf (h : s.memWf) : Result.memWf (execDaymark s) := by
  unfold execDaymark
  extract_lets again t
  have ht : t.memWf := h.when fun hu => hu.modCur fun _ hk => hk.reissue
  refine State.memWf.next (ht.unless fun hu => hu.modCur fun k hk => ?_)
  extract_lets k1 src
  have h1 : k1.memWf := hk.same
  have h2 : src.memWf := h1.unmarkAll
  exact h1.ite h2.same

/-! ### The issue of a bundle -/

theorem State.memWf.waitOne {c : Nat} (h : s.memWf) : (s.waitOne c).memWf := by
  unfold State.waitOne
  exact (h.modCore fun _ hk => hk.same).at

theorem State.memWf.endWaits {c : Nat} (h : s.memWf) : (s.endWaits c).memWf := by
  unfold State.endWaits
  split
  · exact h
  · exact h.seesBy.modCore fun _ hk => hk.same

theorem State.memWf.raiseAll {c : Nat} {es : List Err} (h : s.memWf) : (s.raiseAll c es).memWf := by
  unfold State.raiseAll
  exact h.foldl fun _ _ ht => ht.raiseOn

theorem State.memWf.rfdDrain {c : Nat} (h : s.memWf) : (s.rfdDrain c).memWf := by
  unfold State.rfdDrain
  exact h.beginDrain

theorem State.memWf.endBundle {c : Nat} (h : s.memWf) : (s.endBundle c).memWf := by
  unfold State.endBundle
  extract_lets k
  have hk : k.memWf := h.core c
  split
  · exact h
  · extract_lets next
    have hnext : next.memWf := hk.same
    refine State.memWf.ite (h.setCore hnext).rfdDrain ?_
    split
    next k' at_ e =>
    have hk' : k'.memWf := by
      split at e
      · split at e
        · cases e; exact hnext.same
        · cases e; exact hk.same
      · cases e; exact hnext.same
    extract_lets t
    have ht : t.memWf := h.setCore hk'
    exact ht.unless (·.at)

theorem State.memWf.runWords {ex : Instr → State → Result} {xs : List (Focus × Instr)} (h : s.memWf)
    (hex : ∀ i t, t.memWf → Result.memWf (ex i t)) : Result.memWf (Machine.runWords ex xs s) := by
  induction xs generalizing s with
  | nil => exact h.next
  | cons x xs ih =>
    obtain ⟨f, i⟩ := x
    unfold Machine.runWords
    have hr : Result.memWf (ex i { s with focus := f }) := hex _ _ h.same
    split
    · next e => exact ih (hr.of_next e)
    · exact hr

theorem State.memWf.fetchFixes {c upto : Nat} (h : s.memWf) : (s.fetchFixes c upto).memWf := by
  unfold State.fetchFixes
  exact h.unless (·.fixes)

theorem State.memWf.bundleFixes {c addr : Nat} {b : Bundle} (h : s.memWf) : (s.bundleFixes c addr b).memWf := by
  unfold State.bundleFixes
  exact h.unless (·.fetchFixes.corrected)

theorem State.memWf.placeBegin {c addr : Nat} {b : Bundle} (h : s.memWf) : (s.placeBegin c addr b).memWf := by
  unfold State.placeBegin
  extract_lets t
  have ht : t.memWf := h.bundleFixes.modCore fun _ hk => hk.same
  exact ht.when (·.quiesce)

theorem State.memWf.place {c addr : Nat} {b : Bundle} {ex : Instr → State → Result}
    (h : s.memWf) (hex : ∀ i t, t.memWf → Result.memWf (ex i t)) : Result.memWf (s.place c addr b ex) := by
  unfold State.place
  have hr : Result.memWf (Machine.runWords ex (bundleRun b c addr) (s.placeBegin c addr b)) := State.memWf.runWords h.placeBegin hex
  split
  · next e => exact (hr.of_next e).endBundle.next
  · exact hr

theorem State.memWf.issueBundle {c : Nat} {ex : Instr → State → Result}
    (h : s.memWf) (hex : ∀ i t, t.memWf → Result.memWf (ex i t)) : Result.memWf (s.issueBundle c ex) := by
  unfold State.issueBundle
  split
  · exact h.fetchFixes.raiseAll.next
  · extract_lets src t1 t2 es
    exact h.bundleFixes.raiseAll.next.ite (h.at.next.ite (h.place hex))

theorem State.memWf.issue {c : Nat} {ex : Instr → State → Result}
    (h : s.memWf) (hex : ∀ i t, t.memWf → Result.memWf (ex i t)) : Result.memWf (s.issue c ex) := by
  unfold State.issue
  refine h.next.ite (.ite (h.unless (·.rfdDrain)).next (h.next.ite (h.waitOne.next.ite (h.next.ite ?_))))
  exact h.endWaits.issueBundle hex

/-! ### Events -/

theorem Core.memWf.setHalf {half : Bool} {x : Half} (hk : k.memWf) : (k.setHalf half x).memWf := by
  unfold Core.setHalf
  cases half
  · exact hk.same
  · exact hk.same

theorem Core.memWf.landAbuf {bs : List (Nat × Byte)} (hk : k.memWf) : (k.landAbuf bs).memWf := by
  unfold Core.landAbuf
  obtain ⟨hs, hd, hi, ha, hb⟩ := hk
  exact ⟨hs, hd, hi, Memory.wf_storeAll bs ha, hb⟩

theorem State.memWf.event {c : Nat} {ev : Ev} {ex : Instr → State → Result}
    (h : s.memWf) (hex : ∀ i t, t.memWf → Result.memWf (ex i t)) : Result.memWf (s.event c ev ex) := by
  unfold State.event
  dsimp only
  split
  · exact hex _ _ h.same
  · exact h.issue hex
  · exact h.resolve.next
  · exact h.resolveNow.next
  · exact h.land.next
  · exact h.same.readPoint.next
  · exact (h.modCore fun _ hk => hk.same.unmark).next
  · exact (h.modCore fun _ hk => hk.same).next
  · exact h.modHandle.next
  · exact h.modHandle.next
  · exact h.modHandle.next
  · exact h.seqStep hex
  · exact h.port.next
  · exact h.array.next
  · exact (h.modCore fun _ hk => hk.landAbuf).next
  · exact (h.modCore fun _ hk => hk.setHalf).next
  · exact h.landAcc.next
  · exact h.copyRow.next
  · exact h.landBytes.next
  · exact h.landCopyAcc.next
  · exact h.chainStep hex
  · exact h.chainSample.next
  · exact h.chainLook.next
  · exact h.tteValid.next
  · exact h.source.next
  · exact h.wpost.next
  · exact h.applied.next
  · exact h.wwaited.next
  · exact h.badEntry.next
  · exact h.same.next
  · exact h.deliverCopy.next
  · exact h.barWrite.next
  · exact h.trainStep.next
  · exact h.getLand.next
  · exact h.same.launchRead.next
  · exact h.collRead.next
  · exact h.tryDecide.next
  · exact h.takeCommand.next

theorem State.memWf.take1 {it : Item} {rest : List Item} (h : s.memWf) : (s.take1 it rest).memWf := by
  unfold State.take1
  exact h.same

/-! ### Every instruction and every step -/

/-- A slot form changes no memory when it issues (O9). -/
theorem exec_memWf_of_slotForm {i : Instr} (h : s.memWf)
    (hi : i.space = .scalar ∨ i.space = .vector ∨ i.space = .special ∨ i.space = .memory) : Result.memWf (exec i s) :=
  ⟨fun ht => h.of_sameBut (issueChangesNothingElse i s _ hi ht).1⟩

/-- An engine form posts its command or waits. -/
theorem exec_memWf_of_engine {i : Instr} (h : s.memWf) (hi : i.space = .engine) : Result.memWf (exec i s) := by
  cases i with (unfold exec)
  | mset => exact execMset_memWf h
  | mcall => exact execMcall_memWf h
  | mload => exact execMload_memWf h
  | cpyaSpm => exact execCpyaSpm_memWf h
  | cpyaAcc => exact execCpyaAcc_memWf h
  | tlgo => exact execTlgo_memWf h
  | get => exact execGet_memWf h
  | put => exact execPut_memWf h
  | putMc => exact execPutMc_memWf h
  | racc => exact execRacc_memWf h
  | wpost => exact execWpost_memWf h
  | wstart => exact execWstart_memWf h
  | wcompl => exact execWcompl_memWf h
  | wwait => exact execWwait_memWf h
  | wlock => exact execWlock_memWf h
  | wunlock => exact execWunlock_memWf h
  | hwait => exact execHwait_memWf h
  | htest => exact execHtest_memWf h
  | coll => exact execColl_memWf h
  | launch => exact execLaunch_memWf h
  | cadv => exact execCadv_memWf h
  | cadvEnd => exact execCadvEnd_memWf h
  | barQuad => exact execBarQuad_memWf h
  | barDie => exact execBarDie_memWf h
  | _ => cases hi

/-- A micro-step of the sequencer. -/
theorem exec_memWf_of_micro {i : Instr} (h : s.memWf) (hi : i.space = .micro) : Result.memWf (exec i s) := by
  cases i with (unfold exec)
  | mnop => exact execMnop_memWf h
  | mseta => exact execMseta_memWf h
  | madda => exact execMadda_memWf h
  | msetc => exact execMsetc_memWf h
  | mloop => exact execMloop_memWf h
  | msync => exact execMsync_memWf h
  | agath => exact execAgath_memWf h
  | wld => exact execWld_memWf h
  | wldp => exact execWldp_memWf h
  | aclr => exact execAclr_memWf h
  | mma => exact execMma_memWf h
  | mend => exact execMend_memWf h
  | _ => cases hi

/-- A chain command. -/
theorem exec_memWf_of_chain {i : Instr} (h : s.memWf) (hi : i.space = .chain) : Result.memWf (exec i s) := by
  cases i with (unfold exec)
  | act => exact execAct_memWf h
  | rd => exact execRd_memWf h
  | wr => exact execWr_memWf h
  | pre => exact execPre_memWf h
  | prea => exact execPrea_memWf h
  | refab => exact execRefab_memWf h
  | refpb => exact execRefpb_memWf h
  | maint => exact execMaint_memWf h
  | chainWaitt => exact execChainWaitt_memWf h
  | ptr => exact execPtr_memWf h
  | rowb => exact execRowb_memWf h
  | lcnt => exact execLcnt_memWf h
  | chainLoop => exact execChainLoop_memWf h
  | chainEnd => exact execChainEnd_memWf h
  | _ => cases hi

/-- An instruction that an event alone runs. -/
theorem exec_memWf_of_event {i : Instr} (h : s.memWf) (hi : i.space = .event) : Result.memWf (exec i s) := by
  cases i with (unfold exec)
  | chainRdLanding => exact execChainRdLanding_memWf h
  | visibilityEvent => exact execVisibilityEvent_memWf h
  | engineCommandStart => exact execEngineCommandStart_memWf h
  | barrierRelease => exact execBarrierRelease_memWf h
  | flitReceipt => exact execFlitReceipt_memWf h
  | cmddb => exact execCmddb_memWf h
  | scrubRange => exact execScrubRange_memWf h
  | repairLane => exact execRepairLane_memWf h
  | correctedErrorCount => exact execCorrectedErrorCount_memWf h
  | repairDone => exact execRepairDone_memWf h
  | stackTemperature => exact execStackTemperature_memWf h
  | ptpMessageReceipt => exact execPtpMessageReceipt_memWf h
  | forwardedEventRecordReceipt => exact execForwardedEventRecordReceipt_memWf h
  | forwardedStatusReceipt => exact execForwardedStatusReceipt_memWf h
  | resetRelease => exact execResetRelease_memWf h
  | phaseBoundary => exact execPhaseBoundary_memWf h
  | stragglerBudgetExpiry => exact execStragglerBudgetExpiry_memWf h
  | timeDrivenBoundary => exact execTimeDrivenBoundary_memWf h
  | powerAdmission => exact execPowerAdmission_memWf h
  | arrivalCount => exact execArrivalCount_memWf h
  | daymark => exact execDaymark_memWf h
  | routineEnd => exact execRoutineEnd_memWf h
  | idleChainCommand => exact execIdleChainCommand_memWf h
  | refreshDebtIncrement => exact execRefreshDebtIncrement_memWf h
  | maintenanceDebtIncrement => exact execMaintenanceDebtIncrement_memWf h
  | maintSlotEnd => exact execMaintSlotEnd_memWf h
  | leaseGrant => exact execLeaseGrant_memWf h
  | translationInvalidate => exact execTranslationInvalidate_memWf h
  | invalidateWatchdogExpiry => exact execInvalidateWatchdogExpiry_memWf h
  | remoteOperationReceipt => exact execRemoteOperationReceipt_memWf h
  | localReuseEvent => exact execLocalReuseEvent_memWf h
  | remoteTimeout => exact execRemoteTimeout_memWf h
  | collectiveSequenceStart => exact execCollectiveSequenceStart_memWf h
  | collectiveCompletion => exact execCollectiveCompletion_memWf h
  | collectiveTimeout => exact execCollectiveTimeout_memWf h
  | trapDrainCompletion => exact execTrapDrainCompletion_memWf h
  | rerunVerification => exact execRerunVerification_memWf h
  | contextSave => exact execContextSave_memWf h
  | contextRestore => exact execContextRestore_memWf h
  | recordCompletion => exact execRecordCompletion_memWf h
  | stationDown => exact execStationDown_memWf h
  | stationRetrained => exact execStationRetrained_memWf h
  | timeLockLoss => exact execTimeLockLoss_memWf h
  | powerAlarm => exact execPowerAlarm_memWf h
  | powerAlarmRelease => exact execPowerAlarmRelease_memWf h
  | attest => exact execAttest_memWf h
  | wrreg => exact execWrreg_memWf h
  | rdreg => exact execRdreg_memWf h
  | armtd => exact execArmtd_memWf h
  | cadctlDriveArm => exact execCadctlDriveArm_memWf h
  | enqueue => exact execEnqueue_memWf h
  | memwr => exact execMemwr_memWf h
  | memrd => exact execMemrd_memWf h
  | groupdef => exact execGroupdef_memWf h
  | partset => exact execPartset_memWf h
  | preempt => exact execPreempt_memWf h
  | mboxsend => exact execMboxsend_memWf h
  | armingCheck => exact execArmingCheck_memWf h
  | werrRead => exact execWerrRead_memWf h
  | cerrstRead => exact execCerrstRead_memWf h
  | perrstRead => exact execPerrstRead_memWf h
  | eventQueueRead => exact execEventQueueRead_memWf h
  | wrrwWrite => exact execWrrwWrite_memWf h
  | phyctlClr => exact execPhyctlClr_memWf h
  | forwardedCommandReceipt => exact execForwardedCommandReceipt_memWf h
  | _ => cases hi

theorem exec_memWf (i : Instr) (h : s.memWf) : Result.memWf (exec i s) := by
  cases hi : i.space with
  | scalar | vector | special | memory => exact exec_memWf_of_slotForm h (by rw [hi]; decide)
  | engine => exact exec_memWf_of_engine h hi
  | micro => exact exec_memWf_of_micro h hi
  | chain => exact exec_memWf_of_chain h hi
  | event => exact exec_memWf_of_event h hi

theorem State.memWf.step {t : State} (h : s.memWf) (ht : Machine.step s = .next t) : t.memWf := by
  unfold Machine.step at ht
  split at ht
  · cases ht
  · exact (h.take1.event fun i _ hu => exec_memWf i hu).of_next ht

end Operations

/-- Settles O26: the memories stay in canonical form under each event that a step takes off the agenda. -/
theorem memoriesKeepTheirForm : Obligations.MemoriesKeepTheirForm :=
  fun _ _ => State.memWf.step

end Sys2Proof.Machine

/-! PROOFS. The host's commands: doorbells, completions, MEMWR and MEMRD (O59). -/

namespace Sys2Proof.Machine

open Sys2Proof

/-! ### Bytes stored from an address on -/

theorem addressed_cons (a : Nat) (b : Byte) (bs : List Byte) : addressed a (b :: bs) = (a, b) :: addressed (a + 1) bs := by
  simp only [addressed, List.length_cons, List.range_succ_eq_map, List.map_cons, List.map_map, List.zip_cons_cons, Nat.add_zero]
  congr 3
  exact funext fun i => (Nat.add_right_comm a 1 i).symm

theorem Memory.byte_storeAll_addressed (m : Memory) (a x : Nat) (bs : List Byte) :
    (m.storeAll (addressed a bs)).byte x = if a ≤ x then bs[x - a]?.getD (m.byte x) else m.byte x := by
  induction bs generalizing m a with
  | nil => simp [addressed]
  | cons b bs ih =>
    rw [addressed_cons, Memory.storeAll_cons, ih, Memory.byte_store]
    rcases Nat.lt_trichotomy x a with h | rfl | h
    · rw [if_neg (by omega), if_neg (by omega), if_neg (by omega)]
    · simp
    · rw [if_pos (by omega), if_neg (by omega), if_pos h.le, show x - a = x - (a + 1) + 1 by omega, List.getElem?_cons_succ]

/-- n bytes of a memory src from b on, stored from a on: the bytes from a on are those, and every other byte stays. -/
theorem Memory.byte_storeAll_bytes (m src : Memory) (a b n : Nat) :
    (∀ i, i < n → (m.storeAll (addressed a (src.bytes b n))).byte (a + i) = src.byte (b + i)) ∧
      ∀ x, (x < a ∨ a + n ≤ x) → (m.storeAll (addressed a (src.bytes b n))).byte x = m.byte x := by
  simp only [Memory.byte_storeAll_addressed]
  constructor
  · intro i hi
    simp [Memory.bytes, hi]
  · rintro x (hx | hx)
    · rw [if_neg (by omega)]
    · rw [if_pos (by omega), List.getElem?_eq_none (by simp [Memory.bytes]; omega), Option.getD_none]

/-- A value is that of its own bytes alone. -/
theorem Memory.le_store_of_outside (m : Memory) {a n x : Nat} (b : Byte) (h : x < a ∨ a + n ≤ x) : (m.store x b).le a n = m.le a n := by
  have : (m.store x b).bytes a n = m.bytes a n := List.map_congr_left fun i hi => by
    have := List.mem_range.mp hi
    rw [Memory.byte_store, if_neg (by omega)]
  rw [Memory.le, this, Memory.le]

/-! ### The end of a command (R338, R349) -/

section Commands

variable (s : State) (slot code : Nat)

@[simp] theorem State.nextCommand_vectors : s.nextCommand.vectors = s.vectors := by
  unfold State.nextCommand; dsimp only; split <;> rfl
@[simp] theorem State.nextCommand_forwarded : s.nextCommand.forwarded = s.forwarded := by
  unfold State.nextCommand; dsimp only; split <;> rfl
@[simp] theorem State.nextCommand_doorbells : s.nextCommand.doorbells = s.doorbells := by
  unfold State.nextCommand; dsimp only; split <;> rfl
@[simp] theorem State.nextCommand_chunk : s.nextCommand.chunk = s.chunk := by
  unfold State.nextCommand; dsimp only; split <;> rfl

/-- The firmware is busy as long as a doorbell waits. -/
@[simp] theorem State.nextCommand_fwBusy : s.nextCommand.fwBusy = (s.doorbells != []) := by
  unfold State.nextCommand; dsimp only; split <;> rfl

/-- A doorbell that waits is taken at the end of the next cycle. -/
theorem State.mem_nextCommand_agenda (h : s.doorbells ≠ []) :
    (⟨max (3 * (s.cyc + 1)) s.now, pEnd, 0, .firmware⟩ : Item) ∈ s.nextCommand.agenda := by
  unfold State.nextCommand
  dsimp only
  rw [if_neg h]
  exact (State.mem_post_agenda _).mpr (.inl rfl)

/-- The status byte of a slot does not change the partition of its command. -/
theorem State.cmdPart_setStatus : (s.setStatus slot code).cmdPart slot = s.cmdPart slot := by
  unfold State.cmdPart State.setStatus
  rw [Memory.le_store_of_outside _ _ (.inr (by omega))]

/-- The completion of a command of the device itself raises vector 8p. -/
theorem State.complete_of_own (h : slot ∉ s.fwdSlots) : s.complete slot code = (s.setStatus slot code).vector (8 * s.cmdPart slot) := by
  unfold State.complete
  simp only [List.contains_iff_mem, s.cmdPart_setStatus]
  exact if_neg h

/-- The status of a command that the bridge forwarded goes back to the bridge. -/
theorem State.complete_of_forwarded (h : slot ∈ s.fwdSlots) : s.complete slot code = { s.setStatus slot code with
    fwdSlots := s.fwdSlots.filter (· != slot), forwarded := s.forwarded ++ [(256 + slot, BitVec.ofNat 64 code)] } := by
  unfold State.complete
  simp only [List.contains_iff_mem]
  exact if_pos h

/-- A completion leaves the doorbells, the time and the chunk store. -/
theorem State.complete_keeps : (s.complete slot code).doorbells = s.doorbells ∧ (s.complete slot code).now = s.now ∧
    (s.complete slot code).chunk = s.chunk := by
  by_cases h : slot ∈ s.fwdSlots
  · rw [s.complete_of_forwarded slot code h]
    exact ⟨rfl, rfl, rfl⟩
  · rw [s.complete_of_own slot code h, State.vector, State.msi_eq]
    exact ⟨rfl, rfl, rfl⟩

@[simp] theorem State.finish_doorbells : (s.finish slot code).doorbells = s.doorbells := by
  rw [State.finish, State.nextCommand_doorbells, (s.complete_keeps slot code).1]

@[simp] theorem State.finish_chunk : (s.finish slot code).chunk = s.chunk := by
  rw [State.finish, State.nextCommand_chunk, (s.complete_keeps slot code).2.2]

/-- A command that ends leaves every core as it was. -/
@[simp] theorem State.core_finish (c : Nat) : (s.finish slot code).core c = s.core c := by
  rw [State.core, State.finish_cores, State.core]

/-- A command that ends leaves the firmware busy while a doorbell waits. -/
theorem State.finish_fwBusy : (s.finish slot code).fwBusy = true ↔ s.doorbells ≠ [] := by
  rw [State.finish, State.nextCommand_fwBusy, (s.complete_keeps slot code).1, bne_iff_ne]

/-- The next doorbell is taken at the end of the cycle after that in which the command ends. -/
theorem State.mem_finish_agenda (h : s.doorbells ≠ []) :
    (⟨max (3 * (s.cyc + 1)) s.now, pEnd, 0, .firmware⟩ : Item) ∈ (s.finish slot code).agenda := by
  obtain ⟨hd, hn, -⟩ := s.complete_keeps slot code
  have := (s.complete slot code).mem_nextCommand_agenda (hd ▸ h)
  rwa [State.cyc, hn] at this

theorem State.finish_vectors_of_own (h : slot ∉ s.fwdSlots) :
    (s.finish slot code).vectors = if Config.isBridge then s.vectors ++ [⟨8 * s.cmdPart slot, none⟩] else s.vectors := by
  rw [State.finish, State.nextCommand_vectors, s.complete_of_own slot code h, State.vector, State.msi_eq]
  rfl

theorem State.finish_of_forwarded (h : slot ∈ s.fwdSlots) :
    (s.finish slot code).vectors = s.vectors ∧ (s.finish slot code).forwarded = s.forwarded ++ [(256 + slot, BitVec.ofNat 64 code)] := by
  rw [State.finish, State.nextCommand_vectors, State.nextCommand_forwarded, s.complete_of_forwarded slot code h]
  exact ⟨rfl, rfl⟩

/-- A command that ends leaves its code in the status byte of its slot. -/
theorem State.finish_status : (s.finish slot code).cmd.byte (4096 * slot + 10) = BitVec.ofNat 8 code := by
  rw [State.finish_cmd, Memory.byte_store_same]

theorem State.finish_cmd_byte_other {a : Nat} (h : a ≠ 4096 * slot + 10) : (s.finish slot code).cmd.byte a = s.cmd.byte a := by
  rw [State.finish_cmd, Memory.byte_store, if_neg h]

@[simp] theorem State.reply_cores (bs : List Byte) : (s.reply slot bs).cores = s.cores := rfl
@[simp] theorem State.reply_chunk (bs : List Byte) : (s.reply slot bs).chunk = s.chunk := rfl

/-- Bytes of a memory that a command returns stand where its payload stood (log entry 11). -/
theorem State.reply_cmd_bytes (m : Memory) (a n i : Nat) (hi : i < n) :
    (s.reply slot (m.bytes a n)).cmd.byte (4096 * slot + 64 + i) = m.byte (a + i) :=
  (Memory.byte_storeAll_bytes s.cmd m (4096 * slot + 64) a n).1 i hi

/-- A write of CMDDB that queues nothing (R18, log entry 25). -/
theorem exec_cmddb_ignored {v : W32} (h : 256 ≤ v.toNat ∨ Config.isBridge = false) : exec (.cmddb v) s = .next s := by
  refine congrArg Host.Outcome.next (if_neg ?_)
  rintro ⟨hb, hv⟩
  rcases h with h | h
  · omega
  · simp [h] at hb

/-- The state with a doorbell queued. -/
def State.ring (s : State) (n : Nat) : State := { s with doorbells := s.doorbells ++ [n] }

/-- Firmware that is busy finds the doorbell in the queue when its command ends. -/
theorem exec_cmddb_busy {v : W32} (hv : v.toNat < 256) (hb : Config.isBridge = true) (hf : s.fwBusy = true) :
    exec (.cmddb v) s = .next (s.ring v.toNat) :=
  congrArg Host.Outcome.next ((if_pos ⟨hb, hv⟩).trans (if_pos hf))

/-- Firmware that is idle takes the doorbell. -/
theorem exec_cmddb_idle {v : W32} (hv : v.toNat < 256) (hb : Config.isBridge = true) (hf : s.fwBusy = false) :
    exec (.cmddb v) s = .next (s.ring v.toNat).nextCommand :=
  congrArg Host.Outcome.next ((if_pos ⟨hb, hv⟩).trans (if_neg (by simp [hf])))

end Commands

/-- Doorbells and completions do what R338 and R349 say. -/
theorem commandsComplete : Claims.CommandsComplete := by
  intro s v slot code
  refine ⟨exec_cmddb_ignored s, fun hv hb => ?_, ?_⟩
  · cases hf : s.fwBusy with
    | true => exact ⟨_, exec_cmddb_busy s hv hb hf, rfl, hf, rfl, rfl, nofun, fun _ => rfl⟩
    | false =>
      have hne : (s.ring v.toNat).doorbells ≠ [] := List.concat_ne_nil _ _
      exact ⟨_, exec_cmddb_idle s hv hb hf, State.nextCommand_doorbells _, (State.nextCommand_fwBusy _).trans (bne_iff_ne.mpr hne),
        State.nextCommand_cmd _, State.nextCommand_cores _, fun _ => State.mem_nextCommand_agenda _ hne, nofun⟩
  · exact ⟨s.finish_status slot code, fun _ => s.finish_cmd_byte_other slot code, s.finish_cores slot code,
      s.finish_vectors_of_own slot code, s.finish_of_forwarded slot code, s.finish_doorbells slot code, s.finish_fwBusy slot code,
      s.mem_finish_agenda slot code⟩

/-! ### Bytes stored in SPM and DMEM -/

section Cores

variable (k : Core) (cyc : Nat) (set : Bool) (bs : List (Nat × Byte))

theorem Core.touch_memories (spm : Bool) (ws : List Nat) : (k.touch spm set ws).spm = k.spm ∧ (k.touch spm set ws).dmem = k.dmem := by
  unfold Core.touch
  cases spm <;> (by_cases h : k.marks = [] <;> simp [h])

/-- A write of SPM that no signature takes leaves DMEM. -/
theorem Core.storeBytes_spm :
    (k.storeBytes cyc true set none bs).spm = k.spm.storeAll bs ∧ (k.storeBytes cyc true set none bs).dmem = k.dmem :=
  Core.touch_memories _ set true _

/-- A write of DMEM that no signature takes leaves SPM. -/
theorem Core.storeBytes_dmem :
    (k.storeBytes cyc false set none bs).dmem = k.dmem.storeAll bs ∧ (k.storeBytes cyc false set none bs).spm = k.spm :=
  (Core.touch_memories _ set false _).symm

end Cores

/-! ### What MEMWR and MEMRD answer (R349) -/

/-- The soft errors of the memory that an access names. -/
def State.accessMarks (s : State) (a : Access) : List Mark := if a.space = 0 then s.marks else (s.core a.core).marks

/-- The memory that an access names, where it is none of HBM. -/
def State.accessMemory (s : State) (a : Access) : Memory :=
  if a.space = 0 then s.chunk else if a.space = 1 then (s.core a.core).spm else (s.core a.core).dmem

section Accesses

variable {s : State}

theorem State.cmdLen_eq (s : State) (slot : Nat) : s.cmdLen slot = s.cmd.le (4096 * slot + 8) 2 % 2 ^ 12 := by
  rw [State.cmdLen, bits, pow_zero, Nat.div_one]

theorem State.badWords_of_nil {a : Access} (h : s.accessMarks a = []) : s.badWords a = [] := by
  unfold State.accessMarks at h
  simp [State.badWords, h]

/-- An access outside the four spaces, of no byte or of more than fits is of another layout. -/
theorem State.accessStatus_of_layout {slot most : Nat} {a : Access} (h : 3 < a.space ∨ a.len = 0 ∨ most < a.len) :
    s.accessStatus slot a most = some 3 :=
  if_pos (by tauto)

theorem exec_memwr_of_len (h : s.cmdLen s.slotArg < 16 ∨ s.cmdLen s.slotArg ≠ 16 + (s.memAccess s.slotArg).len) :
    exec .memwr s = .next (s.finish s.slotArg 3) :=
  congrArg Host.Outcome.next (if_pos h)

theorem exec_memrd_of_len (h : s.cmdLen s.slotArg ≠ 16) : exec .memrd s = .next (s.finish s.slotArg 3) :=
  congrArg Host.Outcome.next (if_pos h)

theorem exec_memrd_refused {st : Nat} (h : s.cmdLen s.slotArg = 16) (hst : s.accessStatus s.slotArg (s.memAccess s.slotArg) 4000 = some st) :
    exec .memrd s = .next (s.finish s.slotArg st) := by
  change execMemrd s = _
  simp [execMemrd, h, hst]

theorem exec_memrd_hbm (h : s.cmdLen s.slotArg = 16) (hst : s.accessStatus s.slotArg (s.memAccess s.slotArg) 4000 = none)
    (h3 : (s.memAccess s.slotArg).space = 3) :
    exec .memrd s = .next { s with hbmCmd := some ⟨s.slotArg, (s.memAccess s.slotArg).core, false, (s.memAccess s.slotArg).addr, 0,
      (s.memAccess s.slotArg).len / 64, false, []⟩ } := by
  change execMemrd s = _
  simp [execMemrd, h, hst, h3]

/-- Without soft errors the bytes come back in the slot. -/
theorem exec_memrd_clean (h : s.cmdLen s.slotArg = 16) (hst : s.accessStatus s.slotArg (s.memAccess s.slotArg) 4000 = none)
    (h3 : (s.memAccess s.slotArg).space ≠ 3) (hm : s.accessMarks (s.memAccess s.slotArg) = []) :
    exec .memrd s = .next ((s.reply s.slotArg ((s.accessMemory (s.memAccess s.slotArg)).bytes (s.memAccess s.slotArg).addr
      (s.memAccess s.slotArg).len)).finish s.slotArg 1) := by
  have hb := State.badWords_of_nil hm
  change execMemrd s = _
  unfold State.accessMarks at hm
  by_cases h0 : (s.memAccess s.slotArg).space = 0
  · simp [execMemrd, State.accessMemory, h, hst, hb, h0]
  · simp [execMemrd, State.accessMemory, h, hst, h3, hb, h0, State.fixes_of_nil (by simpa [h0] using hm)]

/-- The bytes that a MEMRD returns are those of the memory that it names, byte for byte, and the memories stay. -/
theorem exec_memrd_reads (h : s.cmdLen s.slotArg = 16) (hst : s.accessStatus s.slotArg (s.memAccess s.slotArg) 4000 = none)
    (h3 : (s.memAccess s.slotArg).space ≠ 3) (hm : s.accessMarks (s.memAccess s.slotArg) = []) :
    ∃ t, exec .memrd s = .next t ∧ t.cmd.byte (4096 * s.slotArg + 10) = 1 ∧ t.cores = s.cores ∧ t.chunk = s.chunk ∧
      ∀ i, i < (s.memAccess s.slotArg).len → t.cmd.byte (4096 * s.slotArg + 64 + i) =
        (s.accessMemory (s.memAccess s.slotArg)).byte ((s.memAccess s.slotArg).addr + i) := by
  refine ⟨_, exec_memrd_clean h hst h3 hm, State.finish_status .., ?_, ?_, fun i hi => ?_⟩
  · rw [State.finish_cores, State.reply_cores]
  · rw [State.finish_chunk, State.reply_chunk]
  · rw [State.finish_cmd_byte_other _ _ _ (by omega), State.reply_cmd_bytes _ _ _ _ _ _ hi]

theorem exec_memwr_refused {st : Nat} (h : s.cmdLen s.slotArg = 16 + (s.memAccess s.slotArg).len)
    (hst : s.accessStatus s.slotArg (s.memAccess s.slotArg) 4016 = some st) : exec .memwr s = .next (s.finish s.slotArg st) := by
  change execMemwr s = _
  simp [execMemwr, h, hst]

theorem exec_memwr_hbm (h : s.cmdLen s.slotArg = 16 + (s.memAccess s.slotArg).len)
    (hst : s.accessStatus s.slotArg (s.memAccess s.slotArg) 4016 = none) (h3 : (s.memAccess s.slotArg).space = 3) :
    exec .memwr s = .next { s with hbmCmd := some ⟨s.slotArg, (s.memAccess s.slotArg).core, true, (s.memAccess s.slotArg).addr, 0,
      (s.memAccess s.slotArg).len / 64, false, []⟩ } := by
  change execMemwr s = _
  simp [execMemwr, h, hst, h3]

/-- The bytes that a MEMWR writes, with their addresses: they follow its access header in the slot. -/
def State.memwrBytes (s : State) : List (Nat × Byte) :=
  addressed (s.memAccess s.slotArg).addr (s.cmd.bytes (4096 * s.slotArg + 80) (s.memAccess s.slotArg).len)

/-- Without soft errors the chunk store takes the bytes. -/
theorem exec_memwr_chunk (h : s.cmdLen s.slotArg = 16 + (s.memAccess s.slotArg).len)
    (hst : s.accessStatus s.slotArg (s.memAccess s.slotArg) 4016 = none) (h0 : (s.memAccess s.slotArg).space = 0) (hm : s.marks = []) :
    ∃ t, exec .memwr s = .next t ∧ t.cmd.byte (4096 * s.slotArg + 10) = 1 ∧ t.cores = s.cores ∧
      t.chunk = s.chunk.storeAll s.memwrBytes := by
  have hb : s.badWords (s.memAccess s.slotArg) = [] := State.badWords_of_nil (by simp [State.accessMarks, h0, hm])
  refine ⟨({ s with chunk := s.chunk.storeAll s.memwrBytes, marks := [] } : State).finish s.slotArg 1, ?_,
    State.finish_status .., State.finish_cores .., by rw [State.finish_chunk]⟩
  change execMemwr s = _
  simp [execMemwr, State.memwrBytes, h, hst, h0, hb, hm]

/-- Without soft errors SPM (space 1) or DMEM (space 2) of the core takes the bytes. -/
theorem exec_memwr_core (spm : Bool) (h : s.cmdLen s.slotArg = 16 + (s.memAccess s.slotArg).len)
    (hst : s.accessStatus s.slotArg (s.memAccess s.slotArg) 4016 = none) (hs : (s.memAccess s.slotArg).space = if spm then 1 else 2)
    (hm : (s.core (s.memAccess s.slotArg).core).marks = []) :
    ∃ t, exec .memwr s = .next t ∧ t.cmd.byte (4096 * s.slotArg + 10) = 1 ∧ t.chunk = s.chunk ∧
      t.core (s.memAccess s.slotArg).core = (s.core (s.memAccess s.slotArg).core).storeBytes s.cyc spm false none s.memwrBytes := by
  have h0 : (s.memAccess s.slotArg).space ≠ 0 := by cases spm <;> simp [hs]
  have hb : s.badWords (s.memAccess s.slotArg) = [] := State.badWords_of_nil (by simp [State.accessMarks, h0, hm])
  refine ⟨(s.modCore (s.memAccess s.slotArg).core fun k => k.storeBytes s.cyc spm false none s.memwrBytes).finish s.slotArg 1, ?_,
    State.finish_status .., State.finish_chunk .., (State.core_finish ..).trans (State.core_modCore_same ..)⟩
  change execMemwr s = _
  cases spm <;> simp [execMemwr, State.memwrBytes, h, hst, hs, hb, State.landRaw_of_nil hm]

/-- The bytes that a MEMWR stores are those of its slot, and every other byte of the memory stays. -/
theorem State.byte_storeAll_memwrBytes (s : State) (m : Memory) :
    (∀ i, i < (s.memAccess s.slotArg).len → (m.storeAll s.memwrBytes).byte ((s.memAccess s.slotArg).addr + i) =
        s.cmd.byte (4096 * s.slotArg + 80 + i)) ∧
      ∀ x, (x < (s.memAccess s.slotArg).addr ∨ (s.memAccess s.slotArg).addr + (s.memAccess s.slotArg).len ≤ x) →
        (m.storeAll s.memwrBytes).byte x = m.byte x :=
  m.byte_storeAll_bytes s.cmd _ _ _

end Accesses

/-- MEMWR and MEMRD do what R349 says. -/
theorem memoryCommands : Claims.MemoryCommands := by
  intro s slot len a written done reads
  have hlen : s.cmdLen slot = len := s.cmdLen_eq slot
  refine ⟨fun h => exec_memwr_of_len (hlen ▸ h), fun h => exec_memrd_of_len (hlen ▸ h),
    fun h hl => exec_memrd_refused (hlen.trans hl) (State.accessStatus_of_layout h),
    fun st _ hl hst => exec_memwr_refused (hlen.trans hl) hst, fun st hl hst => exec_memrd_refused (hlen.trans hl) hst,
    fun _ hl hst => ?_, fun hl hst => ?_⟩
  · have hl := hlen.trans hl
    refine ⟨exec_memwr_hbm hl hst, fun h0 hm => ?_, fun hm => ⟨fun h1 => ?_, fun h2 => ?_⟩⟩
    · obtain ⟨t, ht, hdone, hcores, hchunk⟩ := exec_memwr_chunk hl hst h0 hm
      refine ⟨t, ht, hdone, hcores, ?_⟩
      rw [hchunk]
      exact s.byte_storeAll_memwrBytes s.chunk
    · obtain ⟨t, ht, hdone, hchunk, hcore : t.core a.core = _⟩ := exec_memwr_core true hl hst h1 hm
      refine ⟨t, ht, hdone, hchunk, ?_⟩
      rw [hcore, (Core.storeBytes_spm ..).1, (Core.storeBytes_spm ..).2]
      exact ⟨s.byte_storeAll_memwrBytes _, rfl⟩
    · obtain ⟨t, ht, hdone, hchunk, hcore : t.core a.core = _⟩ := exec_memwr_core false hl hst h2 hm
      refine ⟨t, ht, hdone, hchunk, ?_⟩
      rw [hcore, (Core.storeBytes_dmem ..).1, (Core.storeBytes_dmem ..).2]
      exact ⟨s.byte_storeAll_memwrBytes _, rfl⟩
  · have hl := hlen.trans hl
    have hread : a.space ≠ 3 → s.accessMarks a = [] → reads (s.accessMemory a) := exec_memrd_reads hl hst
    unfold State.accessMarks State.accessMemory at hread
    refine ⟨exec_memrd_hbm hl hst, fun h0 hm => ?_, fun hm => ⟨fun h1 => ?_, fun h2 => ?_⟩⟩
    · simpa only [h0, if_true] using hread (by simp [h0]) (by simpa [h0] using hm)
    · simpa [h1] using hread (by simp [h1]) (by simpa [h1] using hm)
    · simpa [h2] using hread (by simp [h2]) (by simpa [h2] using hm)

/-- Settles O59: a command that ends writes one byte of its slot, and MEMWR and MEMRD move the bytes between slot and memory. -/
theorem commandsAndMemory : Obligations.CommandsAndMemory := ⟨commandsComplete, memoryCommands⟩

end Sys2Proof.Machine

/-! PROOFS. Fields of the registers, bit by bit (R7). -/

namespace Sys2Proof.Machine

open Sys2Proof

/-- A register with a field replaced, split at the ends of the field. -/
theorem setField_split (x lo n v : Nat) :
    x - bits x lo n * 2 ^ lo + v % 2 ^ n * 2 ^ lo = 2 ^ (lo + n) * (x / 2 ^ (lo + n)) + (2 ^ lo * (v % 2 ^ n) + x % 2 ^ lo) := by
  have hlow := Nat.div_add_mod x (2 ^ lo)
  have hmid := Nat.div_add_mod (x / 2 ^ lo) (2 ^ n)
  rw [Nat.div_div_eq_div_mul, ← pow_add] at hmid
  have hx : x = 2 ^ (lo + n) * (x / 2 ^ (lo + n)) + (bits x lo n * 2 ^ lo + x % 2 ^ lo) := by
    calc x = 2 ^ lo * (x / 2 ^ lo) + x % 2 ^ lo := hlow.symm
      _ = 2 ^ lo * (2 ^ n * (x / 2 ^ (lo + n)) + bits x lo n) + x % 2 ^ lo := by rw [bits, hmid]
      _ = _ := by ring
  have hsub : x - bits x lo n * 2 ^ lo = 2 ^ (lo + n) * (x / 2 ^ (lo + n)) + x % 2 ^ lo := by omega
  rw [hsub, Nat.mul_comm (v % 2 ^ n)]
  omega

/-- A bit of a register with a field replaced: the field's from its value, every other as before. -/
theorem setField_getLsbD (r : W64) {lo n : Nat} (v b : Nat) (h : lo + n ≤ 64) :
    (setField r lo n v).getLsbD b = if lo ≤ b ∧ b < lo + n then v.testBit (b - lo) else r.getLsbD b := by
  have hlow : r.toNat % 2 ^ lo < 2 ^ lo := Nat.mod_lt _ (by positivity)
  have hmid : 2 ^ lo * (v % 2 ^ n) + r.toNat % 2 ^ lo < 2 ^ (lo + n) := by
    have : v % 2 ^ n < 2 ^ n := Nat.mod_lt _ (by positivity)
    calc 2 ^ lo * (v % 2 ^ n) + r.toNat % 2 ^ lo < 2 ^ lo * (v % 2 ^ n + 1) := by rw [Nat.mul_add]; omega
      _ ≤ 2 ^ lo * 2 ^ n := Nat.mul_le_mul_left _ this
      _ = 2 ^ (lo + n) := (pow_add ..).symm
  rw [setField, setField_split, BitVec.getLsbD_ofNat, Nat.testBit_two_pow_mul_add _ hmid, Nat.testBit_two_pow_mul_add _ hlow]
  simp only [Nat.testBit_mod_two_pow, Nat.testBit_div_two_pow, BitVec.testBit_toNat]
  by_cases hb : b < lo
  · simp [hb, show b < lo + n by omega, show b < 64 by omega, show ¬lo ≤ b by omega]
  · by_cases hm : b < lo + n
    · simp [hb, hm, show b < 64 by omega, show b - lo < n by omega, show lo ≤ b by omega]
    · simp only [hb, hm, and_false, if_false, Nat.sub_add_cancel (Nat.le_of_not_lt hm)]
      by_cases h64 : b < 64
      · simp [h64]
      · simp [BitVec.getLsbD_of_ge r b (by omega)]

end Sys2Proof.Machine

/-! PROOFS. What the operations on the windows and tasks of a core leave as it is: the registers of the package, the other cores, and of
their own core all but its windows, its errors and reports, its channel and what an apply writes in SPM. -/

namespace Sys2Proof.Machine

open Sys2Proof

/-! ### Frames -/

/-- A state but for its cores, its pending operations, its records, its remote operations and its reports. -/
def State.frame (s : State) : State :=
  { s with agenda := [], freeCtr := 0, cores := [], records := [], ops := [], vectors := [], forwarded := [], events := [], perrst := 0, streams := [] }

/-- What of a state its frame tells: of states with one frame it tells the same. -/
structure View where
  {α : Type}
  of : State → α
  of_frame : ∀ s, of s.frame = of s

/-- The whole frame. -/
def View.frame : View := ⟨State.frame, fun _ => rfl⟩

/-- Whether s agrees with r in what the view tells. -/
def State.agrees (r : State) (v : View) (s : State) : Prop := v.of s = v.of r

/-- A core but for its windows, its errors and reports, its channel and, where `mem` says so, its SPM. -/
def Core.steady (mem : Bool) (k : Core) : Core :=
  { k with
    win := Vector.replicate 32 Window.reset, errs := [], loose := [], cerrst := 0, werr := 0, werrBy := (0, 0), spmOld := [], spmRegion := []
    dmemRegion := [], marks := [], applyFree := 0, ch := Channel.reset, spm := if mem then [] else k.spm }

/-- Whether no core but c has been touched, and no record is in work. -/
def State.sole (s : State) (c : Nat) : Prop := s.records = [] ∧ (s.cores = [] ∨ ∃ k, s.cores = [(c, k)])

/-- Whether s comes from r by changes of core c that leave its steady part, and of what no frame has. -/
structure State.within (r : State) (c : Nat) (mem : Bool) (s : State) : Prop where
  agrees : r.agrees View.frame s
  core : (s.core c).steady mem = (r.core c).steady mem
  sole : r.sole c → s.sole c

theorem State.sole.setCore {s : State} {c : Nat} (h : s.sole c) (k : Core) : (s.setCore c k).sole c := by
  obtain ⟨hr, hc⟩ := h
  refine ⟨hr, ?_⟩
  unfold State.setCore Sp.set
  rcases hc with hc | ⟨k', hc⟩ <;> (rw [hc]; dsimp only; split)
  · exact .inl rfl
  · exact .inr ⟨k, rfl⟩
  · exact .inl (by simp)
  · exact .inr ⟨k, by simp [Sp.put]⟩

section Agrees

variable {r s t : State} {v : View}

theorem State.agrees_refl (v : View) (s : State) : s.agrees v s := rfl

theorem State.agrees.trans (h : r.agrees v s) (h' : s.agrees v t) : r.agrees v t := Eq.trans h' h

/-- A change that the view does not tell. -/
theorem State.agrees.alter (h : r.agrees v s) (hv : v.of t = v.of s := by rfl) : r.agrees v t := hv.trans h

/-- A change outside the frame. -/
theorem State.agrees.same (h : r.agrees v s) (hf : t.frame = s.frame := by rfl) : r.agrees v t := by
  refine h.alter ?_
  rw [← v.of_frame t, hf, v.of_frame s]

/-- What the frame tells alone is the same in states that agree in it. -/
theorem State.agrees.eq {β : Type} (h : r.agrees View.frame s) (f : State → β) (hf : ∀ s, f s.frame = f s := by exact fun _ => rfl) :
    f s = f r := by
  rw [← hf s, ← hf r]
  exact congrArg f h

theorem State.agrees.ite {p : Prop} [Decidable p] (h : r.agrees v s) (h' : r.agrees v t) : r.agrees v (if p then s else t) := by
  split
  · exact h
  · exact h'

/-- A change that is made on a condition. -/
theorem State.agrees.when {p : Prop} [Decidable p] (h : r.agrees v s) (h' : r.agrees v s → r.agrees v t) : r.agrees v (if p then t else s) :=
  (h' h).ite h

/-- A change that is made but on a condition. -/
theorem State.agrees.unless {p : Prop} [Decidable p] (h : r.agrees v s) (h' : r.agrees v s → r.agrees v t) : r.agrees v (if p then s else t) :=
  h.ite (h' h)

theorem State.agrees.foldl {α : Type} {f : State → α → State} {xs : List α} (h : r.agrees v s)
    (hf : ∀ t x, r.agrees v t → r.agrees v (f t x)) : r.agrees v (xs.foldl f s) := by
  induction xs generalizing s with
  | nil => exact h
  | cons x xs ih => exact ih (hf s x h)

theorem State.agrees.post {it : Item} (h : r.agrees v s) : r.agrees v (s.post it) := h.same
theorem State.agrees.at {c cyc prio : Nat} {ev : Ev} (h : r.agrees v s) : r.agrees v (s.at c cyc prio ev) := h.same
theorem State.agrees.drop {c : Nat} {p : Ev → Bool} (h : r.agrees v s) : r.agrees v (s.drop c p) := h.same
theorem State.agrees.modCore {c : Nat} {f : Core → Core} (h : r.agrees v s) : r.agrees v (s.modCore c f) := h.same
theorem State.agrees.modRecord {id : Nat} {f : Record → Record} (h : r.agrees v s) : r.agrees v (s.modRecord id f) := h.same
theorem State.agrees.raiseOn {c : Nat} {e : Err} (h : r.agrees v s) : r.agrees v (s.raiseOn c e) := h.same

theorem State.agrees.msi {m : Msi} (h : r.agrees v s) : r.agrees v (s.msi m) := by
  rw [State.msi_eq]
  exact h.same

theorem State.agrees.postAt {part core cls : Nat} {act : Recovery} {cad : Nat} (h : r.agrees v s) :
    r.agrees v (s.postAt part core cls act cad) := by
  have hp : r.agrees v (s.pushEvent part (eventRecord cls core s.device.toNat act.code cad)) := by
    unfold State.pushEvent
    exact State.agrees.ite h.same h.same
  have hm : ∀ t, r.agrees v t → r.agrees v (t.eventMsi part cls act.code) := fun t ht => by
    unfold State.eventMsi
    split
    · exact ht.msi
    · exact ht
  unfold State.postAt
  exact hm _ (hp.unless (·.same))

theorem State.agrees.postEvent {part core cls : Nat} {act : Recovery} (h : r.agrees v s) : r.agrees v (s.postEvent part core cls act) := h.postAt

theorem State.agrees.postPackage {cls : Nat} (h : r.agrees v s) : r.agrees v (s.postPackage cls) := h.foldl fun _ _ ht => ht.postAt

end Agrees

section Within

variable {r s t u : State} {c : Nat} {mem : Bool}

theorem State.within_refl (s : State) (c : Nat) (mem : Bool) : s.within c mem s := ⟨rfl, rfl, id⟩

theorem State.within.trans (h : r.within c mem s) (h' : s.within c mem t) : r.within c mem t :=
  ⟨h.agrees.trans h'.agrees, h'.core.trans h.core, fun hr => h'.sole (h.sole hr)⟩

theorem State.within.same (h : r.within c mem s) (hf : t.frame = s.frame := by rfl) (hc : t.cores = s.cores := by rfl)
    (hr : t.records = s.records := by rfl) : r.within c mem t := by
  refine ⟨h.agrees.same hf, ?_, fun hs => ?_⟩
  · rw [State.core, hc]; exact h.core
  · unfold State.sole; rw [hc, hr]; exact h.sole hs

theorem State.within.ite {p : Prop} [Decidable p] (h : r.within c mem s) (h' : r.within c mem t) : r.within c mem (if p then s else t) := by
  split
  · exact h
  · exact h'

/-- A change that is made on a condition. -/
theorem State.within.when {p : Prop} [Decidable p] (h : r.within c mem s) (h' : r.within c mem s → r.within c mem t) :
    r.within c mem (if p then t else s) := (h' h).ite h

/-- A change that is made but on a condition. -/
theorem State.within.unless {p : Prop} [Decidable p] (h : r.within c mem s) (h' : r.within c mem s → r.within c mem t) :
    r.within c mem (if p then s else t) := h.ite (h' h)

theorem State.within.foldl {α : Type} {f : State → α → State} {xs : List α} (h : r.within c mem s)
    (hf : ∀ t x, r.within c mem t → r.within c mem (f t x)) : r.within c mem (xs.foldl f s) := by
  induction xs generalizing s with
  | nil => exact h
  | cons x xs ih => exact ih (hf s x h)

/-- The state of a pair. -/
theorem State.within.of_eq {α : Type} {x : α × State} {a : α} (h : r.within c mem x.2) (e : x = (a, t)) : r.within c mem t := by
  subst e
  exact h

theorem State.within.post {it : Item} (h : r.within c mem s) : r.within c mem (s.post it) := h.same
theorem State.within.at {d cyc prio : Nat} {ev : Ev} (h : r.within c mem s) : r.within c mem (s.at d cyc prio ev) := h.same
theorem State.within.drop {d : Nat} {p : Ev → Bool} (h : r.within c mem s) : r.within c mem (s.drop d p) := h.same

theorem State.within.setCore {k : Core} (h : r.within c mem s) (hk : k.steady mem = (s.core c).steady mem) : r.within c mem (s.setCore c k) :=
  ⟨h.agrees.same, by rw [State.core_setCore_same, hk, h.core], fun hr => (h.sole hr).setCore k⟩

theorem State.within.modCore {f : Core → Core} (h : r.within c mem s) (hf : ∀ k, (f k).steady mem = k.steady mem := by exact fun _ => rfl) :
    r.within c mem (s.modCore c f) := h.setCore (hf _)

theorem State.within.msi {v : Msi} (h : r.within c mem s) : r.within c mem (s.msi v) := by
  rw [State.msi_eq]
  exact h.same

/-! ### Errors, parity and reports of a core -/

theorem State.within.raiseOn {e : Err} (h : r.within c mem s) : r.within c mem (s.raiseOn c e) := by
  unfold State.raiseOn
  exact h.modCore.at

theorem State.within.fixes {st : Store} {units : List Nat} (h : r.within c mem s) : r.within c mem (s.fixes c st units) := by
  unfold State.fixes State.corrected State.vector
  split
  · exact h
  · exact h.modCore.when (·.msi)

theorem State.within.werr {code entry dev core tag rank : Nat} (h : r.within c mem s) :
    r.within c mem (s.werr c code entry dev core tag rank) := by
  have hw : ∀ (k : Core) (w : W64) (by_ : Nat × Nat), ({ k with werr := w, werrBy := by_ } : Core).steady mem = k.steady mem :=
    fun _ _ _ => rfl
  unfold State.werr
  refine h.modCore fun k => ?_
  dsimp only
  split
  · exact hw k _ k.werrBy
  · exact hw k _ _

theorem State.within.werrSelf {e code : Nat} (h : r.within c mem s) : r.within c mem (s.werrSelf c e code) := by
  unfold State.werrSelf
  exact h.werr

theorem State.within.winErr {e : Fin 32} (h : r.within c mem s) : r.within c mem (s.winErr c e) := by
  unfold State.winErr
  exact h.raiseOn

/-! ### Windows (R266-R289) -/

theorem State.within.modWin {e : Fin 32} {f : Window → Window} (h : r.within c mem s) : r.within c mem (s.modWin c e f) := by
  unfold State.modWin
  exact h.modCore

theorem State.within.withWin {e : Fin 32} {f : State → State} (h : r.within c mem s) (hf : ∀ t, r.within c mem t → r.within c mem (f t)) :
    r.within c mem (s.withWin c e f) := by
  unfold State.withWin
  exact h.winErr.ite (hf _ h.fixes)

theorem State.within.opens {e : Fin 32} {state : Fin 4} {tag : BitVec 16} (h : r.within c mem s) :
    r.within c mem (s.opens c e state tag) := by
  unfold State.opens
  exact (h.unless (·.same)).modWin

theorem State.within.openWindows {fence : Option W32} {count : BitVec 48} (h : r.within c mem s) :
    r.within c mem (s.openWindows c fence count) := by
  unfold State.openWindows
  dsimp only
  exact h.foldl fun _ _ ht => State.within.ite (ht.withWin fun _ hu => hu.opens) (ht.when (·.modWin))

theorem State.within.packet {dev : Nat} (h : r.within c mem s) : r.within c mem (s.packet dev) := by
  unfold State.packet
  exact h.unless (·.same)

theorem State.within.modOp {id : Nat} {f : RemoteOp → RemoteOp} (h : r.within c mem s) : r.within c mem (s.modOp id f) := h.same
theorem State.within.dropOp {id : Nat} (h : r.within c mem s) : r.within c mem (s.dropOp id) := h.same

theorem State.within.answer {o : RemoteOp} {code : Nat} (h : r.within c mem s) : r.within c mem (s.answer c o code) := by
  unfold State.answer State.delivery State.fresh State.report
  dsimp only
  have hf : r.within c mem { s with freeCtr := s.freeCtr + 1 } := h.same
  exact hf.at.ite (hf.packet.modOp.unless (·.dropOp))

theorem State.within.grantTo {e : Fin 32} {o : RemoteOp} (h : r.within c mem s) : r.within c mem (s.grantTo c e o) := by
  unfold State.grantTo
  exact h.modWin.modOp.answer

theorem State.within.rejectWaiting {e : Fin 32} (h : r.within c mem s) : r.within c mem (s.rejectWaiting c e) := by
  unfold State.rejectWaiting State.reject
  refine h.modWin.foldl fun t id ht => ?_
  split
  · exact ht.werr.answer
  · exact ht

theorem State.within.grantLocks {e : Fin 32} {n : Nat} (h : r.within c mem s) : r.within c mem (s.grantLocks c e n) := by
  induction n generalizing s with
  | zero => exact h
  | succ n ih =>
    unfold State.grantLocks
    dsimp only
    split
    · exact h
    · split
      · exact ih h.modWin
      · refine State.within.ite (ih (State.within.grantTo ?_)) h
        exact h.modWin.opens.ite ((h.modWin.when (·.opens)).modWin)

theorem State.within.quiesce {cyc : Nat} {valids : Bool} (h : r.within c mem s) : r.within c mem (s.quiesce c cyc valids) := by
  unfold State.quiesce
  have h1 := h.foldl (xs := (s.core c).tt) (f := fun s e =>
    if e.2.inval.isSome then s.at c cyc pTte (.run (argFocus c e.1) .translationInvalidate) else s) fun _ _ ht => ht.when (·.at)
  refine (h1.foldl fun t e ht => ?_).ite h1
  split
  · exact ht.at
  · exact ht

theorem State.within.stopChain {t : Nat} (h : r.within c mem s) : r.within c mem (s.stopChain c t) := by
  unfold State.stopChain State.wakeIdle
  exact h.drop.modCore.unless (·.post)

end Within

/-! ### Applies (R273, R275): bytes land in SPM -/

section Applies

variable {r s : State} {c : Nat}

theorem State.within.watch {own : Option (Fin 32)} {bs : List (Nat × Byte)} (h : r.within c true s) :
    r.within c true (s.watch c false own bs) := by
  unfold State.watch
  refine h.when fun ht => ht.foldl fun t e hu => hu.when fun hv => ?_
  exact hv.setCore rfl

theorem Core.steady_touch (k : Core) (ws : List Nat) : (k.touch true false ws).steady true = k.steady true := by
  unfold Core.touch
  extract_lets k'
  have hk : k'.steady true = k.steady true := by
    dsimp only [k']
    split <;> rfl
  exact hk

/-- A write of SPM that no signature takes touches SPM, its regions and its parity alone. -/
theorem Core.steady_storeBytes (k : Core) (cyc : Nat) (bs : List (Nat × Byte)) :
    (k.storeBytes cyc true false none bs).steady true = k.steady true := by
  unfold Core.storeBytes
  exact Core.steady_touch _ _

theorem State.within.meet {st : Store} {reader slot addr : Nat} {units : List Nat} (h : r.within c true s) :
    r.within c true (s.meet c st reader slot addr units).2 := by
  unfold State.meet
  dsimp only
  split
  · exact h
  · exact h.fixes.foldl fun _ _ ht => ht.raiseOn

theorem State.within.landUntimed {cls : PathClass} {op : Option Nat} {handle : Option (Fin 16)} {entry : Option (Fin 32)}
    {origins : List (Nat × Nat)} {done : Option Nat} {bs : List (Nat × Byte)} (h : r.within c true s) :
    r.within c true (s.landUntimed c cls op handle entry origins done bs) := by
  unfold State.landUntimed
  refine h.modCore.unless fun h1 => ?_
  unfold State.landRaw
  split
  · next u e => exact h1.meet.of_eq e
  · next u e => exact (h1.meet.of_eq e).modCore.watch.modCore fun k => k.steady_storeBytes ..

theorem State.within.applied {e : Fin 32} (h : r.within c true s) : r.within c true (s.applied c e) := by
  unfold State.applied
  extract_lets k w bad good s1 s2 s3 s4 s5
  have h1 : r.within c true s1 := h.landUntimed
  have h3 : r.within c true s3 := (h1.foldl fun _ _ ht => ht.raiseOn).modWin
  have h4 : r.within c true s4 := by
    dsimp only [s4]
    split
    · exact h3.answer
    · exact h3
  have h5 : r.within c true s5 := h4.when (·.at)
  exact h.unless fun _ => h5.when (·.grantLocks)

theorem State.within.expects {e : Fin 32} (h : r.within c true s) : r.within c true (s.expects c e) := by
  unfold State.expects
  exact h.modCore

theorem State.within.closeWindow {e : Fin 32} (h : r.within c true s) : r.within c true (s.closeWindow c e) := by
  unfold State.closeWindow
  extract_lets w s1 s2 n result s3 s4 t
  have h1 : r.within c true s1 := h.when (·.werrSelf)
  have h2 : r.within c true s2 := h1.fixes.ite (h1.unless (·.winErr)).modWin
  have h3 : r.within c true s3 := h2.same
  have h4 : r.within c true s4 := h3.modWin
  exact h.unless fun _ => h4.applied.ite h4.modCore.expects.at

theorem State.within.flushApplies (h : r.within c true s) : r.within c true (s.flushApplies c) := by
  unfold State.flushApplies
  exact h.drop.foldl fun _ _ ht => ht.applied

theorem State.within.closeAll (h : r.within c true s) : r.within c true (s.closeAll c) := by
  unfold State.closeAll
  exact h.foldl fun _ _ ht => ht.rejectWaiting.closeWindow

end Applies

end Sys2Proof.Machine

/-! PROOFS. What the operations of a boundary leave of the frame. -/

namespace Sys2Proof.Machine

open Sys2Proof

section Boundary

variable {r s t : State} {v : View} {c : Nat}

theorem State.agrees.of_within {mem : Bool} (h : r.agrees v s) (hw : s.within c mem t) : r.agrees v t := h.same hw.agrees

/-! ### Records and the end of a task -/

theorem State.agrees.checkRecord {id : Nat} (h : r.agrees v s) : r.agrees v (s.checkRecord id) := by
  unfold State.checkRecord
  split
  · exact h.when (·.at)
  · exact h

theorem State.agrees.failRecord {id : Nat} (h : r.agrees v s) : r.agrees v (s.failRecord id) := by
  unfold State.failRecord
  extract_lets preps s1 s2
  have h1 : r.agrees v s1 := h.foldl fun _ _ ht => ht.modCore
  have h2 : r.agrees v s2 := h1.same
  exact h2.when (·.at)

theorem State.agrees.releaseRecord (h : r.agrees v s) : r.agrees v (s.releaseRecord c) := by
  unfold State.releaseRecord
  split
  · exact h
  · exact h.modCore.modRecord.checkRecord

/-- A core once its task has ended (R30, R267). -/
def Core.freed (k : Core) : Core :=
  { k with
    win := k.win.map fun w => { w with word0 := w.word0 &&& ~~~1, validNext := false }
    life := if k.life = .retired then .retired else .free
    arrival := none, issued := none, delay := none, rfd := false, shadow := none, dayNext := none, verify := none, shift := 0, phase := none
    queues := Vector.replicate 5 [], barQ := false, barD := false, pclass := 0, drain := none, parking := false }

/-- The end of a task closes and applies its windows and stops its chain, and then frees the core. -/
theorem State.finishTask_eq (s : State) (c : Nat) : ∃ u, s.within c true u ∧ s.finishTask c = (u.modCore c Core.freed).releaseRecord c := by
  unfold State.finishTask
  extract_lets s1 s2 s3
  have h1 : s.within c true s1 := ((s.within_refl c true).foldl fun _ _ ht => ht.rejectWaiting.closeWindow).flushApplies
  have h2 : s.within c true s2 := by
    dsimp only [s2]
    split
    · exact h1.unless (·.stopChain)
    · exact h1
  exact ⟨s3, h2.quiesce, rfl⟩

theorem State.agrees.finishTask (h : r.agrees v s) : r.agrees v (s.finishTask c) := by
  obtain ⟨u, hu, he⟩ := s.finishTask_eq c
  rw [he]
  exact (h.of_within hu).modCore.releaseRecord

theorem State.agrees.cutDrain {d : Drain} (h : r.agrees v s) : r.agrees v (s.cutDrain c d) := by
  unfold State.cutDrain
  exact (h.modCore.unless (·.postAt)).modCore

theorem State.agrees.killTask (h : r.agrees v s) : r.agrees v (s.killTask c) := by
  unfold State.killTask
  extract_lets s1 k s2 s3
  have h1 : r.agrees v s1 := h.drop
  have h2 : r.agrees v s2 := by
    dsimp only [s2]
    split
    · exact h1.ite ((h1.ite h1.modCore.postAt).ite h1.cutDrain)
    · exact h1
  have h3 : r.agrees v s3 := by
    dsimp only [s3]
    split
    · exact h2.failRecord
    · exact h2
  exact h3.finishTask

/-! ### Arrivals, parking and discarded commands -/

theorem State.agrees.closeAll (h : r.agrees v s) : r.agrees v (s.closeAll c) := h.of_within (s.within_refl c true).closeAll

theorem State.agrees.checkBarriers (h : r.agrees v s) : r.agrees v (s.checkBarriers c) := by
  have hb : ∀ die u, r.agrees v u → r.agrees v (u.checkBarrier c die) := fun die u hu => by
    unfold State.checkBarrier
    exact hu.foldl fun _ _ ht => ht.when fun hw => hw.unless (·.at)
  exact hb true _ (hb false _ h)

theorem State.agrees.parkStragglers (h : r.agrees v s) : r.agrees v s.parkStragglers := by
  unfold State.parkStragglers State.parkCore
  exact (h.foldl fun _ _ ht => ht.closeAll.ite ht.closeAll.modCore.at).foldl fun _ _ ht => ht.checkBarriers

theorem State.agrees.discardOf (h : r.agrees v s) : r.agrees v (s.discardOf c) := by
  unfold State.discardOf
  extract_lets d late u w
  have hu : r.agrees v u := h.same
  exact h.unless fun _ => hu.modCore.foldl fun _ _ ht => ht.raiseOn

theorem State.agrees.discardLate (h : r.agrees v s) : r.agrees v s.discardLate := h.foldl fun _ _ ht => ht.discardOf

/-! ### Pre-emption (R54, R420) -/

/-- A partition that is pre-empted counts as halted, and the states of its halting cores are to be saved; of the frame nothing else changes. -/
theorem State.preemptPart_eq (s : State) (p : Nat) : ∃ u saved, s.agrees View.frame u ∧
    s.preemptPart p = { u with halted := s.halted ++ [p], saved := saved } := by
  unfold State.preemptPart
  extract_lets cs parked s1 s2 halts s3 s4
  have h1 : s.agrees View.frame s1 := (s.agrees_refl View.frame).foldl fun _ _ ht => ht.killTask.postEvent
  have h2 : s.agrees View.frame s2 := h1.foldl fun t c ht => by
    extract_lets k u
    have hu : s.agrees View.frame u := by
      dsimp only [u]
      split
      · exact ht.modRecord
      · exact ht
    exact hu.modCore
  have h3 : s.agrees View.frame s3 := h2.foldl fun t c ht =>
    (ht.of_within (((t.within_refl c true).openWindows).closeAll)).modCore.at
  have h4 : s.agrees View.frame s4 := by
    clear_value halts
    dsimp only [s4]
    split
    · exact h3.postEvent
    · exact h3
  have hh : s4.halted = s.halted := h4.eq State.halted
  exact ⟨s4, _, h4, by rw [hh]⟩

/-- The partitions of a list are pre-empted, each once its request is taken. -/
def State.preemptAll (s : State) (ps : List Nat) : State :=
  ps.foldl (fun s p => { (s.preemptPart p) with preempt := s.preempt.filter (· != p) }) s

theorem State.takePreempts_eq (s : State) : s.takePreempts = s.preemptAll (s.preempt.filter fun p => !s.quarantine.contains p) := rfl

theorem State.takePreempts_of_nil (h : s.preempt = []) : s.takePreempts = s := by
  rw [State.takePreempts_eq, h]
  rfl

/-- What pre-emption leaves: all but the requests, the halted partitions and the states to be saved. -/
theorem State.agrees.preemptAll (h : r.agrees v s) (hv : ∀ (t : State) (a b : List Nat) (x : List Saved),
    v.of { t with preempt := a, halted := b, saved := x } = v.of t := by exact fun _ _ _ _ => rfl) (ps : List Nat) :
    r.agrees v (s.preemptAll ps) := by
  refine h.foldl fun t p ht => ?_
  obtain ⟨u, saved, hu, he⟩ := t.preemptPart_eq p
  have hu' : r.agrees v u := ht.same hu
  rw [he]
  exact hu'.alter (hv u _ _ _)

theorem State.preemptAll_preempt (s : State) (ps : List Nat) (p : Nat) : p ∈ (s.preemptAll ps).preempt ↔ p ∈ s.preempt ∧ p ∉ ps := by
  induction ps generalizing s with
  | nil => simp [State.preemptAll]
  | cons q ps ih =>
    refine (ih _).trans ?_
    simp [and_assoc]

theorem State.preemptAll_halted (s : State) (ps : List Nat) (p : Nat) : p ∈ (s.preemptAll ps).halted ↔ p ∈ s.halted ∨ p ∈ ps := by
  induction ps generalizing s with
  | nil => simp [State.preemptAll]
  | cons q ps ih =>
    obtain ⟨u, saved, -, he⟩ := s.preemptPart_eq q
    have hh : (s.preemptPart q).halted = s.halted ++ [q] := by rw [he]
    refine (ih _).trans ?_
    simp [hh, or_assoc]

/-! ### Completions and scheduled boundaries -/

/-- A scheduled boundary that is placed or not leaves the frame. -/
theorem State.agrees.placeBoundary (h : r.agrees v s) : r.agrees v s.placeBoundary := by
  unfold State.placeBoundary
  exact h.when (·.drop.at)

end Boundary

end Sys2Proof.Machine

/-! PROOFS. Power admission and pending armings (O58). -/

namespace Sys2Proof.Machine

open Sys2Proof

/-! ### Package events (R357, R358) -/

theorem State.frame_perrst (s : State) (x : W64) : { s with perrst := x }.frame = s.frame := rfl

/-- A lost record counts in the low half of PERRST, whose other bits stay. -/
theorem State.pushEvent_perrst (s : State) (p : Nat) (r : W64) {b : Nat} (hb : 16 ≤ b) :
    (s.pushEvent p r).perrst.getLsbD b = s.perrst.getLsbD b := by
  unfold State.pushEvent
  dsimp only
  split
  · have hm : min 65535 (s.perrst.toNat % 65536 + 1) % 2 ^ 16 = min 65535 (s.perrst.toNat % 65536 + 1) := Nat.mod_eq_of_lt (by omega)
    have hs : BitVec.ofNat 64 (s.perrst.toNat - s.perrst.toNat % 65536 + min 65535 (s.perrst.toNat % 65536 + 1)) =
        setField s.perrst 0 16 (min 65535 (s.perrst.toNat % 65536 + 1)) := by
      rw [setField, hm, bits, pow_zero, Nat.div_one, Nat.mul_one, Nat.mul_one]
      simp only [Nat.reducePow]
    dsimp only
    rw [hs, setField_getLsbD _ _ _ (by omega), if_neg (by omega)]
  · rfl

theorem State.postAt_perrst (s : State) (p c n : Nat) (a : Recovery) (k : Nat) {b : Nat} (hb : 16 ≤ b) :
    (s.postAt p c n a k).perrst.getLsbD b = s.perrst.getLsbD b := by
  have hm : ∀ t : State, (t.eventMsi p n a.code).perrst = t.perrst := fun t => by
    unfold State.eventMsi State.vector
    split
    · rw [State.msi_eq]
    · rfl
  unfold State.postAt
  dsimp only
  rw [hm, ← s.pushEvent_perrst p (eventRecord n c s.device.toNat a.code k) hb]
  split <;> rfl

theorem State.postPackage_perrst (s : State) (n : Nat) {b : Nat} (hb : 16 ≤ b) :
    (s.postPackage n).perrst.getLsbD b = s.perrst.getLsbD b := by
  unfold State.postPackage
  exact List.foldlRecOn _ _ (motive := fun t : State => t.perrst.getLsbD b = s.perrst.getLsbD b) rfl fun t ht p _ =>
    (t.postAt_perrst p 0 n .n t.count.toNat hb).trans ht

/-! ### The arbiter's test (R322, R429) -/

/-- The state on which the test is made, before the requests for pre-emption are taken. -/
def State.settled (s : State) (cyc : Nat) : State :=
  let s := s.accrue cyc
  let s := if s.decided = some (cyc - 32) then { s with pwradm := s.pwrNew[0], pcwlo := s.pwrNew[1], pcwhi := s.pwrNew[2] } else s
  let s := if s.decided = some (cyc - 32) then s.endEmergency else s
  { s with credit := min s.credit s.creditCap }

theorem State.atAdmission_eq (s : State) (cyc : Nat) : s.atAdmission cyc = (s.settled cyc).takePreempts := rfl

/-- A state but for the arbiter's own registers. -/
def State.unpowered (s : State) : State :=
  { s with credit := 0, creditAt := 0, pwradm := 0, pcwlo := 0, pcwhi := 0, emergency := false, perrst := 0 }

/-- Before the requests are taken, the arbiter's own registers alone have changed. -/
theorem State.settled_unpowered (s : State) (cyc : Nat) : (s.settled cyc).unpowered = s.unpowered := by
  have he : ∀ t : State, t.endEmergency.unpowered = t.unpowered := fun t => by
    unfold State.endEmergency
    split <;> rfl
  have hr : ∀ t : State, (if t.decided = some (cyc - 32) then { t with pwradm := t.pwrNew[0], pcwlo := t.pwrNew[1], pcwhi := t.pwrNew[2] }
      else t : State).unpowered = t.unpowered := fun t => by split <;> rfl
  have hb : ∀ t : State, (if t.decided = some (cyc - 32) then t.endEmergency else t).unpowered = t.unpowered := fun t => by
    split
    · exact he t
    · rfl
  unfold State.settled
  extract_lets s1 s2 s3
  exact ((hb s2).trans (hr s1)).trans rfl

/-- What the arbiter's own registers do not tell is as before. -/
theorem State.settled_eq (s : State) (cyc : Nat) {β : Type} (f : State → β) (hf : ∀ s, f s.unpowered = f s := by exact fun _ => rfl) :
    f (s.settled cyc) = f s := by
  rw [← hf, s.settled_unpowered, hf]

/-- The credit does not exceed its ceiling (R321). -/
theorem State.settled_credit (s : State) (cyc : Nat) : (s.settled cyc).credit ≤ ((s.settled cyc).creditCap : Int) := by
  unfold State.settled
  extract_lets s1 s2 s3
  exact min_le_right _ _

/-- The arbiter's test: the draw fits, or the phase is an overdraft that is forced, or the boundary is held. -/
theorem State.admits_cases (s : State) :
    let d := s.nextDraw
    let fits := d ≤ s.powerBudget ∨ ((d : Int) - s.powerBudget) * s.horizon ≤ s.credit
    let forced := s.driven = true ∨ s.powerBudget ≤ s.idleDraw ∨ (2 * s.powerBudget < d ∧ ((s.powerBudget * s.horizon : Nat) : Int) ≤ s.credit)
    (fits ∧ s.admits = some false) ∨ (¬fits ∧ forced ∧ s.admits = some true) ∨ (¬fits ∧ ¬forced ∧ s.admits = none) := by
  intro d fits forced
  have hfits : s.fits s.nextDraw = true ↔ fits := by simp [State.fits, fits, d]
  have hforced : (s.driven || s.powerBudget ≤ s.idleDraw || (2 * s.powerBudget < s.nextDraw && (s.creditCap : Int) ≤ s.credit)) = true ↔ forced := by
    simp [forced, d, State.creditCap, or_assoc]
  unfold State.admits
  by_cases hf : fits
  · exact .inl ⟨hf, if_pos (hfits.mpr hf)⟩
  · right
    by_cases hc : forced
    · exact .inl ⟨hf, hc, (if_neg fun h => hf (hfits.mp h)).trans (if_pos (hforced.mpr hc))⟩
    · exact .inr ⟨hf, hc, (if_neg fun h => hf (hfits.mp h)).trans (if_neg fun h => hc (hforced.mp h))⟩

/-! ### The admission of a phase -/

/-- The state of an admission with a draw, but for the boundary that it posts. -/
def State.drawn (s : State) (d : Nat) (od : Bool) : State :=
  let s := { s with draw := d, held := s.cyc - (s.decided.getD 0 + 32) }
  if od then { s with perrst := setField s.perrst 33 1 1 }.postPackage 0x19 else s

theorem State.admitPhase_eq (s : State) (d : Nat) (od : Bool) :
    s.admitPhase d od = (s.drawn d od).at 0 (s.drawn d od).cyc pBoundary (.run Focus.reset .phaseBoundary) := rfl

/-- An admission leaves the frame but for the draw and the cycles of the hold. -/
theorem State.drawn_agrees (s : State) (d : Nat) (od : Bool) :
    { s with draw := d, held := s.cyc - (s.decided.getD 0 + 32) }.agrees View.frame (s.drawn d od) := by
  unfold State.drawn
  extract_lets u
  exact (State.agrees_refl ..).when fun h => (h.same (State.frame_perrst _ _)).postPackage

theorem State.drawn_cores (s : State) (d : Nat) (od : Bool) : (s.drawn d od).cores = s.cores := by
  unfold State.drawn
  extract_lets u
  split
  · exact (State.postPackage_keeps _ _).1
  · rfl

/-- An overdraft is noted in PERRST. -/
theorem State.drawn_perrst (s : State) (d : Nat) : (s.drawn d true).perrst.getLsbD 33 = true := by
  unfold State.drawn
  extract_lets u
  rw [if_pos rfl, State.postPackage_perrst _ _ (by omega)]
  exact (setField_getLsbD u.perrst 1 33 (by omega)).trans rfl

theorem State.nextDraw_congr {s t : State} (hf : t.frame = { s with draw := t.draw, held := t.held }.frame) (hc : t.cores = s.cores) :
    t.nextDraw = s.nextDraw := by
  have h : ∀ u : State, u.nextDraw = { u.frame with cores := u.cores }.nextDraw := fun _ => rfl
  rw [h t, h s, hf, hc]
  rfl

/-- The request of a partition is taken unless it is being quarantined, and then it counts as halted. -/
theorem State.takePreempts_requests (s : State) (p : Nat) :
    (p ∈ s.takePreempts.preempt ↔ p ∈ s.preempt ∧ p ∈ s.quarantine) ∧
      (p ∈ s.preempt → p ∉ s.quarantine → p ∈ s.takePreempts.halted) := by
  rw [State.takePreempts_eq, State.preemptAll_preempt, State.preemptAll_halted]
  simp only [List.mem_filter, Bool.not_eq_true', List.contains_eq_mem, decide_eq_false_iff_not]
  tauto

/-- What of the frame an admission takes over. -/
def View.arbiter : View :=
  ⟨fun s => (s.now, s.count, s.driven, s.draw, s.pwradm, s.emergency, s.credit), fun _ => rfl⟩

/-- On the state of the test the credit keeps below its ceiling, the requests are taken, and neither time nor drive has changed. -/
theorem State.atAdmission_spec (s : State) :
    let a := s.atAdmission s.cyc
    a.now = s.now ∧ a.count = s.count ∧ a.driven = s.driven ∧ a.draw = s.draw ∧ a.credit ≤ ((a.powerBudget * a.horizon : Nat) : Int) ∧
      (s.preempt = [] → a.cores = s.cores ∧ a.vectors = s.vectors) ∧
      ∀ p, (p ∈ a.preempt ↔ p ∈ s.preempt ∧ p ∈ s.quarantine) ∧ (p ∈ s.preempt → p ∉ s.quarantine → p ∈ a.halted) := by
  intro a
  have hb : View.arbiter.of a = View.arbiter.of (s.settled s.cyc) :=
    (State.agrees_refl View.arbiter (s.settled s.cyc)).preemptAll (ps := (s.settled s.cyc).preempt.filter fun p =>
      !(s.settled s.cyc).quarantine.contains p)
  obtain ⟨hnow, hcount, hdriven, hdraw, hadm, hem, hcredit⟩ : a.now = (s.settled s.cyc).now ∧ a.count = (s.settled s.cyc).count ∧
      a.driven = (s.settled s.cyc).driven ∧ a.draw = (s.settled s.cyc).draw ∧ a.pwradm = (s.settled s.cyc).pwradm ∧
      a.emergency = (s.settled s.cyc).emergency ∧ a.credit = (s.settled s.cyc).credit := by
    simpa only [View.arbiter, Prod.mk.injEq] using hb
  refine ⟨hnow.trans (s.settled_eq _ State.now), hcount.trans (s.settled_eq _ State.count), hdriven.trans (s.settled_eq _ State.driven),
    hdraw.trans (s.settled_eq _ State.draw), ?_, fun hp => ?_, fun p => ?_⟩
  · have hc := s.settled_credit s.cyc
    unfold State.creditCap State.powerBudget State.horizon at hc
    unfold State.powerBudget State.horizon
    rw [hcredit, hadm, hem]
    exact hc
  · have ha : a = s.settled s.cyc := (s.atAdmission_eq s.cyc).trans (State.takePreempts_of_nil ((s.settled_eq _ State.preempt).trans hp))
    rw [ha]
    exact ⟨s.settled_eq _ State.cores, s.settled_eq _ State.vectors⟩
  · have := (s.settled s.cyc).takePreempts_requests p
    rwa [s.settled_eq _ State.preempt, s.settled_eq _ State.quarantine] at this

/-- An admitted phase: the test as the next state tells it, the draw, the boundary and what stays. -/
theorem State.drawn_spec (a : State) (d : Nat) (od : Bool) :
    let t := a.admitPhase d od
    t.now = a.now ∧ t.count = a.count ∧ t.draw = d ∧ t.cores = a.cores ∧ t.nextDraw = a.nextDraw ∧ t.powerBudget = a.powerBudget ∧
      t.horizon = a.horizon ∧ t.idleDraw = a.idleDraw ∧ t.credit = a.credit ∧ t.preempt = a.preempt ∧ t.halted = a.halted ∧
      (⟨max (3 * a.cyc) a.now, pBoundary, 0, .run Focus.reset .phaseBoundary⟩ : Item) ∈ t.agenda := by
  intro t
  have h := a.drawn_agrees d od
  have hnow : (a.drawn d od).now = a.now := h.eq State.now
  refine ⟨hnow, h.eq State.count, h.eq State.draw, a.drawn_cores d od, State.nextDraw_congr ?_ (a.drawn_cores d od), h.eq State.powerBudget,
    h.eq State.horizon, h.eq State.idleDraw, h.eq State.credit, h.eq State.preempt, h.eq State.halted, ?_⟩
  · have hdraw : t.draw = d := h.eq State.draw
    have hheld : t.held = a.cyc - (a.decided.getD 0 + 32) := h.eq State.held
    rw [hdraw, hheld]
    exact h
  · have hcyc : (a.drawn d od).cyc = a.cyc := congrArg (· / 3) hnow
    rw [show t = _ from a.admitPhase_eq d od]
    exact mem_insertItem.mpr (.inl (by rw [hcyc, hnow]))

theorem powerAdmitsPhases : Claims.PowerAdmitsPhases := by
  intro s
  obtain ⟨hnow, hcount, hdriven, hdraw, hcredit, hcores, hreq⟩ := s.atAdmission_spec
  generalize ha : s.atAdmission s.cyc = a at hnow hcount hdriven hdraw hcredit hcores hreq
  have hcyc : a.cyc = s.cyc := congrArg (· / 3) hnow
  have hexec : exec .powerAdmission s = .next (match a.admits with
      | some od => a.admitPhase a.nextDraw od
      | none => a.at 0 (a.cyc + 1) pBoundary (.run Focus.reset .powerAdmission)) := by rw [← ha]; rfl
  rcases a.admits_cases with ⟨hfit, had⟩ | ⟨hfit, hforced, had⟩ | ⟨hfit, hforced, had⟩ <;> rw [had] at hexec
  · obtain ⟨-, tcount, tdraw, tcores, tnext, tbudget, thorizon, -, tcredit, tpre, thalt, tag⟩ := a.drawn_spec a.nextDraw false
    refine ⟨_, hexec, ?_⟩
    rw [tnext, tbudget, thorizon, tcredit, tcount, tcores, tpre, thalt, ← hcyc, ← hnow]
    exact ⟨fun _ => ⟨tdraw, tag⟩, fun h => absurd hfit h, fun h => absurd (.inl hfit) h, hcredit, hcount,
      fun hp => ⟨(hcores hp).1, fun _ => (hcores hp).2⟩, hreq⟩
  · obtain ⟨-, tcount, tdraw, tcores, tnext, tbudget, thorizon, tidle, tcredit, tpre, thalt, tag⟩ := a.drawn_spec a.nextDraw true
    refine ⟨_, hexec, ?_⟩
    rw [tnext, tbudget, thorizon, tidle, tcredit, tcount, tcores, tpre, thalt, ← hcyc, ← hnow, ← hdriven]
    exact ⟨fun _ => ⟨tdraw, tag⟩, fun _ _ => a.drawn_perrst _, fun h => absurd (.inr hforced) h, hcredit, hcount,
      fun hp => ⟨(hcores hp).1, fun h => absurd h hfit⟩, hreq⟩
  · rw [← hdriven, ← hcyc]
    have htick : max (3 * (a.cyc + 1)) a.now = 3 * (a.cyc + 1) := max_eq_left (by unfold State.cyc; omega)
    refine ⟨_, hexec, fun h => absurd h (by tauto), fun _ h => absurd h hforced, fun _ => ⟨hdraw, ?_⟩, hcredit, hcount,
      fun hp => ⟨(hcores hp).1, fun h => absurd h hfit⟩, hreq⟩
    exact mem_insertItem.mpr (.inl (by rw [htick]))

/-! ### Pending armings (R44, R55) -/

theorem badSchedule_iff (ctl tper : W64) : badSchedule ctl tper = true ↔
    ctl.getLsbD 1 = true ∧ (1900 < tper.toNat % 2 ^ 32 ∨ 1900 < tper.toNat / 2 ^ 32 % 2 ^ 32) := by
  simp only [badSchedule, bits, pow_zero, Nat.div_one, Bool.and_eq_true, Bool.or_eq_true, decide_eq_true_eq]
  exact and_congr_right fun _ => or_congr_right decide_eq_true_iff

/-- A completion leaves the cadence. -/
theorem State.complete_cadence (s : State) (slot code : Nat) : (s.complete slot code).cad = s.cad ∧ (s.complete slot code).cadNew = s.cadNew ∧
    (s.complete slot code).arming = s.arming ∧ (s.complete slot code).driven = s.driven ∧ (s.complete slot code).tbound = s.tbound ∧
    (s.complete slot code).armed = s.armed ∧ (s.complete slot code).reverting = s.reverting ∧
    (s.complete slot code).needsArmtd = s.needsArmtd := by
  by_cases h : slot ∈ s.fwdSlots
  · rw [s.complete_of_forwarded slot code h]
    exact ⟨rfl, rfl, rfl, rfl, rfl, rfl, rfl, rfl⟩
  · rw [s.complete_of_own slot code h, State.vector, State.msi_eq]
    exact ⟨rfl, rfl, rfl, rfl, rfl, rfl, rfl, rfl⟩

/-- A completion leaves its code in the status byte of its slot. -/
theorem State.complete_status (s : State) (slot code : Nat) : (s.complete slot code).cmd.byte (4096 * slot + 10) = BitVec.ofNat 8 code := by
  rw [State.complete_cmd, Memory.byte_store_same]

/-- The state in which an arming has taken effect. -/
def State.armedBy (s : State) (a : Arming) : State :=
  { s with arming := none, cad := a.regs, cadNew := a.regs, driven := true, reverting := false, tbound := a.regs.tbase, armed := a.count
           needsArmtd := s.needsArmtd && a.count.isNone }

theorem exec_armingCheck_of_rejected {s : State} {a : Arming} (ha : s.arming = some a)
    (h : 3 * 65536 * (a.regs.tbase.toNat : Int) - 320 * 65536 < 3 * (s.timeFix s.cyc : Int) ∨ badSchedule a.regs.ctl a.regs.tper = true) :
    exec .armingCheck s = .next ({ s with arming := none }.complete a.slot 6) := by
  change execArmingCheck s = _
  simp only [execArmingCheck, ha]
  exact congrArg Host.Outcome.next (if_pos h)

theorem exec_armingCheck_of_accepted {s : State} {a : Arming} (ha : s.arming = some a)
    (h : ¬(3 * 65536 * (a.regs.tbase.toNat : Int) - 320 * 65536 < 3 * (s.timeFix s.cyc : Int) ∨ badSchedule a.regs.ctl a.regs.tper = true)) :
    exec .armingCheck s = .next ((s.armedBy a).complete a.slot 1).placeBoundary := by
  change execArmingCheck s = _
  simp only [execArmingCheck, ha]
  exact congrArg Host.Outcome.next (if_neg h)

theorem armingsAreChecked : Claims.ArmingsAreChecked := by
  intro s a
  refine ⟨fun h => ?_, fun ha => ?_⟩
  · change execArmingCheck s = _
    simp only [execArmingCheck, h]
  · rw [← badSchedule_iff]
    refine ⟨fun h => ?_, fun h => ?_⟩
    · obtain ⟨hcad, -, harm, hdriven, -⟩ := State.complete_cadence { s with arming := none } a.slot 6
      exact ⟨_, exec_armingCheck_of_rejected ha h, harm, hdriven, hcad, State.complete_status ..⟩
    · obtain ⟨hcad, hnew, harm, hdriven, hbound, harmed, hrev, hneeds⟩ := (s.armedBy a).complete_cadence a.slot 1
      have hp := ((s.armedBy a).complete a.slot 1).agrees_refl View.frame |>.placeBoundary
      exact ⟨_, exec_armingCheck_of_accepted ha h, (hp.eq State.arming).trans harm, (hp.eq State.driven).trans hdriven,
        (hp.eq State.cad).trans hcad, (hp.eq State.cadNew).trans hnew, (hp.eq State.tbound).trans hbound, (hp.eq State.armed).trans harmed,
        (hp.eq State.reverting).trans hrev, (hp.eq State.needsArmtd).trans hneeds,
        (congrArg (fun m : Memory => m.byte (4096 * a.slot + 10)) (hp.eq State.cmd)).trans (State.complete_status ..)⟩

/-- Settles O58: the arbiter's test splits into its three answers, and an arming at its waiting phase is rejected or takes effect. -/
theorem powerAndArmings : Obligations.PowerAndArmings := ⟨powerAdmitsPhases, armingsAreChecked⟩

end Sys2Proof.Machine

/-! PROOFS. Arrivals, barriers and the decision (O19, O34). -/

namespace Sys2Proof.Machine

open Sys2Proof

/-! ### Operations that post alone -/

/-- Whether t is s with operations posted. -/
structure State.adds (s t : State) : Prop where
  eq : t = { s with agenda := t.agenda }
  mem : ∀ x ∈ s.agenda, x ∈ t.agenda

section Adds

variable {r s t : State}

theorem State.adds_refl (s : State) : s.adds s := ⟨rfl, fun _ h => h⟩

theorem State.adds.trans (h : r.adds s) (h' : s.adds t) : r.adds t := by
  refine ⟨?_, fun x hx => h'.mem x (h.mem x hx)⟩
  rw [h'.eq, h.eq]

theorem State.adds.post {it : Item} (h : r.adds s) : r.adds (s.post it) :=
  h.trans ⟨rfl, fun _ hx => (State.mem_post_agenda _).mpr (.inr hx)⟩

theorem State.adds.at {c cyc prio : Nat} {ev : Ev} (h : r.adds s) : r.adds (s.at c cyc prio ev) := h.post

theorem State.adds.when {p : Prop} [Decidable p] (h : r.adds s) (h' : r.adds s → r.adds t) : r.adds (if p then t else s) := by
  split
  · exact h' h
  · exact h

theorem State.adds.foldl {α : Type} {f : State → α → State} {xs : List α} (h : r.adds s) (hf : ∀ t x, r.adds t → r.adds (f t x)) :
    r.adds (xs.foldl f s) := by
  induction xs generalizing s with
  | nil => exact h
  | cons x xs ih => exact ih (hf s x h)

theorem State.adds.cur (h : s.adds t) : t.cur = s.cur := by rw [h.eq]; rfl

theorem State.adds.checkBarrier {c : Nat} {die : Bool} (h : r.adds s) : r.adds (s.checkBarrier c die) := by
  unfold State.checkBarrier
  refine h.foldl fun t w ht => ht.when fun _ => ?_
  dsimp only
  split
  · exact ht
  · exact ht.at

theorem State.adds.checkBarriers {c : Nat} (h : r.adds s) : r.adds (s.checkBarriers c) := h.checkBarrier.checkBarrier

end Adds

/-! ### Arrivals and barriers (R34-R36, R49-R51) -/

/-- An arrival is recorded with its operands, and its count is posted. -/
theorem State.arriveNow_spec (s : State) (a b : Fin 32) (ends : Bool) :
    (s.arriveNow a b ends).cur = s.cur.arrive s.cyc ((s.cur.readS a).setWidth 32) (bits (s.cur.readS b).toNat 0 4)
      (bits (s.cur.readS b).toNat 8 20) ends ∧
    (⟨max (3 * s.cyc) s.now, pEnd, s.focus.core.val, .run (coreFocus s.focus.core.val) .arrivalCount⟩ : Item) ∈
      (s.arriveNow a b ends).agenda := by
  unfold State.arriveNow
  extract_lets x y c
  have h := (State.adds_refl ((s.modCur fun k => k.arrive s.cyc (x.setWidth 32) (bits y 0 4) (bits y 8 20) ends).checkArrival c s.cyc)).checkBarriers
    (c := c)
  exact ⟨h.cur.trans (State.cur_modCur s fun k => k.arrive s.cyc (x.setWidth 32) (bits y 0 4) (bits y 8 20) ends),
    h.mem _ (mem_insertItem.mpr (.inl rfl))⟩

/-- A core that waits for one more event. -/
def Core.awaiting (k : Core) (w : Wait) : Core := { k with issued := k.issued.map fun i => { i with waits := i.waits ++ [w] } }

/-- A barrier is recorded, and the core waits for its release. -/
theorem State.bar_cur (s : State) (die : Bool) : (s.bar die).cur =
    if die then { s.cur.awaiting (.barrier die) with barD := true } else { s.cur.awaiting (.barrier die) with barQ := true } := by
  have hw : (s.waitFor (.barrier die)).cur = s.cur.awaiting (.barrier die) := State.cur_modCur s (·.awaiting _)
  rw [← hw]
  exact (State.adds_refl _).checkBarrier.cur.trans
    (State.cur_modCur (s.waitFor (.barrier die)) fun k => if die then { k with barD := true } else { k with barQ := true })

/-- Settles O19: an arrival and a barrier change the core's own record, and what follows them posts operations alone. -/
theorem arrivalsAndBarriers : Obligations.ArrivalsAndBarriers := by
  intro g a b s hg c y arr counts
  have hclass : bits y 0 4 = y % 16 := by rw [bits, pow_zero, Nat.div_one]; rfl
  have harr : ∀ ends, s.cur.arrive s.cyc ((s.cur.readS a).setWidth 32) (bits y 0 4) (bits y 8 20) ends =
      { s.cur with arrival := some (arr ends) } := fun ends => by rw [hclass]; rfl
  have hcadv : ∀ ends, (s.arriveNow a b ends).cur = { s.cur with arrival := some (arr ends) } ∧ counts ∈ (s.arriveNow a b ends).agenda :=
    fun ends => ⟨(s.arriveNow_spec a b ends).1.trans (harr ends), (s.arriveNow_spec a b ends).2⟩
  exact ⟨⟨_, State.slot_true hg fun s => s.arriveNow a b false, hcadv false⟩, ⟨_, State.slot_true hg fun s => s.arriveNow a b true, hcadv true⟩,
    ⟨_, State.slot_true hg fun s => s.bar false, s.bar_cur false⟩, ⟨_, State.slot_true hg fun s => s.bar true, s.bar_cur true⟩, fun _ => rfl⟩

/-! ### The decision (R38, R48) -/

/-- A core but for its queues and the errors of the cycle. -/
def Core.unqueued (k : Core) : Core := { k with errs := [], queues := Vector.replicate 5 [] }

theorem State.keeps.foldl {α : Type} {e : Core → Core} {s t : State} {f : State → α → State} {xs : List α} (h : s.keeps e t)
    (hf : ∀ (t : State) x, t.keeps e (f t x)) : s.keeps e (xs.foldl f t) := by
  induction xs generalizing t with
  | nil => exact h
  | cons x xs ih => exact ih (h.trans (hf t x))

/-- Commands that are discarded leave their queues, and each is an error. -/
theorem State.keeps_discardOf (s : State) (c : Nat) : s.keeps Core.unqueued (s.discardOf c) := by
  unfold State.discardOf
  extract_lets d late u w
  split
  · exact s.keeps_refl _
  · have hu : s.keeps Core.unqueued u := ⟨rfl, fun _ => rfl⟩
    have hw : u.keeps Core.unqueued w := u.keeps_modCore c fun _ => rfl
    refine (hu.trans hw).foldl fun t x => ?_
    unfold State.raiseOn
    refine (t.keeps_modCore c ?_).trans (State.keeps_post ..)
    exact fun _ => rfl

theorem State.keeps_discardLate (s : State) : s.keeps Core.unqueued s.discardLate :=
  (s.keeps_refl _).foldl fun t c => t.keeps_discardOf c

/-- A decision names its cycle and places the power admission; of the cores it touches queues and errors alone. -/
theorem State.decideNow_spec (s : State) : s.decideNow.decided = some s.cyc ∧
    (⟨3 * (s.cyc + 32), pBoundary, 0, .run Focus.reset .powerAdmission⟩ : Item) ∈ s.decideNow.agenda ∧
    ∀ c, (s.decideNow.core c).unqueued = (s.core c).unqueued := by
  have hn : s.discardLate.now = s.now := ((State.agrees_refl View.frame s).discardLate).eq State.now
  refine ⟨rfl, ?_, s.keeps_discardLate.2⟩
  refine mem_insertItem.mpr (.inl ?_)
  have ht : max (3 * (s.discardLate.cyc + 32)) s.discardLate.now = 3 * (s.cyc + 32) := by
    unfold State.cyc; omega
  exact congrArg (Item.mk · _ _ _) ht.symm

/-- The decision at a budget's end or a scheduled boundary, with the cores that are late parked. -/
theorem State.decideLate_spec (s : State) : s.parkStragglers.decideNow.decided = some s.cyc ∧
    (⟨3 * (s.cyc + 32), pBoundary, 0, .run Focus.reset .powerAdmission⟩ : Item) ∈ s.parkStragglers.decideNow.agenda := by
  have hn : s.parkStragglers.cyc = s.cyc := ((State.agrees_refl View.frame s).parkStragglers).eq State.cyc
  rw [← hn]
  exact ⟨s.parkStragglers.decideNow_spec.1, s.parkStragglers.decideNow_spec.2.1⟩

/-- Under the time-driven drive, before the release or once it has come, the decision is as it is. -/
theorem State.tryDecide_of_settled {s : State} (h : s.driven = true ∨ s.decided ≠ none ∨ s.released = false) : s.tryDecide = s := by
  unfold State.tryDecide
  refine if_pos ?_
  rw [Bool.or_eq_true, Bool.or_eq_true, Option.isSome_iff_ne_none, Bool.not_eq_true']
  tauto

/-- With every core arrived and no update to wait for, the phase is decided. -/
theorem State.tryDecide_of_all {s : State} (hd : s.driven = false) (hn : s.decided = none) (hr : s.released = true)
    (ha : ∀ x ∈ s.awaited, (s.core x).arrived = true) (hp : s.count.getLsbD 0 = false ∨ s.pages = []) : s.tryDecide = s.decideNow := by
  have hall : (s.awaited.all fun c => (s.core c).arrived) = true := List.all_eq_true.mpr ha
  unfold State.tryDecide
  rw [hd, hn, hr, hall]
  rcases hp with hp | hp <;> rw [hp] <;> simp

/-- While a core is awaited, the phase is not decided. -/
theorem State.tryDecide_of_late {s : State} {x : Nat} (hx : x ∈ s.awaited) (hl : (s.core x).arrived = false) : s.tryDecide = s := by
  have hall : (s.awaited.all fun c => (s.core c).arrived) = false := List.all_eq_false.mpr ⟨x, hx, by rw [hl]; simp⟩
  unfold State.tryDecide
  rw [hall]
  simp

/-! ### Which cores are awaited -/

theorem Sp.mem_of_mem_put {α : Type} {m : List (Nat × α)} {i : Nat} {x : α} {e : Nat × α} (h : e ∈ Sp.put i x m) : e = (i, x) ∨ e ∈ m := by
  induction m with
  | nil => exact .inl (List.mem_singleton.mp h)
  | cons y m ih =>
    unfold Sp.put at h
    split at h
    · grind
    · grind

theorem Sp.mem_put_of_ne {α : Type} {m : List (Nat × α)} {i : Nat} {x : α} {e : Nat × α} (h : e ∈ m) (hi : e.1 ≠ i) : e ∈ Sp.put i x m := by
  induction m with
  | nil => exact absurd h List.not_mem_nil
  | cons y m ih =>
    unfold Sp.put
    grind

theorem Sp.mem_of_mem_set {α : Type} [DecidableEq α] {d : α} {m : List (Nat × α)} {i : Nat} {x : α} {e : Nat × α} (h : e ∈ Sp.set d m i x) :
    e = (i, x) ∨ e ∈ m := by
  unfold Sp.set at h
  split at h
  · exact .inr (List.mem_of_mem_filter h)
  · exact Sp.mem_of_mem_put h

theorem Sp.mem_set_of_ne {α : Type} [DecidableEq α] {d : α} {m : List (Nat × α)} {i : Nat} {x : α} {e : Nat × α} (h : e ∈ m) (hi : e.1 ≠ i) :
    e ∈ Sp.set d m i x := by
  unfold Sp.set
  split
  · exact List.mem_filter.mpr ⟨h, decide_eq_true hi⟩
  · exact Sp.mem_put_of_ne h hi

theorem State.mem_awaited {s : State} {x : Nat} : x ∈ s.awaited ↔ ∃ k, (x, k) ∈ s.cores ∧ k.life = .task ∧ k.phase = none := by
  unfold State.awaited
  simp only [List.mem_map, List.mem_filter, Bool.and_eq_true, beq_iff_eq, Option.isNone_iff_eq_none, Prod.exists]
  grind

theorem State.mem_awaited_of_modCore {s : State} {c x : Nat} {f : Core → Core} (h : x ∈ (s.modCore c f).awaited) (hx : x ≠ c) : x ∈ s.awaited := by
  obtain ⟨k, hk, hl⟩ := State.mem_awaited.mp h
  rcases Sp.mem_of_mem_set hk with e | hk
  · exact absurd (congrArg Prod.fst e) hx
  · exact State.mem_awaited.mpr ⟨k, hk, hl⟩

theorem State.mem_awaited_modCore {s : State} {c x : Nat} (f : Core → Core) (h : x ∈ s.awaited) (hx : x ≠ c) : x ∈ (s.modCore c f).awaited := by
  obtain ⟨k, hk, hl⟩ := State.mem_awaited.mp h
  exact State.mem_awaited.mpr ⟨k, Sp.mem_set_of_ne hk hx, hl⟩

/-! ### Counting an arrival (R292) -/

/-- A core whose arrival counts. -/
def Core.counts (k : Core) (cyc : Nat) : Core := { k with arrival := k.arrival.map fun (a : Arrival) => { a with counted := some cyc } }

/-- Once every other core has arrived, the count of an arrival decides the phase. -/
theorem State.countArrival_of_all {s : State} {c : Nat} (ha : ((s.core c).counts s.cyc).arrived = true) (hd : s.driven = false)
    (hn : s.decided = none) (hr : s.released = true) (hall : ∀ x ∈ s.awaited, x ≠ c → (s.core x).arrived = true)
    (hp : s.count.getLsbD 0 = false ∨ s.pages = []) : s.countArrival c = (s.modCore c (·.counts s.cyc)).decideNow := by
  have hu : ¬ (s.decided.isSome = true ∧ (s.modCore c (·.counts s.cyc)).rejoins ((s.modCore c (·.counts s.cyc)).core c) = true) := by
    rw [hn]; exact fun h => Bool.noConfusion h.1
  refine (congrArg State.tryDecide (if_neg hu)).trans (State.tryDecide_of_all hd hn hr (fun x hx => ?_) hp)
  by_cases he : x = c
  · rw [he, State.core_modCore_same]; exact ha
  · rw [State.core_modCore_other s _ he]
    exact hall x (State.mem_awaited_of_modCore hx he) he

/-- While another core is awaited, the count of an arrival decides nothing. -/
theorem State.countArrival_of_late {s : State} {c x : Nat} (hn : s.decided = none) (hx : x ∈ s.awaited) (he : x ≠ c)
    (hl : (s.core x).arrived = false) : s.countArrival c = s.modCore c (·.counts s.cyc) := by
  have hu : ¬ (s.decided.isSome = true ∧ (s.modCore c (·.counts s.cyc)).rejoins ((s.modCore c (·.counts s.cyc)).core c) = true) := by
    rw [hn]; exact fun h => Bool.noConfusion h.1
  refine (congrArg State.tryDecide (if_neg hu)).trans (State.tryDecide_of_late (State.mem_awaited_modCore _ hx he) ?_)
  rwa [State.core_modCore_other s _ he]

theorem State.unqueued_tryDecide (s : State) (c : Nat) : (s.tryDecide.core c).unqueued = (s.core c).unqueued := by
  unfold State.tryDecide
  split
  · rfl
  · split
    · exact s.decideNow_spec.2.2 c
    · rfl

/-- The count of an arrival changes what the arrival says, and of the cores else queues and errors alone. -/
theorem State.unqueued_countArrival (s : State) (c : Nat) :
    ((s.countArrival c).core c).unqueued = ((s.core c).counts s.cyc).unqueued := by
  unfold State.countArrival
  extract_lets decided u
  have hu : u.core c = (s.core c).counts s.cyc := State.core_modCore_same ..
  rw [← hu]
  refine (State.unqueued_tryDecide _ c).trans ?_
  split
  · exact (State.keeps_discardOf u c).2 c
  · rfl

/-- What the pipeline works on. -/
def View.focus : View := ⟨State.focus, fun _ => rfl⟩

theorem State.countArrival_focus (s : State) (c : Nat) : (s.countArrival c).focus = s.focus := by
  have hd : ∀ t, s.agrees View.focus t → s.agrees View.focus t.decideNow := fun t ht =>
    State.agrees.at (ht.discardLate.alter (t := { t.discardLate with decided := some t.cyc }))
  have ht : ∀ t, s.agrees View.focus t → s.agrees View.focus t.tryDecide := fun t h => h.unless fun h => h.when (hd t)
  exact ht _ ((State.agrees_refl View.focus s).modCore.when (·.discardOf))

/-- An arrival that counts keeps what it says, and the registers stay. -/
theorem State.countArrival_cur {s : State} {a : Arrival} (ha : s.cur.arrival = some a) :
    (s.countArrival s.focus.core.val).cur.arrival = some { a with counted := some s.cyc } ∧
    (s.countArrival s.focus.core.val).cur.regs = s.cur.regs := by
  have hf : (s.countArrival s.focus.core.val).cur = (s.countArrival s.focus.core.val).core s.focus.core.val := by
    rw [State.cur, State.countArrival_focus]
  have hc : (s.countArrival s.focus.core.val).cur.unqueued = (s.cur.counts s.cyc).unqueued :=
    (congrArg Core.unqueued hf).trans (s.unqueued_countArrival s.focus.core.val)
  have harr : (s.cur.counts s.cyc).arrival = some { a with counted := some s.cyc } := by
    rw [Core.counts, ha]; rfl
  exact ⟨(congrArg (fun k : Core => k.arrival) hc).trans harr, (congrArg (fun k : Core => k.regs) hc :)⟩

/-- Once the decision has come, or under the time-driven drive or before the release, the count of an arrival leaves it. -/
theorem State.countArrival_decided {s : State} (c : Nat) (h : s.driven = true ∨ s.decided ≠ none ∨ s.released = false) :
    (s.countArrival c).decided = s.decided := by
  have hu : s.agrees View.frame (if s.decided.isSome ∧ (s.modCore c (·.counts s.cyc)).rejoins ((s.modCore c (·.counts s.cyc)).core c) then
      (s.modCore c (·.counts s.cyc)).discardOf c else s.modCore c (·.counts s.cyc)) :=
    (State.agrees_refl View.frame s).modCore.when (·.discardOf)
  have hs := State.tryDecide_of_settled (s := if s.decided.isSome ∧ (s.modCore c (·.counts s.cyc)).rejoins ((s.modCore c (·.counts s.cyc)).core c)
      then (s.modCore c (·.counts s.cyc)).discardOf c else s.modCore c (·.counts s.cyc)) (by
    rw [hu.eq State.driven, hu.eq State.decided, hu.eq State.released]; exact h)
  exact (congrArg State.decided hs).trans (hu.eq State.decided)

/-! ### The windows at an exchange-phase arrival (R269, R292) -/

/-- Whether every interval of a core is closed and applied, and no request waits. -/
def Core.quiet (k : Core) : Prop := ∀ e : Fin 32, (k.win[e]).state = 0 ∧ (k.win[e]).applying = false ∧ (k.win[e]).waiting = []

/-- A closed interval in which nothing waits is left as it is. -/
theorem State.rejectWaiting_of_quiet {s : State} {c : Nat} (h : (s.core c).quiet) (e : Fin 32) :
    (s.rejectWaiting c e).closeWindow c e = s.modWin c e fun w => { w with waiting := [] } := by
  obtain ⟨hs, ha, hw⟩ := h e
  have hr : s.rejectWaiting c e = s.modWin c e fun w => { w with waiting := [] } := by
    unfold State.rejectWaiting
    extract_lets w u
    have hl : w.waiting = [] := hw
    rw [hl]; rfl
  have hc : (((s.rejectWaiting c e).core c).win[e]).state = 0 := by
    rw [hr, State.modWin, State.core_modCore_same]
    simpa using hs
  rw [← hr]
  exact if_pos hc

/-- The window that a quiet core's closing leaves is the one it had. -/
theorem State.keeps_quietWin {s : State} {c : Nat} (h : (s.core c).quiet) (e : Fin 32) :
    s.keeps id (s.modWin c e fun w => { w with waiting := [] }) := by
  obtain ⟨-, -, hw⟩ := h e
  refine ⟨rfl, fun d => ?_⟩
  rw [State.modWin, State.core_modCore]
  split
  · next hd =>
    subst hd
    have hset : ({ (s.core d).win[e] with waiting := [] } : Window) = (s.core d).win[e] := by rw [← hw]
    rw [hset]
    simp
  · rfl

/-- The arrival of a core of which every interval is closed and applied closes none. -/
theorem State.keeps_closeAtArrival {s : State} {c : Nat} (h : (s.core c).quiet) : s.keeps id (s.closeAtArrival c) := by
  unfold State.closeAtArrival
  extract_lets ws hold
  refine List.foldlRecOn _ _ (s.keeps_refl id) fun t ht e _ => ?_
  have hq : (t.core c).quiet := by rw [show t.core c = s.core c from ht.2 c]; exact h
  split
  · exact ht
  · rw [State.rejectWaiting_of_quiet hq]
    exact ht.trans (State.keeps_quietWin hq e)

/-- Whether an arrival counts rests on what such a change keeps. -/
theorem State.keeps.mayCount {s t : State} (h : s.keeps id t) (c : Nat) : t.mayCount c = s.mayCount c := by
  have ht : t = { s with cores := t.cores, agenda := t.agenda } := by rw [← h.1]
  have hc : ({ s with cores := t.cores, agenda := t.agenda } : State).core c = s.core c := by rw [← ht]; exact h.2 c
  rw [ht]
  unfold State.mayCount State.phaseOps State.updatesIn State.countOf
  rw [hc]

/-- With every interval closed and applied an arrival counts once its operations and its updates are done. -/
theorem State.mayCount_iff_of_quiet {s : State} {c : Nat} (h : (s.core c).quiet) :
    s.mayCount c = true ↔ s.phaseOps c = false ∧ s.updatesIn c = true := by
  have hw : ((s.core c).win.toList.all fun w => w.state == 0 && !w.applying) = true := by
    rw [List.all_eq_true]
    intro w hw
    obtain ⟨i, hi, rfl⟩ := List.getElem_of_mem hw
    obtain ⟨hs, ha, -⟩ := h ⟨i, by simpa using hi⟩
    simpa using ⟨hs, ha⟩
  unfold State.mayCount
  rw [hw]
  simp

/-! ### The obligation -/

section Arrivals

variable {s : State} {a : Arrival} (ha : s.cur.arrival = some a)
include ha

/-- An arrival that has counted, which no task end forces, is done with. -/
theorem State.execArrivalCount_of_counted (hc : a.counted ≠ none) : exec .arrivalCount s = .next s := by
  show execArrivalCount s = _
  unfold execArrivalCount
  rw [ha]
  exact congrArg Host.Outcome.next (if_pos (Option.isSome_iff_ne_none.mpr hc))

variable (hc : a.counted = none) (hf : a.forced = false)
include hc hf

/-- In a compute phase the arrival counts. -/
theorem State.execArrivalCount_of_compute (he : s.exchange s.focus.core.val = false) :
    exec .arrivalCount s = .next (s.countArrival s.focus.core.val) := by
  show execArrivalCount s = _
  unfold execArrivalCount
  rw [ha]
  simp [hc, hf, he]

/-- In an exchange phase the intervals close, and the arrival counts now or is looked at again in the next cycle. -/
theorem State.execArrivalCount_of_exchange (he : s.exchange s.focus.core.val = true) :
    exec .arrivalCount s = .next (if (s.closeAtArrival s.focus.core.val).mayCount s.focus.core.val then
        (s.closeAtArrival s.focus.core.val).countArrival s.focus.core.val
      else (s.closeAtArrival s.focus.core.val).at s.focus.core.val ((s.closeAtArrival s.focus.core.val).cyc + 1) pEnd
        (.run (s.closeAtArrival s.focus.core.val).focus .arrivalCount)) := by
  show execArrivalCount s = _
  unfold execArrivalCount
  rw [ha]
  simp [hc, hf, he]

omit hc hf in
/-- Once every other core has arrived, the count of an arrival in a compute phase decides. -/
theorem State.countArrival_decides (hd : s.driven = false) (hn : s.decided = none) (hr : s.released = true)
    (hall : ∀ x ∈ s.awaited, x ≠ s.focus.core.val → (s.core x).arrived = true) (hp : s.count.getLsbD 0 = false ∨ s.pages = []) :
    (s.countArrival s.focus.core.val).decided = some s.cyc ∧
    (⟨3 * (s.cyc + 32), pBoundary, 0, .run Focus.reset .powerAdmission⟩ : Item) ∈ (s.countArrival s.focus.core.val).agenda := by
  have harr : ((s.core s.focus.core.val).counts s.cyc).arrived = true := by
    unfold Core.counts Core.arrived
    rw [show (s.core s.focus.core.val).arrival = some a from ha]
    rfl
  rw [State.countArrival_of_all harr hd hn hr hall hp]
  have h := State.decideNow_spec (s.modCore s.focus.core.val (·.counts s.cyc))
  exact ⟨h.1, h.2.1⟩

/-- With every interval closed and applied, an exchange-phase arrival counts once its operations and its updates are done. -/
theorem State.arrivalCount_of_quiet (he : s.exchange s.focus.core.val = true) (hq : (s.core s.focus.core.val).quiet) :
    (s.phaseOps s.focus.core.val = false → s.updatesIn s.focus.core.val = true →
      ∃ t, exec .arrivalCount s = .next t ∧ t.cur.arrival = some { a with counted := some s.cyc }) ∧
    ((s.phaseOps s.focus.core.val = true ∨ s.updatesIn s.focus.core.val = false) → ∃ t, exec .arrivalCount s = .next t ∧ t.cur.arrival = some a ∧
      (⟨3 * (s.cyc + 1), pEnd, s.focus.core.val, .run s.focus .arrivalCount⟩ : Item) ∈ t.agenda) := by
  have hk := State.keeps_closeAtArrival hq
  have hm := hk.mayCount s.focus.core.val
  rw [State.execArrivalCount_of_exchange ha hc hf he]
  generalize s.closeAtArrival s.focus.core.val = t at hk hm ⊢
  have ht : t = { s with cores := t.cores, agenda := t.agenda } := by rw [← hk.1]
  have hcyc : t.cyc = s.cyc := by rw [ht]; rfl
  have hfoc : t.focus = s.focus := by rw [ht]
  have hcur : t.cur = s.cur := by rw [State.cur, hfoc]; exact hk.2 _
  refine ⟨fun ho hu => ?_, fun h => ?_⟩
  · have hmay : t.mayCount s.focus.core.val = true := hm.trans ((State.mayCount_iff_of_quiet hq).mpr ⟨ho, hu⟩)
    have h := (State.countArrival_cur (s := t) ((congrArg Core.arrival hcur).trans ha)).1
    rw [hfoc, hcyc] at h
    exact ⟨_, congrArg Host.Outcome.next (if_pos hmay), h⟩
  · have hmay : ¬ t.mayCount s.focus.core.val = true := by
      rw [hm, State.mayCount_iff_of_quiet hq]
      rintro ⟨ho, hu⟩
      rcases h with h | h
      · rw [h] at ho; exact Bool.noConfusion ho
      · rw [h] at hu; exact Bool.noConfusion hu
    refine ⟨_, congrArg Host.Outcome.next (if_neg hmay), (congrArg Core.arrival hcur).trans ha, mem_insertItem.mpr (.inl ?_)⟩
    have hmax : max (3 * (t.cyc + 1)) t.now = 3 * (s.cyc + 1) := by
      have hnow : t.now = s.now := by rw [ht]
      unfold State.cyc
      rw [hnow]; omega
    rw [hmax, hfoc]

end Arrivals

/-- Settles O34: the count of an arrival is the core's own record and then the decision, and at the budget or the scheduled boundary
the decision comes with the late cores parked. -/
theorem phasesAreDecided : Obligations.PhasesAreDecided := by
  intro s c decides
  refine ⟨fun ha => ?_, fun a ha hc => State.execArrivalCount_of_counted ha hc, fun a ha hc hf he => ?_, fun a ha hc hf he hw => ?_,
    fun h => ?_, fun hd hn hb hs => ?_, fun h => ?_, fun hd hn hi => ⟨fun ht => ?_, fun ht => ?_⟩⟩
  · show execArrivalCount s = _
    unfold execArrivalCount
    rw [ha]
  · obtain ⟨harr, hregs⟩ := State.countArrival_cur ha
    refine ⟨_, State.execArrivalCount_of_compute ha hc hf he, harr, hregs, fun hd hn hr => ⟨fun hall hp => ?_, ?_⟩, fun h => ?_⟩
    · exact State.countArrival_decides ha hd hn hr hall hp
    · rintro ⟨x, hx, hne, hl⟩
      rw [State.countArrival_of_late hn hx hne hl]
      exact hn
    · exact State.countArrival_decided c h
  · exact State.arrivalCount_of_quiet ha hc hf he hw
  · refine congrArg Host.Outcome.next (if_pos ?_)
    simp only [Bool.or_eq_true, Option.isSome_iff_ne_none, beq_iff_eq, bne_iff_ne]
    tauto
  · have hgo : ¬ (s.driven || s.decided.isSome || s.budget == 0 || s.phStart + s.budget != s.cyc) = true := by simp [hd, hn, hb, hs]
    exact ⟨_, congrArg Host.Outcome.next (if_neg hgo), s.decideLate_spec⟩
  · refine congrArg Host.Outcome.next (if_pos ?_)
    simp only [Bool.or_eq_true, Option.isSome_iff_ne_none, Bool.not_eq_true']
    tauto
  · have hgo : ¬ (!s.driven || s.decided.isSome || !s.disciplined) = true := by simp [hd, hn, hi]
    exact congrArg Host.Outcome.next ((if_neg hgo).trans (if_pos ht))
  · have hgo : ¬ (!s.driven || s.decided.isSome || !s.disciplined) = true := by simp [hd, hn, hi]
    exact ⟨_, congrArg Host.Outcome.next ((if_neg hgo).trans (if_neg (Nat.not_lt.mpr ht))), s.decideLate_spec⟩

end Sys2Proof.Machine

/-! PROOFS. The state after reset and the words that the chapters write out (O2, O57). -/

namespace Sys2Proof.Machine

open Sys2Proof

/-- Reset lists no core: each is as reset leaves it. -/
theorem State.reset_core (c : Nat) : State.reset.core c = Core.reset := rfl

/-- Every register but RNGS is 0. -/
theorem Regs.reset_zero : (∀ i : Fin 32, Regs.reset.s[i] = 0 ∧ Regs.reset.v[i] = 0) ∧
    ∀ i : Fin 8, Regs.reset.k[i] = 0 ∧ Regs.reset.q[i] = false ∧ Regs.reset.mp[i] = 0 := by
  simp [Regs.reset]

/-- Every handle is complete, and every window is invalid. -/
theorem Core.reset_tables : (∀ i : Fin 16, Core.reset.handles[i] = ⟨0, 0, 0, false, 0⟩) ∧ ∀ e : Fin 32, (Core.reset.win[e]).valid = false := by
  constructor
  · simp [Core.reset, Handle.reset]
  · simp [Core.reset, Window.reset, Window.valid]

/-- Empty memories are in canonical form. -/
theorem State.reset_memWf : State.reset.memWf := ⟨rfl, rfl, fun _ => ⟨rfl, rfl, rfl, rfl, rfl⟩⟩

/-- Settles O57: the record of reset, with its tables entry by entry, and the canonical form of empty memories. -/
theorem resetLeaves : Obligations.ResetLeaves := by
  refine ⟨⟨rfl, rfl, rfl, rfl, rfl, rfl, rfl, rfl, rfl, rfl, rfl, rfl, fun c => ?_⟩, State.reset_memWf⟩
  rw [State.reset_core]
  obtain ⟨hs, hk⟩ := Regs.reset_zero
  obtain ⟨hh, hw⟩ := Core.reset_tables
  exact ⟨rfl, rfl, rfl, rfl, rfl, rfl, rfl, rfl, hs, hk, hh, hw, rfl, rfl, rfl, rfl, rfl, rfl, rfl, rfl⟩

/-- Settles O2: each word is decoded as it stands. -/
theorem writtenWordsDecode : Obligations.WrittenWordsDecode := by
  refine ⟨?_, ?_, ?_, ?_, ?_, ?_, ?_, ?_, ?_⟩ <;> decide +kernel

end Sys2Proof.Machine

/-! PROOFS. The release of reset and the steps of power-on (O27). -/

namespace Sys2Proof.Machine

open Sys2Proof

/-! ### Steps that follow -/

/-- The next step of power-on is pending, in a later cycle. -/
theorem State.bringUp_placed (s : State) (n : Nat) :
    ∃ x ∈ (s.bringUp n).agenda, x.ev = .run (argFocus 0 n) .resetRelease ∧ 3 * (s.cyc + 1) ≤ x.tick := by
  refine ⟨⟨max (3 * (s.cyc + 1 + Config.bringUpCycles n)) s.now, pEnd, 0, .run (argFocus 0 n) .resetRelease⟩, mem_insertItem.mpr (.inl rfl), rfl, ?_⟩
  dsimp only
  omega

/-! ### The debts (R255, R256) -/

section Adds

variable {r s t : State}

theorem State.adds.core (h : s.adds t) (c : Nat) : t.core c = s.core c := by rw [h.eq]; rfl

theorem State.adds.now (h : s.adds t) : t.now = s.now := by rw [h.eq]

/-- Whatever is done for one entry of a list stays posted. -/
theorem State.adds.foldl_mem {α : Type} {f : State → α → State} {xs : List α} {x : α} (hf : ∀ (t : State) x, t.adds (f t x)) (hx : x ∈ xs) (s : State) :
    ∃ u, s.adds u ∧ (f u x).adds (xs.foldl f s) := by
  induction xs generalizing s with
  | nil => exact absurd hx List.not_mem_nil
  | cons y xs ih =>
    rcases List.mem_cons.mp hx with rfl | hx
    · exact ⟨s, State.adds_refl s, (State.adds_refl _).foldl fun t x ht => ht.trans (hf t x)⟩
    · obtain ⟨u, hu, hr⟩ := ih hx (f s y)
      exact ⟨u, (hf s y).trans hu, hr⟩

end Adds

/-- The two debts of a pseudo-channel begin to grow. -/
def State.startDebt (c : Nat) (s : State) (p : Nat) : State :=
  (s.post ⟨s.now + (s.core c).ch.trefi, pTick, c, .run (argFocus c p) .refreshDebtIncrement⟩).post
    ⟨s.now + (s.core c).ch.tmnti, pTick, c, .run (argFocus c p) .maintenanceDebtIncrement⟩

theorem State.startDebts_eq (s : State) :
    s.startDebts = (List.range 256).foldl (fun (s : State) c => ([0, 1] : List Nat).foldl (State.startDebt c) s) s := rfl

theorem State.adds_startDebt (c : Nat) (s : State) (p : Nat) : s.adds (s.startDebt c p) := (State.adds_refl s).post.post

theorem State.adds_startDebtsOf (s : State) (c : Nat) : s.adds (([0, 1] : List Nat).foldl (State.startDebt c) s) :=
  (State.adds_refl s).foldl fun t p ht => ht.trans (t.adds_startDebt c p)

theorem State.adds_startDebts (s : State) : s.adds s.startDebts := by
  rw [State.startDebts_eq]
  exact (State.adds_refl s).foldl fun t c ht => ht.trans (t.adds_startDebtsOf c)

/-- The increments of every pseudo-channel are pending. -/
theorem State.mem_startDebts (s : State) {c p : Nat} (hc : c < 256) (hp : p < 2) :
    (⟨s.now + (s.core c).ch.trefi, pTick, c, .run (argFocus c p) .refreshDebtIncrement⟩ : Item) ∈ s.startDebts.agenda ∧
    (⟨s.now + (s.core c).ch.tmnti, pTick, c, .run (argFocus c p) .maintenanceDebtIncrement⟩ : Item) ∈ s.startDebts.agenda := by
  have hp : p ∈ ([0, 1] : List Nat) := by interval_cases p <;> decide
  obtain ⟨u, hu, hr⟩ := State.adds.foldl_mem State.adds_startDebtsOf (List.mem_range.mpr hc) s
  rw [← State.startDebts_eq] at hr
  obtain ⟨w, hw, hr'⟩ := State.adds.foldl_mem (State.adds_startDebt c) hp u
  have hcore : w.core c = s.core c := (hw.core c).trans (hu.core c)
  have hnow : w.now = s.now := hw.now.trans hu.now
  have hall := fun x hx => hr.mem x (hr'.mem x hx)
  rw [← hcore, ← hnow]
  exact ⟨hall _ (mem_insertItem.mpr (.inr (mem_insertItem.mpr (.inl rfl)))), hall _ (mem_insertItem.mpr (.inl rfl))⟩

/-! ### Training begins (R442, R443) -/

/-- Whether the routine of a channel stands at its begin. -/
def Core.inTraining (k : Core) : Prop :=
  k.phy.train = some ⟨.read, 0, false, false, []⟩ ∧ k.phy.ctl.getLsbD 0 = true ∧ (Sp.get Tte.reset k.tt 0).word = 0x000003FC00000031 ∧
    ∀ (p : Fin 2) (l : Fin 38), (k.phy.lanes[p][l]).rnew = 64 ∧ (k.phy.lanes[p][l]).wnew = 64

/-- Each lane of both pseudo-channels is changed in the same way. -/
theorem Core.allLanes_lane (k : Core) (f : Nat → Lane → Lane) (p : Fin 2) (l : Fin 38) :
    (k.allLanes f).phy.lanes[p][l] = f l.val k.phy.lanes[p][l] := by
  unfold Core.allLanes Core.modLanes
  fin_cases p <;> simp

theorem State.inTraining_beginTraining (s : State) (c : Nat) : ((s.beginTraining c).core c).inTraining := by
  have hbit : ∀ r : W64, (setField r 0 1 1).getLsbD 0 = true := fun r => by rw [setField_getLsbD r 1 0 (by omega)]; rfl
  unfold State.beginTraining
  rw [State.core_at, State.core_modCore_same]
  refine ⟨rfl, hbit _, by simp only [Sp.get_set_same]; rfl, fun p l => ?_⟩
  have hl := Core.allLanes_lane (s.core c) (fun _ l => { l with rnew := 64, wnew := 64, run := 0, eye := (0, 0), readEye := (0, 0) }) p l
  exact ⟨congrArg Lane.rnew hl, congrArg Lane.wnew hl⟩

/-- The step of the routine that is pending at its begin. -/
def trainItem (now c : Nat) : Item := ⟨max (3 * (now / 3)) now, pEnd, c, .train⟩

/-- In each core that is reached the routine stands at its begin, with its first step pending, and stays there. -/
theorem State.foldl_beginTraining (xs : List Nat) (s : State) (c : Nat)
    (h : c ∈ xs ∨ (s.core c).inTraining ∧ trainItem s.now c ∈ s.agenda) :
    (xs.foldl State.beginTraining s).bootst = s.bootst ∧ ((xs.foldl State.beginTraining s).core c).inTraining ∧
      trainItem s.now c ∈ (xs.foldl State.beginTraining s).agenda := by
  induction xs generalizing s with
  | nil => exact ⟨rfl, h.resolve_left List.not_mem_nil⟩
  | cons x xs ih =>
    refine ih (s.beginTraining x) ?_
    by_cases hx : c = x
    · subst hx
      exact .inr ⟨s.inTraining_beginTraining c, mem_insertItem.mpr (.inl rfl)⟩
    · refine (h.imp (fun hm => (List.mem_cons.mp hm).resolve_left hx) fun ⟨hk, hi⟩ => ⟨?_, mem_insertItem.mpr (.inr hi)⟩)
      rw [State.beginTraining, State.core_at, State.core_modCore_other s _ hx]
      exact hk

/-! ### Bits of BOOTST and PERRST (R348) -/

/-- The bits of a sum of different powers of two. -/
theorem testBit_sum_powers (f : Nat → Bool) (m n b : Nat) :
    ((List.range n).map fun k => if f k then 2 ^ (m + k) else 0).sum < 2 ^ (m + n) ∧
    (((List.range n).map fun k => if f k then 2 ^ (m + k) else 0).sum.testBit b = true ↔ m ≤ b ∧ b < m + n ∧ f (b - m) = true) := by
  induction n with
  | zero => simp; omega
  | succ n ih =>
    obtain ⟨hlt, hbit⟩ := ih
    rw [List.range_succ, List.map_append, List.sum_append, List.map_singleton, List.sum_singleton]
    generalize ((List.range n).map fun k => if f k then 2 ^ (m + k) else 0).sum = x at hlt hbit
    have hpow : 2 ^ (m + (n + 1)) = 2 * 2 ^ (m + n) := by rw [← Nat.add_assoc, Nat.pow_succ, Nat.mul_comm]
    cases hf : f n with
    | false =>
      refine ⟨by simp; omega, ?_⟩
      have hn : b = m + n → f (b - m) = false := by rintro rfl; rwa [Nat.add_sub_cancel_left]
      simp only [Bool.false_eq_true, if_false, Nat.add_zero, hbit]
      grind
    | true =>
      refine ⟨by simp; omega, ?_⟩
      have hn : b = m + n → f (b - m) = true := by rintro rfl; rwa [Nat.add_sub_cancel_left]
      have hor : x + 2 ^ (m + n) = 2 ^ (m + n) * 1 ||| x := by rw [← Nat.two_pow_add_eq_or_of_lt hlt]; omega
      simp only [if_true]
      rw [hor, Nat.mul_one, Nat.testBit_or, Nat.testBit_two_pow, Bool.or_eq_true, decide_eq_true_iff, hbit]
      grind

/-- The bits of the stacks whose firmware verifies. -/
theorem getLsbD_bootStacks (b : Nat) : bootStacks.getLsbD b = (decide (2 ≤ b ∧ b < 10) && stackFirmwareOk (b - 2)) := by
  obtain ⟨hlt, hbit⟩ := testBit_sum_powers stackFirmwareOk 2 8 b
  unfold bootStacks
  rw [BitVec.getLsbD_ofNat, Bool.eq_iff_iff, Bool.and_eq_true, hbit]
  simp only [Bool.and_eq_true, decide_eq_true_eq]
  constructor
  · rintro ⟨-, h2, h10, hok⟩
    exact ⟨⟨h2, h10⟩, hok⟩
  · rintro ⟨⟨h2, h10⟩, hok⟩
    exact ⟨by omega, h2, h10, hok⟩

/-- Marks of PERRST for some stacks. -/
def markStacks (r : W64) (ks : List Nat) : W64 := ks.foldl (fun r k => setField r (35 + k) 1 1) r

theorem State.foldl_markStacks (ks : List Nat) (s : State) :
    ks.foldl (fun (s : State) k => { s with perrst := setField s.perrst (35 + k) 1 1 }) s = { s with perrst := markStacks s.perrst ks } := by
  induction ks generalizing s with
  | nil => rfl
  | cons k ks ih => exact ih _

theorem getLsbD_markStacks {ks : List Nat} (r : W64) (hks : ∀ k ∈ ks, k < 8) {k : Nat} :
    (markStacks r ks).getLsbD (35 + k) = (decide (k ∈ ks) || r.getLsbD (35 + k)) := by
  induction ks generalizing r with
  | nil => simp [markStacks]
  | cons j ks ih =>
    have hj := hks j (List.mem_cons_self ..)
    refine (ih _ fun k hk => hks k (List.mem_cons_of_mem _ hk)).trans ?_
    rw [setField_getLsbD r 1 _ (by omega)]
    by_cases h : k = j
    · subst h; simp
    · rw [if_neg (by omega)]; simp [h]

/-! ### Signatures (R348) -/

/-- The two halves of a trailer of 96 bytes, byte by byte. -/
theorem trailer_halves {image : List Byte} (h : 96 ≤ image.length) :
    (image.drop (image.length - 96)).take 48 = (List.range 48).map (fun i => image.getD (image.length - 96 + i) 0) ∧
    (image.drop (image.length - 96)).drop 48 = (List.range 48).map (fun i => image.getD (image.length - 48 + i) 0) := by
  constructor
  · refine List.ext_getElem (by simp; omega) fun i _ hi => ?_
    have hi : i < 48 := by simpa using hi
    rw [List.getElem_take, List.getElem_drop, List.getElem_map, List.getElem_range, List.getD_eq_getElem]
  · refine List.ext_getElem (by simp; omega) fun i _ hi => ?_
    have hi : i < 48 := by simpa using hi
    rw [List.getElem_drop, List.getElem_drop, List.getElem_map, List.getElem_range, List.getD_eq_getElem _ _ (by omega)]
    congr 1
    omega

/-- An image verifies when its last 96 bytes are a signature of the others by the key whose digest is fused. -/
theorem imageVerifies_iff (image : List Byte) : imageVerifies image = true ↔
    96 ≤ image.length ∧ Config.rootKey.length = 96 ∧ sha384 Config.rootKey = Config.fusedKeyDigest ∧
      ecVerify (ofBe (Config.rootKey.take 48), ofBe (Config.rootKey.drop 48)) (ofBe (sha384 (image.take (image.length - 96))))
        (ofBe ((List.range 48).map fun i => image.getD (image.length - 96 + i) 0))
        (ofBe ((List.range 48).map fun i => image.getD (image.length - 48 + i) 0)) = true := by
  unfold imageVerifies signedPart
  simp only [Bool.and_eq_true, decide_eq_true_eq, beq_iff_eq, and_assoc]
  refine and_congr_right fun h => ?_
  obtain ⟨hr, hx⟩ := trailer_halves h
  rw [hr, hx]

/-! ### Stations (R347) -/

theorem assignedDevice_ne : assignedDevice ≠ 0x3FF := by
  unfold assignedDevice
  split
  · decide
  · assumption

/-- Without a trained station there is no identifier. -/
theorem linkedDevice_iff (up : BitVec 16) : (if up = 0 then 0x3FF else assignedDevice) = 0x3FF ↔ up = 0 := by
  split
  · next h0 => exact ⟨fun _ => h0, fun _ => rfl⟩
  · next h0 => exact ⟨fun h => absurd h assignedDevice_ne, fun h => absurd h h0⟩

/-- Whether every station that FABCTL enables has trained, and no other. -/
theorem State.trainStations_iff (s : State) : s.trainStations.setWidth 64 = (s.fabctl >>> 1) &&& 0xFFFF ↔
    ∀ i : Fin 16, s.trainStations.getLsbD i = s.fabctl.getLsbD (1 + i) := by
  have hmask : ∀ i, (0xFFFF : W64).getLsbD i = decide (i < 16) := fun i => by
    rw [show (0xFFFF : W64) = BitVec.ofNat 64 (2 ^ 16 - 1) from rfl, BitVec.getLsbD_ofNat, Nat.testBit_two_pow_sub_one]
    simp
    omega
  have hbit : ∀ i, (s.fabctl >>> 1 &&& 0xFFFF).getLsbD i = (s.fabctl.getLsbD (1 + i) && decide (i < 16)) := fun i => by
    rw [BitVec.getLsbD_and, BitVec.getLsbD_ushiftRight, hmask]
  constructor
  · intro h i
    have hi := congrArg (fun x : W64 => x.getLsbD i.val) h
    rw [BitVec.getLsbD_setWidth, hbit] at hi
    simpa [i.isLt, show i.val < 64 by omega] using hi
  · intro h
    refine BitVec.eq_of_getLsbD_eq fun i hi => ?_
    rw [BitVec.getLsbD_setWidth, hbit]
    by_cases h16 : i < 16
    · simpa [h16, hi] using h ⟨i, h16⟩
    · simp [h16, BitVec.getLsbD_of_ge _ _ (Nat.le_of_not_lt h16)]

/-! ### The obligation -/

/-- The stacks whose firmware does not verify. -/
def failedStacks : List Nat := (List.range 8).filter fun k => !stackFirmwareOk k

theorem mem_failedStacks {k : Nat} (hk : k < 8) : k ∈ failedStacks ↔ stackFirmwareOk k = false := by
  simp [failedStacks, hk]

/-- Cycle 0 of phase 0 (R32). -/
def State.release (s : State) : State := { s with released := true, phStart := s.cyc, creditAt := s.cyc, draw := s.idleDraw }

/-! The steps, one by one. -/

section Steps

variable {s : State}

theorem State.resetRelease_release (h : s.focus.arg = 0) :
    exec .resetRelease s = .next ((s.release.startDebts.at 0 s.cyc pEnd .decide).bringUp 1) := by
  show execResetRelease s = _
  unfold execResetRelease
  rw [h]
  rfl

theorem State.resetRelease_rom (h : s.focus.arg = 1) : exec .resetRelease s = .next (if romDigestOk then (s.booted 1).bringUp 2 else s) := by
  show execResetRelease s = _
  unfold execResetRelease
  rw [h]
  rfl

theorem State.resetRelease_training (h : s.focus.arg = 2) : exec .resetRelease s = .next ((List.range 256).foldl State.beginTraining s) := by
  show execResetRelease s = _
  unfold execResetRelease
  rw [h]
  rfl

theorem State.resetRelease_stacks (h : s.focus.arg = 3) :
    exec .resetRelease s = .next (({ s with perrst := markStacks s.perrst failedStacks }.booted bootStacks).bringUp 4) := by
  show execResetRelease s = _
  unfold execResetRelease
  rw [h, ← State.foldl_markStacks]
  rfl

theorem State.resetRelease_links (h : s.focus.arg = 4) : exec .resetRelease s =
    .next (if s.trainStations.setWidth 64 = (s.fabctl >>> 1) &&& 0xFFFF then
        ({ s with trained := s.trainStations, device := if s.trainStations = 0 then 0x3FF else assignedDevice }.booted 0x400).bringUp 5
      else s) := by
  show execResetRelease s = _
  unfold execResetRelease
  rw [h]
  rfl

theorem State.resetRelease_time (h : s.focus.arg = 5) : exec .resetRelease s = .next { s with ptp := true, bootst := s.bootst ||| 0x800 } := by
  show execResetRelease s = _
  unfold execResetRelease
  rw [h]
  rfl

theorem State.resetRelease_done (h : 5 < s.focus.arg) : exec .resetRelease s = .next s := by
  show execResetRelease s = _
  unfold execResetRelease
  obtain ⟨n, hn⟩ := Nat.exists_eq_add_of_lt h
  rw [hn, Nat.add_right_comm, Nat.add_comm]
  rfl

end Steps

/-- Step 3 sets the bits of the stacks that verify, in BOOTST, and of the others in PERRST. -/
theorem stackBits (boot perr : W64) :
    (∀ b, (b < 2 ∨ 10 ≤ b) → (boot ||| bootStacks).getLsbD b = boot.getLsbD b) ∧
    ∀ k, k < 8 → (stackFirmwareOk k = true → (boot ||| bootStacks).getLsbD (2 + k) = true ∧
        (markStacks perr failedStacks).getLsbD (35 + k) = perr.getLsbD (35 + k)) ∧
      (stackFirmwareOk k = false → (boot ||| bootStacks).getLsbD (2 + k) = boot.getLsbD (2 + k) ∧
        (markStacks perr failedStacks).getLsbD (35 + k) = true) := by
  have hfail : ∀ k ∈ failedStacks, k < 8 := fun k hk => List.mem_range.mp (List.mem_of_mem_filter hk)
  refine ⟨fun b hb => ?_, fun k hk => ⟨fun hok => ?_, fun hok => ?_⟩⟩
  · rw [BitVec.getLsbD_or, getLsbD_bootStacks, decide_eq_false (by omega), Bool.false_and, Bool.or_false]
  all_goals
    rw [BitVec.getLsbD_or, getLsbD_bootStacks, getLsbD_markStacks perr hfail, Nat.add_sub_cancel_left, hok, decide_eq_true (by omega)]
    simp [mem_failedStacks hk, hok]

/-- Settles O27: each step of power-on as the focus argument selects it. -/
theorem powerOnTakesItsSteps : Obligations.PowerOnTakesItsSteps := by
  intro s placed
  refine ⟨fun h => ?_, fun h => ?_, fun h => ?_, fun h => ?_, fun h => ?_, State.resetRelease_time, State.resetRelease_done⟩
  · have hadds := s.release.adds_startDebts
    have hmem := fun c p (hc : c < 256) (hp : p < 2) => s.release.mem_startDebts hc hp
    have hexec := State.resetRelease_release h
    generalize s.release.startDebts = u at hadds hmem hexec
    have hplaced := State.bringUp_placed (u.at 0 s.cyc pEnd .decide) 1
    rw [show (u.at 0 s.cyc pEnd .decide).cyc = s.cyc from congrArg (· / 3) hadds.now] at hplaced
    refine ⟨_, hexec, congrArg State.released hadds.eq, congrArg State.phStart hadds.eq, (congrArg State.count hadds.eq :),
      (congrArg State.cores hadds.eq :), hplaced, fun c p hc hp => ?_⟩
    obtain ⟨href, hmnt⟩ := hmem c p hc hp
    exact ⟨mem_insertItem.mpr (.inr (mem_insertItem.mpr (.inr href))), mem_insertItem.mpr (.inr (mem_insertItem.mpr (.inr hmnt)))⟩
  · have hok : romDigestOk = true ↔ sha384 Config.romImage = Config.fusedRomDigest := beq_iff_eq
    refine ⟨_, State.resetRelease_rom h, fun hne => if_neg (mt hok.mp hne), fun he => ?_⟩
    rw [if_pos (hok.mpr he)]
    exact ⟨rfl, State.bringUp_placed (s.booted 1) 2⟩
  · have hall := fun c (hc : c < 256) => State.foldl_beginTraining (List.range 256) s c (.inl (List.mem_range.mpr hc))
    refine ⟨_, State.resetRelease_training h, (hall 0 (by decide)).1, fun c hc => ?_⟩
    obtain ⟨-, ⟨htrain, hctl, htt, hlanes⟩, hitem⟩ := hall c hc
    exact ⟨htrain, hctl, htt, hlanes, hitem⟩
  · obtain ⟨hboot, hstack⟩ := stackBits s.bootst s.perrst
    refine ⟨_, State.resetRelease_stacks h, rfl, State.bringUp_placed ({ s with perrst := markStacks s.perrst failedStacks }.booted bootStacks) 4,
      hboot, fun k hk => ?_⟩
    intro image key r x ok
    have hok : stackFirmwareOk k = true ↔ ok := imageVerifies_iff _
    exact ⟨fun h => (hstack k hk).1 (hok.mpr h), fun h => (hstack k hk).2 (Bool.eq_false_iff.mpr (mt hok.mp h))⟩
  · have hexec := State.resetRelease_links h
    have hdev := linkedDevice_iff s.trainStations
    generalize (if s.trainStations = 0 then 0x3FF else assignedDevice) = device at hexec hdev
    refine ⟨_, hexec, fun hall => ?_, fun ⟨i, hi⟩ => if_neg fun he => hi (s.trainStations_iff.mp he i)⟩
    rw [if_pos (s.trainStations_iff.mpr hall)]
    exact ⟨rfl, rfl, State.bringUp_placed ({ s with trained := s.trainStations, device := device }.booted 0x400) 5, hdev⟩

end Sys2Proof.Machine

/-! PROOFS. WRREG, RDREG and the registers that a read clears (O37). -/

namespace Sys2Proof.Machine

open Sys2Proof

/-! ### The command in a slot (R338, R350) -/

theorem getLsbD_zero_ofNat (x : Nat) : (BitVec.ofNat 64 x).getLsbD 0 = decide (x % 2 = 1) := by
  rw [BitVec.getLsbD_ofNat, Nat.testBit_zero]
  rfl

/-- The read of a register by its code. -/
theorem rdregOf_eq (code : Nat) : rdregOf code = if code = 0x40 then .werrRead else if code = 0x42 then .cerrstRead
    else if code = 0x43 then .perrstRead else if code = 0x44 then .eventQueueRead else .rdreg := by
  unfold rdregOf
  split <;> simp_all

/-- The write of a register by its code. -/
theorem wrregOf_eq (driven : Bool) (code x : Nat) :
    wrregOf driven code x = if code = 1 ∧ (BitVec.ofNat 64 x).getLsbD 0 = true ∧ driven = false then .cadctlDriveArm
      else if code = 0x20 then .wrrwWrite else .wrreg := by
  unfold wrregOf
  simp only [getLsbD_zero_ofNat, decide_eq_true_eq, Bool.not_eq_true']

section Registers

variable {s : State}

/-! ### RDREG -/

theorem State.rdreg_of_some {x : W64} (hl : s.cmdLen s.slotArg = 8) (h : s.register s.regCode s.regIndex = some x) :
    exec .rdreg s = .next (s.replyWord s.slotArg x) := by
  show execRdreg s = _
  unfold execRdreg
  rw [h]
  exact congrArg Host.Outcome.next (if_neg (not_not_intro hl))

theorem State.rdreg_of_none (hl : s.cmdLen s.slotArg = 8) (h : s.register s.regCode s.regIndex = none) :
    exec .rdreg s = .next (s.finish s.slotArg 3) := by
  show execRdreg s = _
  unfold execRdreg
  rw [h]
  exact congrArg Host.Outcome.next (if_neg (not_not_intro hl))

/-- A code that R350 does not list names no register. -/
theorem State.register_of_unlisted {code : Nat} (i : Nat)
    (h : code ∉ [1, 2, 3, 0x10, 0x11, 0x12, 0x20, 0x21, 0x22, 0x23, 0x30, 0x31, 0x40, 0x41, 0x42, 0x43, 0x44, 0x45, 0x46, 0x47, 0x48, 0x50, 0x51]) :
    s.register code i = none := by
  unfold State.register
  split <;> simp at h ⊢

/-! ### The reads that clear (R293, R356-R358) -/

theorem getLsbD_clearCerrst (x : W64) (b : Nat) :
    (setField (setField x 0 32 0) 38 1 0).getLsbD b = (x.getLsbD b && decide (32 ≤ b ∧ b ≠ 38)) := by
  rw [setField_getLsbD _ _ _ (by omega), setField_getLsbD _ _ _ (by omega)]
  simp only [Nat.zero_testBit]
  split
  · rw [decide_eq_false (by omega), Bool.and_false]
  · split
    · rw [decide_eq_false (by omega), Bool.and_false]
    · rw [decide_eq_true (by omega), Bool.and_true]

theorem getLsbD_clearPerrst (x : W64) (b : Nat) :
    (setField (setField x 0 16 0) 32 2 0).getLsbD b = (x.getLsbD b && decide (16 ≤ b ∧ b ≠ 32 ∧ b ≠ 33)) := by
  rw [setField_getLsbD _ _ _ (by omega), setField_getLsbD _ _ _ (by omega)]
  simp only [Nat.zero_testBit]
  split
  · rw [decide_eq_false (by omega), Bool.and_false]
  · split
    · rw [decide_eq_false (by omega), Bool.and_false]
    · rw [decide_eq_true (by omega), Bool.and_true]

/-! ### WRREG -/

theorem State.wrreg_of_writeReg {st : Nat} {t : State} (hl : s.cmdLen s.slotArg = 16)
    (h : s.writeReg s.regCode s.regIndex s.regValue = (st, t)) : exec .wrreg s = .next (t.finish s.slotArg st) := by
  show execWrreg s = _
  unfold execWrreg
  rw [h]
  exact congrArg Host.Outcome.next (if_neg (not_not_intro hl))

theorem State.writeReg_of_unlisted {code : Nat} (i : Nat) (v : W64)
    (h : code ∉ [1, 2, 3, 0x10, 0x11, 0x12, 0x20, 0x21, 0x22, 0x23, 0x30, 0x31]) : s.writeReg code i v = (3, s) := by
  unfold State.writeReg
  split <;> simp at h ⊢

theorem State.writeReg_cad {code : Nat} (i : Nat) (v : W64) (h : code ∈ [1, 2, 3]) : s.writeReg code i v = s.writeCad code v := by
  simp only [List.mem_cons, List.not_mem_nil, or_false] at h
  rcases h with rfl | rfl | rfl <;> rfl

/-- The first timing register stores every bit. -/
theorem State.writeTim_zero {c : Nat} (v : W64) (hc : c < 256) :
    s.writeTim c 0 v = (1, s.modCore c fun k => { k with ch := { k.ch with timNew := k.ch.timNew.set 0 v } }) := by
  have hmask : v &&& timMask 0 = v := BitVec.and_allOnes
  have hint : ¬ (((0 : Fin 3) = 1 ∧ bits v.toNat 48 16 = 0) ∨ ((0 : Fin 3) = 2 ∧ bits v.toNat 16 16 = 0)) := by
    rintro (⟨h, -⟩ | ⟨h, -⟩) <;> exact absurd h (by decide)
  unfold State.writeTim
  rw [if_neg hint, if_neg (Nat.not_le.mpr hc), hmask]
  rfl

theorem getLsbD_cadctl (v : W64) : (v &&& 0x3FFFFF).getLsbD 0 = v.getLsbD 0 := by
  rw [BitVec.getLsbD_and]
  exact Bool.and_true _

/-- Without an arming that waits, a write of CADCTL is judged by its drive bit. -/
theorem State.writeCad_ctl {v : W64} (ha : s.arming = none) : s.writeCad 1 v =
    if v.getLsbD 0 = true ∧ (s.needsArmtd = true ∨ (s.driven = true ∧ badSchedule (v &&& 0x3FFFFF) s.cadNew.tper = true)) then (6, s)
    else (1, { s with cadNew := { s.cadNew with ctl := v &&& 0x3FFFFF } }) := by
  have h5 : ¬ s.arming.isSome = true := by rw [ha]; exact Bool.noConfusion
  rw [← getLsbD_cadctl v]
  exact if_neg h5

theorem State.writeCad_base (v : W64) (ha : s.arming = none) : s.writeCad 2 v = (1, { s with
    cadNew := { s.cadNew with tbase := v }
    cad := if s.driven then s.cad else { s.cad with tbase := v, tper := s.cadNew.tper } }) := by
  have h5 : ¬ s.arming.isSome = true := by rw [ha]; exact Bool.noConfusion
  exact if_neg h5

/-- The station map takes the entries of the fabric's devices, each one of its stations. -/
theorem State.wrreg_stmap (hl : s.cmdLen s.slotArg = 16) (hc : s.regCode = 0x31) :
    exec .wrreg s = .next (if 1024 ≤ s.regIndex then s.finish s.slotArg 3 else if 15 < s.regValue.toNat then s.finish s.slotArg 6
      else { s with stmap := Sp.put s.regIndex (s.regValue.setWidth 4) s.stmap }.finish s.slotArg 1) := by
  have hw : s.writeReg s.regCode s.regIndex s.regValue = if 1024 ≤ s.regIndex then (3, s) else if 15 < s.regValue.toNat then (6, s)
      else (1, { s with stmap := Sp.put s.regIndex (s.regValue.setWidth 4) s.stmap }) := by rw [hc]; rfl
  split
  · next h => exact State.wrreg_of_writeReg hl (hw.trans (if_pos h))
  · next h =>
    split
    · next h' => exact State.wrreg_of_writeReg hl (hw.trans ((if_neg h).trans (if_pos h')))
    · next h' => exact State.wrreg_of_writeReg hl (hw.trans ((if_neg h).trans (if_neg h')))

/-! ### The reads and writes with an effect of their own -/

/-- A payload of another length, or an index that names nothing, gives status 3. -/
theorem State.badRead {x : Instr} (h : x = .rdreg ∨ x = .werrRead ∨ x = .cerrstRead ∨ x = .perrstRead ∨ x = .eventQueueRead)
    (hl : s.cmdLen s.slotArg ≠ 8) : exec x s = .next (s.finish s.slotArg 3) := by
  rcases h with rfl | rfl | rfl | rfl | rfl
  · exact congrArg Host.Outcome.next (if_pos hl)
  · exact congrArg Host.Outcome.next (if_pos (.inl hl))
  · exact congrArg Host.Outcome.next (if_pos (.inl hl))
  · exact congrArg Host.Outcome.next (if_pos hl)
  · exact congrArg Host.Outcome.next (if_pos (.inl hl))

theorem State.badWrite {x : Instr} (h : x = .wrreg ∨ x = .wrrwWrite) (hl : s.cmdLen s.slotArg ≠ 16) :
    exec x s = .next (s.finish s.slotArg 3) := by
  rcases h with rfl | rfl
  · exact congrArg Host.Outcome.next (if_pos hl)
  · exact congrArg Host.Outcome.next (if_pos (.inl hl))

section Reads

variable (hl : s.cmdLen s.slotArg = 8)
include hl

theorem State.werrRead_spec (hi : s.regIndex < 256) : exec .werrRead s =
    .next ((s.modCore s.regIndex fun k => { k with werr := 0, werrBy := (0, 0) }).replyWord s.slotArg (s.core s.regIndex).werr) :=
  congrArg Host.Outcome.next (if_neg (not_or.mpr ⟨not_not_intro hl, Nat.not_le.mpr hi⟩))

theorem State.cerrstRead_spec (hi : s.regIndex < 256) : ∃ t : State,
    exec .cerrstRead s = .next (t.replyWord s.slotArg (s.core s.regIndex).cerrst) ∧
    (∀ b, (t.core s.regIndex).cerrst.getLsbD b = ((s.core s.regIndex).cerrst.getLsbD b && decide (32 ≤ b ∧ b ≠ 38))) ∧
    ∀ c, c ≠ s.regIndex → t.core c = s.core c := by
  refine ⟨_, congrArg Host.Outcome.next (if_neg (not_or.mpr ⟨not_not_intro hl, Nat.not_le.mpr hi⟩)), fun b => ?_, fun c hc => ?_⟩
  · rw [State.core_modCore_same]
    exact getLsbD_clearCerrst _ b
  · exact State.core_modCore_other s _ hc

theorem State.perrstRead_spec : ∃ x, exec .perrstRead s = .next ({ s with perrst := x }.replyWord s.slotArg s.perrst) ∧
    ∀ b, x.getLsbD b = (s.perrst.getLsbD b && decide (16 ≤ b ∧ b ≠ 32 ∧ b ≠ 33)) :=
  ⟨_, congrArg Host.Outcome.next (if_neg (not_not_intro hl)), getLsbD_clearPerrst s.perrst⟩

/-- The oldest record of a queue is returned and leaves it; an empty queue returns 0. -/
theorem State.eventQueueRead_spec (hi : s.regIndex < 8) : exec .eventQueueRead s = .next (match Sp.get [] s.events s.regIndex with
    | [] => s.replyWord s.slotArg 0
    | r :: rest => { s with events := Sp.set [] s.events s.regIndex rest }.replyWord s.slotArg r) :=
  congrArg Host.Outcome.next (if_neg (not_or.mpr ⟨not_not_intro hl, Nat.not_le.mpr hi⟩))

end Reads

/-- The weights of a partition are set, and its credits start anew from them. -/
theorem State.wrrwWrite_spec (hl : s.cmdLen s.slotArg = 16) (hi : s.regIndex < 8) : exec .wrrwWrite s = .next ({ s with
    wrrw := Sp.set 0x8421 s.wrrw s.regIndex (s.regValue &&& 0xFFFF)
    credits := s.credits.filter fun (x : Nat × Nat) => x.1 / 4 != s.regIndex }.finish s.slotArg 1) :=
  congrArg Host.Outcome.next (if_neg (not_or.mpr ⟨not_not_intro hl, Nat.not_le.mpr hi⟩))

end Registers

/-- Settles O37: each register by its code, as the firmware reads and writes it. -/
theorem registerCommands : Obligations.RegisterCommands := by
  intro s
  extract_lets slot len code i v
  have hlen : s.cmdLen s.slotArg = len := s.cmdLen_eq slot
  have hcode : s.regCode = code := rfl
  have hi : s.regIndex = i := rfl
  have hv : s.regValue = v := rfl
  refine ⟨congrArg some (rdregOf_eq code), ?_, fun h x hx => State.badRead hx (hlen ▸ h), fun h x hx => State.badWrite hx (hlen ▸ h),
    fun h => ?_, fun h => ?_, ?_⟩
  · exact congrArg some (wrregOf_eq (s.cad.ctl.getLsbD 0) code (s.cmd.le (4096 * slot + 72) 8))
  · have hl := hlen.trans h
    have hread : ∀ {n x}, code = n → s.register n i = some x → exec .rdreg s = .next (s.replyWord slot x) :=
      fun hc hr => State.rdreg_of_some hl (by rw [hcode, hc]; exact hr)
    have hnone : ∀ {n}, code = n → s.register n i = none → exec .rdreg s = .next (s.finish slot 3) :=
      fun hc hr => State.rdreg_of_none hl (by rw [hcode, hc]; exact hr)
    refine ⟨fun n x hx hc => hread hc ?_, fun h8 hc => hread hc (if_pos h8), fun h8 hc => hnone hc (if_neg (Nat.not_lt.mpr h8)),
      fun h256 => ⟨fun hc => hread hc (if_pos h256), fun hc => hread hc (if_pos h256), State.werrRead_spec hl h256, State.cerrstRead_spec hl h256⟩,
      fun h256 => ⟨fun hc => hnone hc (if_neg (Nat.not_lt.mpr h256)), ?_, ?_⟩, fun hc => hnone rfl (State.register_of_unlisted i hc),
      State.perrstRead_spec hl, fun h8 => ?_, fun h8 he => ?_, fun r rest h8 he => ?_⟩
    · simp only [List.mem_cons, List.not_mem_nil, or_false, Prod.mk.injEq] at hx
      rcases hx with ⟨rfl, rfl⟩ | ⟨rfl, rfl⟩ | ⟨rfl, rfl⟩ | ⟨rfl, rfl⟩ | ⟨rfl, rfl⟩ | ⟨rfl, rfl⟩ | ⟨rfl, rfl⟩ | ⟨rfl, rfl⟩ | ⟨rfl, rfl⟩ <;> rfl
    · exact congrArg Host.Outcome.next (if_pos (.inr h256))
    · exact congrArg Host.Outcome.next (if_pos (.inr h256))
    · exact congrArg Host.Outcome.next (if_pos (.inr h8))
    · have hr := State.eventQueueRead_spec hl h8
      rw [hi, he] at hr
      exact hr
    · have hr := State.eventQueueRead_spec hl h8
      rw [hi, he] at hr
      exact ⟨_, hr, Sp.get_set_same .., fun p hp => Sp.get_set_other _ _ hp⟩
  · have hl := hlen.trans h
    have hwrite : ∀ {n st t}, code = n → s.writeReg n i v = (st, t) → exec .wrreg s = .next (t.finish slot st) :=
      fun hc hw => State.wrreg_of_writeReg hl (by rw [hcode, hc]; exact hw)
    refine ⟨fun hc => hwrite hc rfl, fun hc => hwrite hc rfl, fun hc => hwrite hc rfl, fun hc => hwrite hc rfl, State.wrreg_stmap hl,
      fun hc h256 => hwrite hc (State.writeTim_zero v h256), fun hc ha => hwrite rfl ((State.writeReg_cad i v hc).trans (if_pos ha)),
      fun hc ha hd => hwrite hc ((State.writeCad_ctl ha).trans (if_neg ?_)),
      fun hc ha hd hn => hwrite hc ((State.writeCad_ctl ha).trans (if_pos ⟨hd, .inl hn⟩)), fun hc ha => hwrite hc (State.writeCad_base v ha),
      fun hc => hwrite rfl (State.writeReg_of_unlisted i v hc), fun h8 => congrArg Host.Outcome.next (if_pos (.inr h8)),
      fun h8 => ⟨_, _, State.wrrwWrite_spec hl h8, Sp.get_set_same .., fun p hp => Sp.get_set_other _ _ hp, fun x hx => ?_⟩⟩
    · rw [hd]
      exact fun h => Bool.noConfusion h.1
    · obtain ⟨hm, hx⟩ := List.mem_filter.mp hx
      exact ⟨bne_iff_ne.mp hx, hm⟩
  · refine ⟨_, rfl, fun p l => ?_⟩
    rw [State.cur_modCur]
    exact Core.allLanes_lane s.cur _ p l

end Sys2Proof.Machine

/-! PROOFS. Armings, records, groups, partitions, the mailbox and ATTEST (O38). -/

namespace Sys2Proof.Machine

open Sys2Proof

/-! ### Armings (R44, R349) -/

section Armings

variable {s : State} {slot : Nat} {regs : Cad} {count : Option (BitVec 48)}

theorem bits_low_word (v : W64) : bits v.toNat 0 32 = v.toNat % 2 ^ 32 := by
  rw [bits, pow_zero, Nat.div_one]

theorem bits_high_word (v : W64) : bits v.toNat 32 32 = v.toNat / 2 ^ 32 := by
  have := v.isLt
  rw [bits, Nat.mod_eq_of_lt (by omega)]

/-- The answers to an arming. -/
theorem State.arm_spec (s : State) (slot : Nat) (regs : Cad) (count : Option (BitVec 48)) :
    (s.arming.isSome = true → s.arm slot regs count = s.finish slot 5) ∧
    (s.arming = none → (regs.tper.toNat % 2 ^ 32 < 200 ∨ regs.tper.toNat / 2 ^ 32 < 200 ∨ ∃ n, count = some n ∧ n.getLsbD 0 = true) →
      s.arm slot regs count = s.finish slot 6) ∧
    (s.arming = none → 200 ≤ regs.tper.toNat % 2 ^ 32 → 200 ≤ regs.tper.toNat / 2 ^ 32 → (∀ n, count = some n → n.getLsbD 0 = false) →
      s.arm slot regs count = { s with arming := some ⟨slot, regs, count⟩ }.nextCommand) := by
  have hnone : s.arming = none → ¬ s.arming.isSome = true := fun ha => by rw [ha]; exact Bool.noConfusion
  have hodd : count.elim false (·.getLsbD 0) = true ↔ ∃ n, count = some n ∧ n.getLsbD 0 = true := by
    cases count <;> simp
  unfold State.arm
  rw [bits_low_word, bits_high_word]
  refine ⟨fun ha => if_pos ha, fun ha hb => (if_neg (hnone ha)).trans (if_pos (hb.imp_right (·.imp_right hodd.mpr))), fun ha hl hh hc => (if_neg (hnone ha)).trans (if_neg ?_)⟩
  rintro (h | h | h)
  · omega
  · omega
  · obtain ⟨n, hn, h⟩ := hodd.mp h
    rw [hc n hn] at h
    exact Bool.noConfusion h

end Armings

/-! ### Records that enter their queue (R306) -/

/-- Whether a view tells nothing of the lease work's own tables. -/
def View.skipsLeases (v : View) : Prop :=
  ∀ (t : State) n m p k, v.of { t with nextId := n, moves := m, pages := p, marks := k } = v.of t

section Leases

variable {r s : State} {v : View}

theorem State.agrees.leaseWork {x : Record} (hv : v.skipsLeases) (h : r.agrees v s) : r.agrees v (s.leaseWork x) := by
  unfold State.leaseWork
  extract_lets gang u repl size others moved w
  refine h.unless fun h => State.agrees.ite h.modRecord.at (h.when fun h => ?_)
  have hu : r.agrees v u := h.modRecord.foldl fun _ _ ht => ht.modCore
  have hw : r.agrees v w := hu.alter (hv u (u.nextId + moved.length) _ _ u.marks)
  exact hw.at.ite hw

theorem State.agrees.readEntry {x : Record} {f : State → State} (hv : v.skipsLeases) (h : r.agrees v s)
    (hf : ∀ t, r.agrees v t → r.agrees v (f t)) : r.agrees v (s.readEntry x f) := by
  unfold State.readEntry
  refine State.agrees.ite (h.unless fun h => ?_) (hf _ (h.alter (hv s s.nextId s.moves s.pages _)))
  split
  · exact h.unless (·.at)
  · exact h

theorem State.agrees.headWork (hv : v.skipsLeases) (h : r.agrees v s) : r.agrees v s.headWork := by
  refine h.foldl fun t q ht => ?_
  split
  · split
    · exact ht.unless fun ht => ht.readEntry hv fun _ hu => hu.leaseWork hv
    · exact ht
  · exact ht

end Leases

/-- The launch queues. -/
def View.lqs : View := ⟨State.lqs, fun _ => rfl⟩

theorem State.headWork_lqs (s : State) : s.headWork.lqs = s.lqs :=
  (State.agrees_refl View.lqs s).headWork fun _ _ _ _ _ => rfl

theorem State.leaseWork_records_length (s : State) (x : Record) : (s.leaseWork x).records.length = s.records.length := by
  have hmod : ∀ f, (s.modRecord x.id f).records.length = s.records.length := fun f => by simp [State.modRecord]
  unfold State.leaseWork
  extract_lets gang u repl size others moved w
  have hu : u.records.length = s.records.length :=
    List.foldlRecOn (motive := fun t : State => t.records.length = s.records.length) _ _ (hmod _) fun _ ht _ _ => ht
  split
  · rfl
  · split
    · exact hmod _
    · split
      · split <;> exact hu
      · rfl

theorem State.headWork_records_length (s : State) : s.headWork.records.length = s.records.length := by
  refine List.foldlRecOn (motive := fun t : State => t.records.length = s.records.length) _ _ rfl fun t ht q _ => ?_
  split
  · split
    · split
      · exact ht
      · unfold State.readEntry
        split
        · split
          · exact ht
          · split
            · split <;> exact ht
            · exact ht
        · exact (State.leaseWork_records_length _ _).trans ht
    · exact ht
  · exact ht

/-- A record that is enqueued is the last of its queue, and of the records. -/
theorem State.enqueueRecord_spec (s : State) (w : BitVec 1024) (part : Nat) :
    Sp.get [] (s.enqueueRecord w part).lqs (4 * part + lnr w 3 2) = Sp.get [] s.lqs (4 * part + lnr w 3 2) ++ [s.nextId] ∧
    (∀ p, p ≠ 4 * part + lnr w 3 2 → Sp.get [] (s.enqueueRecord w part).lqs p = Sp.get [] s.lqs p) ∧
    (s.enqueueRecord w part).records.length = s.records.length + 1 := by
  have hl : (s.enqueueRecord w part).lqs = Sp.set [] s.lqs (4 * part + lnr w 3 2) (Sp.get [] s.lqs (4 * part + lnr w 3 2) ++ [s.nextId]) :=
    State.headWork_lqs _
  rw [hl]
  refine ⟨Sp.get_set_same .., fun p hp => Sp.get_set_other _ _ hp, ?_⟩
  unfold State.enqueueRecord
  rw [State.headWork_records_length]
  simp

/-! ### Groups (R324, R331) -/

theorem find?_put {α : Type} (m : List (Nat × α)) (i n : Nat) (x : α) :
    (Sp.put i x m).find? (·.1 == n) = if n = i then some (i, x) else m.find? (·.1 == n) := by
  induction m with
  | nil => by_cases h : n = i <;> simp [Sp.put, List.find?, h, Ne.symm]
  | cons y m ih =>
    obtain ⟨j, y⟩ := y
    unfold Sp.put
    grind

/-- A group that is defined is found as it stands, and the others are found as before. -/
theorem State.group_define (s : State) (i n : Nat) (g : Group) :
    ({ s with groups := Sp.put i g s.groups } : State).group n = if n = i then some g else s.group n := by
  unfold State.group
  rw [find?_put]
  split <;> rfl

/-- Whether a call may start rests on the groups and the device alone. -/
theorem State.adds.callReady {s t : State} (h : s.adds t) (x : Call) : t.callReady x = s.callReady x := by rw [h.eq]; rfl

/-- A call that may start does: the start of its sequence is pending. -/
def State.wakeCall (s : State) (x : Call) : State :=
  if s.callReady x then
    if s.agenda.any fun it => it.ev == .run (argFocus 0 x.id) .collectiveSequenceStart then s
    else s.at 0 (s.cyc + 1) pNet (.run (argFocus 0 x.id) .collectiveSequenceStart)
  else s

theorem State.wakeCalls_eq (s : State) : s.wakeCalls = s.calls.foldl State.wakeCall s := rfl

theorem State.adds_wakeCall (s : State) (x : Call) : s.adds (s.wakeCall x) := by
  unfold State.wakeCall
  split
  · split
    · exact State.adds_refl s
    · exact (State.adds_refl s).at
  · exact State.adds_refl s

theorem State.adds_wakeCalls (s : State) : s.adds s.wakeCalls := by
  rw [State.wakeCalls_eq]
  exact (State.adds_refl s).foldl fun t x ht => ht.trans (t.adds_wakeCall x)

theorem State.mem_wakeCall {s : State} {x : Call} (h : s.callReady x = true) :
    ∃ y ∈ (s.wakeCall x).agenda, y.ev = .run (argFocus 0 x.id) .collectiveSequenceStart := by
  unfold State.wakeCall
  rw [if_pos h]
  split
  · next ha =>
    obtain ⟨y, hy, he⟩ := List.any_eq_true.mp ha
    exact ⟨y, hy, eq_of_beq he⟩
  · exact ⟨_, mem_insertItem.mpr (.inl rfl), rfl⟩

theorem State.mem_wakeCalls {s : State} {x : Call} (hx : x ∈ s.calls) (h : s.callReady x = true) :
    ∃ y ∈ s.wakeCalls.agenda, y.ev = .run (argFocus 0 x.id) .collectiveSequenceStart := by
  obtain ⟨u, hu, hr⟩ := State.adds.foldl_mem State.adds_wakeCall hx s
  obtain ⟨y, hy, he⟩ := State.mem_wakeCall (s := u) ((hu.callReady x).trans h)
  exact ⟨y, hr.mem y hy, he⟩

/-- What a command's end leaves as it is. -/
theorem State.finish_keeps (s : State) (slot code : Nat) : (s.finish slot code).groups = s.groups ∧ (s.finish slot code).calls = s.calls ∧
    (s.finish slot code).device = s.device ∧ ∀ x ∈ s.agenda, x ∈ (s.finish slot code).agenda := by
  have hnext : ∀ t : State, t.groups = s.groups → t.calls = s.calls → t.device = s.device → t.agenda = s.agenda →
      t.nextCommand.groups = s.groups ∧ t.nextCommand.calls = s.calls ∧ t.nextCommand.device = s.device ∧
      ∀ x ∈ s.agenda, x ∈ t.nextCommand.agenda := fun t hg hc hd ha => by
    unfold State.nextCommand
    dsimp only
    split
    · exact ⟨hg, hc, hd, fun x hx => ha ▸ hx⟩
    · exact ⟨hg, hc, hd, fun x hx => mem_insertItem.mpr (.inr (ha ▸ hx))⟩
  unfold State.finish
  by_cases h : slot ∈ s.fwdSlots
  · rw [s.complete_of_forwarded slot code h]
    exact hnext _ rfl rfl rfl rfl
  · rw [s.complete_of_own slot code h, State.vector, State.msi_eq]
    exact hnext _ rfl rfl rfl rfl

theorem State.finish_group (s : State) (slot code n : Nat) : (s.finish slot code).group n = s.group n := by
  rw [State.group, (s.finish_keeps slot code).1, State.group]

theorem State.finish_callReady (s : State) (slot code : Nat) (x : Call) : (s.finish slot code).callReady x = s.callReady x := by
  unfold State.callReady State.localMembers
  rw [s.finish_group slot code, (s.finish_keeps slot code).2.2.1]

/-- The state in which a group is defined. -/
def State.define (s : State) (i : Nat) (ms : List Nat) : State := { s with groups := Sp.put i ⟨ms, 0, 0, none⟩ s.groups }

/-- A GROUPDEF defines its group, and the calls that may start now do. -/
theorem State.groupdef_spec (s : State) (slot i : Nat) (ms : List Nat) :
    ((s.define i ms).wakeCalls.finish slot 1).cores = s.cores ∧ ((s.define i ms).wakeCalls.finish slot 1).calls = s.calls ∧
    ((s.define i ms).wakeCalls.finish slot 1).group i = some ⟨ms, 0, 0, none⟩ ∧
    (∀ n, n ≠ i → ((s.define i ms).wakeCalls.finish slot 1).group n = s.group n) ∧
    ∀ x ∈ ((s.define i ms).wakeCalls.finish slot 1).calls, ((s.define i ms).wakeCalls.finish slot 1).callReady x = true →
      ∃ y ∈ ((s.define i ms).wakeCalls.finish slot 1).agenda, y.ev = .run (argFocus 0 x.id) .collectiveSequenceStart := by
  have hw := (s.define i ms).adds_wakeCalls
  have hmem := fun x hx => State.mem_wakeCalls (s := s.define i ms) (x := x) hx
  have hgroup : ∀ n, (s.define i ms).wakeCalls.group n = if n = i then some ⟨ms, 0, 0, none⟩ else s.group n := fun n => by
    rw [← State.group_define, hw.eq]
    rfl
  obtain ⟨-, hcalls, -, hag⟩ := (s.define i ms).wakeCalls.finish_keeps slot 1
  have hc : (s.define i ms).wakeCalls.calls = s.calls := (congrArg State.calls hw.eq :)
  refine ⟨(State.finish_cores ..).trans (congrArg State.cores hw.eq :), hcalls.trans hc, ?_, fun n hn => ?_, fun x hx hr => ?_⟩
  · rw [State.finish_group, hgroup, if_pos rfl]
  · rw [State.finish_group, hgroup, if_neg hn]
  · rw [State.finish_callReady, hw.callReady] at hr
    rw [hcalls, hc] at hx
    obtain ⟨y, hy, he⟩ := hmem x hx hr
    exact ⟨y, hag y hy, he⟩

/-! ### The report of ATTEST (R348, R351) -/

theorem getElem?_leBytes (n x i : Nat) (hi : i < n) : (leBytes n x)[i]? = some (BitVec.ofNat 8 (x / 256 ^ i)) := by
  induction n generalizing x i with
  | zero => exact absurd hi (Nat.not_lt_zero i)
  | succ n ih =>
    unfold leBytes
    cases i with
    | zero => simp
    | succ i => rw [List.getElem?_cons_succ, ih _ i (by omega), Nat.div_div_eq_div_mul, Nat.pow_succ']

/-- A block of a row of blocks of one length. -/
theorem take_drop_flatten {α : Type} {m : Nat} {L : List (List α)} (h : ∀ l ∈ L, l.length = m) {k : Nat} (hk : k < L.length) :
    (L.flatten.drop (m * k)).take m = L[k] := by
  induction L generalizing k with
  | nil => exact absurd hk (Nat.not_lt_zero k)
  | cons l L ih =>
    have hl := h l (List.mem_cons_self ..)
    cases k with
    | zero => simp [← hl]
    | succ k =>
      have hk : k < L.length := by simpa using hk
      rw [List.flatten_cons, Nat.mul_succ, Nat.add_comm, ← List.drop_drop, List.drop_append_of_le_length hl.ge, ← hl, List.drop_length,
        List.nil_append, List.getElem_cons_succ, hl]
      exact ih (fun l hm => h l (List.mem_cons_of_mem _ hm)) hk

theorem take_drop_middle {α : Type} {n m : Nat} {a b c l : List α} (h : l = a ++ (b ++ c)) (ha : a.length = n) (hb : b.length = m) :
    (l.drop n).take m = b := by
  rw [h, ← ha, ← hb, List.drop_left, List.take_left]

/-- What a command returns stands in its slot, block by block. -/
theorem State.reply_blocks (s : State) (slot : Nat) (bs : List Byte) {n m : Nat} (h : n + m ≤ bs.length) :
    (List.range m).map (fun i => ((s.reply slot bs).finish slot 1).cmd.byte (4096 * slot + 64 + n + i)) = (bs.drop n).take m := by
  refine List.ext_getElem (by simp; omega) fun i hi _ => ?_
  have hi : i < m := by simpa using hi
  rw [List.getElem_map, List.getElem_range, State.finish_cmd_byte_other _ _ _ (by omega)]
  unfold State.reply
  rw [Memory.byte_storeAll_addressed, if_pos (by omega), List.getElem_take, List.getElem_drop,
    show 4096 * slot + 64 + n + i - (4096 * slot + 64) = n + i by omega, List.getElem?_eq_getElem (by omega)]
  rfl

/-- Bytes that no rule gives. -/
def attestBytes (a k : Nat) : List Byte := (List.range k).map fun i => Config.attestByte (a + i)

@[simp] theorem attestBytes_length (a k : Nat) : (attestBytes a k).length = k := by simp [attestBytes]

/-- The digests of the base-die firmware that runs, or zeros. -/
def State.digests (s : State) : List (List Byte) :=
  (List.range 8).map fun k => if s.bootst.getLsbD (2 + k) then sha384 (signedPart (Config.stackImage k)) else List.replicate 48 0

/-- The digests in a row. -/
def State.digestBytes (s : State) : List Byte := s.digests.flatten

/-- What an ATTEST report says before the challenge. -/
def State.attestHead (s : State) : List Byte := attestBytes 0 16 ++ leBytes 2 s.device.toNat ++ attestBytes 16 2

/-- The challenge of an ATTEST. -/
def State.nonce (s : State) (slot : Nat) : List Byte := s.cmd.bytes (4096 * slot + 64) 48

/-- The part of an ATTEST report that is signed. -/
def State.attestation (s : State) (slot : Nat) : List Byte :=
  s.attestHead ++ s.nonce slot ++ s.digestBytes ++ leBytes 8 s.bootst.toNat ++ leBytes 4 0

/-- An ATTEST report with its signature and certificate. -/
def State.attestReply (s : State) (slot : Nat) : List Byte :=
  s.attestation slot ++ identitySignature s.freeCtr (s.attestation slot) ++ attestBytes 1024 208

section Reports

variable (s : State) (slot : Nat)

theorem State.length_of_mem_digests : ∀ l ∈ s.digests, l.length = 48 := by
  simp only [State.digests, List.mem_map, List.mem_range]
  rintro l ⟨k, -, rfl⟩
  split <;> simp

@[simp] theorem State.digestBytes_length : s.digestBytes.length = 384 := by
  rw [State.digestBytes, List.length_flatten, List.map_congr_left s.length_of_mem_digests, List.map_const', List.sum_replicate]
  simp [State.digests]

@[simp] theorem State.nonce_length : (s.nonce slot).length = 48 := by simp [State.nonce, Memory.bytes]

@[simp] theorem State.attestHead_length : s.attestHead.length = 20 := by simp [State.attestHead]

@[simp] theorem State.attestation_length : (s.attestation slot).length = 464 := by simp [State.attestation]

@[simp] theorem State.attestReply_length : (s.attestReply slot).length = 768 := by simp [State.attestReply]

theorem State.attestReply_signed : ((s.attestReply slot).drop 0).take 464 = s.attestation slot :=
  take_drop_middle (a := []) (List.append_assoc ..) rfl (s.attestation_length slot)

theorem State.attestReply_signature : ((s.attestReply slot).drop 464).take 96 = identitySignature s.freeCtr (s.attestation slot) :=
  take_drop_middle (List.append_assoc ..) (s.attestation_length slot) (identitySignature_length ..)

theorem State.attestReply_nonce : ((s.attestReply slot).drop 20).take 48 = s.nonce slot :=
  take_drop_middle (by simp only [State.attestReply, State.attestation, List.append_assoc]; rfl) s.attestHead_length (s.nonce_length slot)

theorem State.attestReply_bootst : ((s.attestReply slot).drop 452).take 8 = leBytes 8 s.bootst.toNat :=
  take_drop_middle (a := s.attestHead ++ s.nonce slot ++ s.digestBytes)
    (by simp only [State.attestReply, State.attestation, List.append_assoc]; rfl) (by simp) (leBytes_length ..)

theorem State.attestReply_digests : ((s.attestReply slot).drop 68).take 384 = s.digestBytes :=
  take_drop_middle (a := s.attestHead ++ s.nonce slot)
    (by simp only [State.attestReply, State.attestation, List.append_assoc]; rfl) (by simp) s.digestBytes_length

theorem State.attestReply_digest {k : Nat} (hk : k < 8) : ((s.attestReply slot).drop (68 + 48 * k)).take 48 =
    if s.bootst.getLsbD (2 + k) then sha384 (signedPart (Config.stackImage k)) else List.replicate 48 0 := by
  have hlen : k < s.digests.length := by simpa [State.digests] using hk
  have hget : s.digests[k] = if s.bootst.getLsbD (2 + k) then sha384 (signedPart (Config.stackImage k)) else List.replicate 48 0 := by
    simp [State.digests]
  rw [← hget, ← take_drop_flatten s.length_of_mem_digests hlen, ← State.digestBytes, ← s.attestReply_digests slot, List.drop_take, List.take_take, List.drop_drop,
    Nat.min_eq_left (by omega)]

/-- A byte of a block of which all are known. -/
theorem byte_of_block {f : Nat → Byte} {n i : Nat} {l : List Byte} (h : (List.range n).map f = l) (hi : i < n) : f i = l[i]?.getD 0 := by
  rw [← h]
  simp [hi]

/-- What an ATTEST leaves in its slot. -/
theorem State.attestReply_reads (r : State) :
    let at_ := fun (n i : Nat) => ((r.reply slot (s.attestReply slot)).finish slot 1).cmd.byte (4096 * slot + 64 + n + i)
    ((List.range 96).map (at_ 464) = identitySignature s.freeCtr ((List.range 464).map (at_ 0)) ∧
      ∀ k, k < 8 → (List.range 48).map (at_ (68 + 48 * k)) = if s.bootst.getLsbD (2 + k) then
        sha384 ((Config.stackImage k).take ((Config.stackImage k).length - 96)) else List.replicate 48 0) ∧
    (∀ i, i < 48 → at_ 20 i = s.cmd.byte (4096 * slot + 64 + i)) ∧ ∀ i, i < 8 → at_ 452 i = BitVec.ofNat 8 (s.bootst.toNat / 256 ^ i) := by
  intro at_
  have hblock : ∀ n m, n + m ≤ 768 → (List.range m).map (at_ n) = ((s.attestReply slot).drop n).take m := fun n m h =>
    r.reply_blocks slot (s.attestReply slot) (by rw [s.attestReply_length slot]; exact h)
  refine ⟨⟨?_, fun k hk => ?_⟩, fun i hi => ?_, fun i hi => ?_⟩
  · rw [hblock 464 96 (by decide), hblock 0 464 (by decide), s.attestReply_signed, s.attestReply_signature]
  · rw [hblock _ 48 (by omega), s.attestReply_digest slot hk]
    rfl
  · rw [byte_of_block (hblock 20 48 (by decide)) hi, s.attestReply_nonce]
    simp [State.nonce, Memory.bytes, hi]
  · rw [byte_of_block (hblock 452 8 (by decide)) hi, s.attestReply_bootst, getElem?_leBytes 8 _ i hi]
    rfl

theorem exec_attest_of_len (h : s.cmdLen s.slotArg ≠ 48) : exec .attest s = .next ({ s with freeCtr := s.freeCtr + 1 }.finish s.slotArg 3) :=
  congrArg Host.Outcome.next (if_pos h)

/-- The report stands in the slot. -/
theorem exec_attest_of_report (h : s.cmdLen s.slotArg = 48) :
    exec .attest s = .next (({ s with freeCtr := s.freeCtr + 1 }.reply s.slotArg (s.attestReply s.slotArg)).finish s.slotArg 1) :=
  congrArg Host.Outcome.next (if_neg (not_not_intro h))

end Reports

/-! ### The obligation -/

/-- A payload of another length is status 3. -/
theorem exec_package_of_len {s : State} (x : Instr × Nat)
    (hx : x ∈ ([(.armtd, 24), (.cadctlDriveArm, 16), (.enqueue, 128), (.partset, 16), (.preempt, 8), (.mboxsend, 72)] : List (Instr × Nat)))
    (h : s.cmdLen s.slotArg ≠ x.2) : exec x.1 s = .next (s.finish s.slotArg 3) := by
  simp only [List.mem_cons, List.not_mem_nil, or_false] at hx
  rcases hx with rfl | rfl | rfl | rfl | rfl | rfl
  · exact congrArg Host.Outcome.next (if_pos h)
  · exact congrArg Host.Outcome.next (if_pos h)
  · exact congrArg Host.Outcome.next (if_pos h)
  · exact congrArg Host.Outcome.next (if_pos (.inl h))
  · exact congrArg Host.Outcome.next (if_pos (.inl h))
  · exact congrArg Host.Outcome.next (if_pos (.inl h))

/-- Settles O38: each command of the package by its length and its payload. -/
theorem packageCommands : Obligations.PackageCommands := by
  intro s
  extract_lets slot len get arms part w t q
  have hlen : s.cmdLen s.slotArg = len := s.cmdLen_eq slot
  have harms : ∀ {i : Instr} {regs : Cad} {count : Option (BitVec 48)}, exec i s = .next (s.arm slot regs count) → arms i regs count :=
    fun {i regs count} h => by
      obtain ⟨hbusy, hbad, htaken⟩ := s.arm_spec slot regs count
      exact ⟨fun ha => h.trans (congrArg _ (hbusy ha)), fun ha hb => h.trans (congrArg _ (hbad ha hb)),
        fun ha hl hh hc => h.trans (congrArg _ (htaken ha hl hh hc))⟩
  have hneg : ∀ {n}, len = n → ¬ s.cmdLen s.slotArg ≠ n := fun h => not_not_intro (hlen.trans h)
  refine ⟨fun x hx h => exec_package_of_len x hx (hlen ▸ h), fun h h22 => ?_, fun h h22 => harms ?_, fun h hn => harms ?_, fun h hn => ?_,
    fun h => ?_, fun h4 hge h2 hms hq => ?_, fun h => ?_, fun h => ?_, fun h => ?_, fun h => ?_, fun h => exec_attest_of_len s (hlen ▸ h), fun h => ?_⟩
  · exact congrArg Host.Outcome.next ((if_neg (hneg h)).trans (if_pos h22))
  · exact congrArg Host.Outcome.next ((if_neg (hneg h)).trans (if_neg (not_not_intro h22)))
  · exact congrArg Host.Outcome.next ((if_neg (hneg h)).trans (if_neg (by simp [hn])))
  · refine ⟨fun ha => ?_, fun ha => ?_⟩
    · refine congrArg Host.Outcome.next ((if_neg (hneg h)).trans ((if_neg ?_).trans ((s.arm_spec slot _ none).1 ha)))
      simp [Option.isNone_eq_false_iff.mpr ha]
    · exact congrArg Host.Outcome.next ((if_neg (hneg h)).trans (if_pos (by simp [ha, hn])))
  · refine ⟨fun hs => ?_, fun hs hm => ?_, s.enqueueRecord_spec w part⟩
    · exact congrArg Host.Outcome.next ((if_neg (hneg h)).trans (if_pos hs))
    · have hbad : ¬ (s.chunkBad (64 * lnr w 512 22) 64 || s.leasesBad w) = true := by
        simp [State.chunkBad, State.leasesBad, hm]
      exact congrArg Host.Outcome.next ((if_neg (hneg h)).trans ((if_neg (Bool.eq_false_iff.mp hs)).trans (if_neg hbad)))
  · have hok : ¬ (s.cmdLen s.slotArg % 4 ≠ 0 ∨ s.cmdLen s.slotArg < 4 ∨ 256 < ((s.memberList s.slotArg).map (· / 256)).dedup.length) := by
      rw [hlen]
      rintro (h | h | h)
      · exact h h4
      · omega
      · exact absurd h (Nat.not_lt.mpr hq)
    have hres : ¬ (s.payload s.slotArg 2 2 ≠ 0 ∨
        (List.range ((s.cmdLen s.slotArg - 4) / 4)).any (fun i => 2 ^ 18 ≤ s.payload s.slotArg (4 + 4 * i) 4) = true) := by
      rw [hlen]
      rintro (h | h)
      · exact h h2
      · obtain ⟨n, hn, hb⟩ := List.any_eq_true.mp h
        exact absurd (of_decide_eq_true hb) (Nat.not_le.mpr (hms n (List.mem_range.mp hn)))
    exact ⟨_, congrArg Host.Outcome.next ((if_neg hok).trans (if_neg hres)), State.finish_status .., State.groupdef_spec s slot _ _⟩
  · refine congrArg Host.Outcome.next (if_pos ?_)
    rw [hlen]
    exact h.imp_right .inl
  · refine ⟨fun h8 => congrArg Host.Outcome.next (if_pos (.inr h8)), fun h8 => ?_⟩
    exact congrArg Host.Outcome.next (if_neg (not_or.mpr ⟨hneg h, Nat.not_le.mpr h8⟩))
  · have hgo : get 0 8 < 8 → ¬ (s.cmdLen s.slotArg ≠ 8 ∨ 8 ≤ get 0 8) := fun h8 => not_or.mpr ⟨hneg h, Nat.not_le.mpr h8⟩
    refine ⟨fun h8 => congrArg Host.Outcome.next (if_pos (.inr h8)), fun h8 hh => ?_, fun h8 hh => ?_⟩
    · exact congrArg Host.Outcome.next ((if_neg (hgo h8)).trans (if_pos hh))
    · exact congrArg Host.Outcome.next ((if_neg (hgo h8)).trans (if_neg (Bool.eq_false_iff.mp hh)))
  · have hgo : get 0 8 < 8 → ¬ (s.cmdLen s.slotArg ≠ 72 ∨ 8 ≤ get 0 8) := fun h8 => not_or.mpr ⟨hneg h, Nat.not_le.mpr h8⟩
    have hany : (s.mboxOut.any (·.1 == get 0 8)) = true ↔ ∃ m ∈ s.mboxOut, m.1 = get 0 8 := by
      simp only [List.any_eq_true, beq_iff_eq]
    refine ⟨fun h8 => congrArg Host.Outcome.next (if_pos (.inr h8)), fun h8 hb => ?_, fun h8 hb => ⟨fun hm => ?_, fun hm => ?_⟩⟩
    · exact congrArg Host.Outcome.next ((if_neg (hgo h8)).trans (if_pos (by rw [Bool.not_eq_true']; exact hb)))
    · refine congrArg Host.Outcome.next ((if_neg (hgo h8)).trans ((if_neg ?_).trans (if_neg ?_)))
      · rw [Bool.not_eq_true', Bool.not_eq_false]; exact hb
      · exact fun ha => by obtain ⟨m, hmem, he⟩ := hany.mp ha; exact hm m hmem he
    · refine congrArg Host.Outcome.next ((if_neg (hgo h8)).trans ((if_neg ?_).trans (if_pos (hany.mpr hm))))
      rw [Bool.not_eq_true', Bool.not_eq_false]; exact hb
  · have hl := hlen.trans h
    refine ⟨_, exec_attest_of_report s hl, State.finish_status .., State.finish_cores .., ?_⟩
    exact State.attestReply_reads s slot { s with freeCtr := s.freeCtr + 1 }

end Sys2Proof.Machine

/-! PROOFS. The boundary in its parts, and what it does to the counter and the cadence registers (O35). -/

namespace Sys2Proof.Machine

open Sys2Proof

/-! ### The parts of the boundary (R40, R431) -/

/-- The budgets of the cores that go on. -/
def State.carried (s : State) : List Nat :=
  (s.cores.filter fun x => x.2.arrived && (x.2.phase.isNone || s.rejoins x.2) &&
    (x.2.life != .halted || s.saved.any fun y => y.core == x.1 && y.count == s.count)).filterMap fun x => x.2.arrival.map fun a => a.budget

/-- What the ports have yet to apply is applied. -/
def State.lastApplies (s : State) : State :=
  (s.cores.filter fun x => x.2.phase.isNone && x.2.win.toList.any (·.applying)).foldl (fun (s : State) x => s.flushApplies x.1) s

/-- The loose bytes of every core are ordered. -/
def State.orderLoose (s : State) : State := { s with cores := s.cores.map fun x => (x.1, x.2.ordered (s.decided.getD s.cyc)) }

/-- The intervals of every core's arrival open. -/
def State.openAll (s : State) : State :=
  s.cores.foldl (fun (s : State) x => s.openWindows x.1 (s.fenceMask x.1 x.2) s.nextCount) s

/-- The end of a phase: what tasks meet at the boundary, before the counter takes its next value. -/
def State.endPhase (s : State) : State := s.lastApplies.orderLoose.openAll.endTasks.takePreempts.takeResumes.applyPartset

/-- The cores that go on, with the class that each declares. -/
def State.goers (s : State) : List (Nat × Nat) :=
  (s.cores.filter fun x => x.2.drain.isNone && (s.fenceMask x.1 x.2).isSome).map fun x => (x.1, s.declared x.1 x.2)

/-- Some cores go on. -/
def State.goOn (s : State) (goes : List (Nat × Nat)) : State := goes.foldl (fun (s : State) x => s.continueTask x.1 x.2) s

/-- The budget of the phase that begins. -/
def State.setBudget (s : State) (carried : List Nat) : State := { s with budget := s.nextBudget carried }

/-- Invalidates that are pending on a core that has arrived take effect. -/
def State.quiesceArrived (s : State) : State :=
  (s.cores.filter fun x => x.2.life.holds && x.2.phase.isNone && x.2.arrival.isSome).foldl (fun (s : State) x => s.quiesce x.1 s.cyc false) s

/-- Only the states of halted cores stay saved. -/
def State.keepHalted (s : State) : State := { s with saved := s.saved.filter fun (x : Saved) => (s.core x.core).life == .halted }

/-- Chains that have waited for this phase go on. -/
def State.releaseAll (s : State) : State := s.cores.foldl (fun (s : State) x => if x.2.phase.isNone then s.releaseWaitt x.1 else s) s

/-- Replicas take what an exchange phase begins with. -/
def State.updatePages (s : State) : State :=
  { s with
    pages := s.pages.zipIdx.map fun x => x.1.update (3 * s.cyc) (s.freeCtr + 4 * x.2)
    freeCtr := s.freeCtr + 4 * s.pages.length }

/-- The walker's work at a compute boundary. -/
def State.walk (s : State) : State := (if s.pages = [] then s else s.at 0 s.cyc pTte .switchPages).activate.startPrepared.bindAll

/-- What the phase that begins has to do, by its type. -/
def State.phaseWork (s : State) : State := if s.count.getLsbD 0 then s.updatePages else s.walk

/-- A pending arming is checked in its phase. -/
def State.placeArmingCheck (s : State) : State :=
  if s.count.getLsbD 0 && s.arming.isSome then s.at 0 s.cyc pBoundary (.run Focus.reset .armingCheck) else s

/-- The budget of the phase runs. -/
def State.placeBudget (s : State) : State :=
  if s.budget = 0 then s else s.at 0 (s.cyc + s.budget) pBoundary (.run Focus.reset .stragglerBudgetExpiry)

/-- The barriers of the parked cores are looked at again. -/
def State.checkParked (s : State) : State := s.cores.foldl (fun (s : State) x => if x.2.phase.isSome then s.checkBarriers x.1 else s) s

/-- The begin of a phase, once the counter has taken its value. -/
def State.beginPhase (s : State) (carried : List Nat) (goes : List (Nat × Nat)) : State :=
  ((s.setBudget carried).goOn goes).quiesceArrived.keepHalted.releaseAll.phaseWork.placeArmingCheck.placeBudget.checkParked

/-- The state in which the boundary has done all but look for a decision. -/
def State.turned (s : State) : State := s.endPhase.stepCadence.beginPhase s.carried s.endPhase.goers

theorem State.phaseBoundary_eq (s : State) : exec .phaseBoundary s = .next (s.turned.at 0 s.turned.cyc pEnd .decide) := rfl

/-! ### Chains that waited (R245) -/

/-- A core but for its channel. -/
def Core.channelless (k : Core) : Core := { k with ch := Channel.reset }

/-- What such a change leaves of the frame. -/
theorem State.keeps.frame {e : Core → Core} {s t : State} (h : s.keeps e t) : t.frame = s.frame := by
  rw [← h.1]
  rfl

/-- A change that is made under another focus. -/
theorem State.keeps_focus {e : Core → Core} {s t : State} {f : Focus} (h : ({ s with focus := f } : State).keeps e t) :
    s.keeps e { t with focus := s.focus } :=
  ⟨congrArg (fun x : State => { x with focus := s.focus }) h.1, h.2⟩

theorem State.keeps_wakeIdle (e : Core → Core) (s : State) (c t : Nat) : s.keeps e (s.wakeIdle c t) := by
  unfold State.wakeIdle
  extract_lets f
  split
  · exact s.keeps_refl e
  · exact s.keeps_post e _

theorem State.keeps_stopChain (s : State) (c t : Nat) : s.keeps Core.channelless (s.stopChain c t) := by
  have hd : s.keeps Core.channelless (s.drop c (Ev.ofChain c)) := ⟨rfl, fun _ => rfl⟩
  have hm := hd.trans (State.keeps_modCore _ c (f := fun k =>
    { k with ch := { k.ch with run := none, lastRun := (k.ch.run.map (·.start)).or k.ch.lastRun } }) fun _ => rfl)
  exact hm.trans (State.keeps_wakeIdle ..)

theorem State.keeps_modRun (s : State) (f : ChainRun → ChainRun) : s.keeps Core.channelless (s.modRun f) :=
  s.keeps_modCur fun _ => rfl

theorem State.keeps_chainNext (s : State) (idx last : Nat) : s.keeps Core.channelless (s.chainNext idx last) := by
  unfold State.chainNext
  extract_lets u dt
  have hm : s.keeps Core.channelless u := s.keeps_modRun _
  split
  · exact hm.trans (State.keeps_stopChain ..)
  · exact hm.trans (State.keeps_post ..)

/-- A WAITT that is released changes the channel of its core alone. -/
theorem State.keeps_releaseWaitt (s : State) (c : Nat) : s.keeps Core.channelless (s.releaseWaitt c) := by
  unfold State.releaseWaitt
  split
  · split
    · exact State.keeps_focus ((State.keeps_modRun ..).trans (State.keeps_chainNext ..))
    · exact s.keeps_refl _
  · exact s.keeps_refl _

/-! ### The counter and the cadence registers -/

/-- The time, the counter, the phase and the cadence registers. -/
def State.pace (s : State) : Nat × BitVec 48 × Nat × Option Nat × Option (BitVec 48) × Bool × Bool × Cad × Cad :=
  (s.now, s.count, s.phStart, s.decided, s.armed, s.reverting, s.driven, s.cad, s.cadNew)

/-- The pace, as a frame tells it. -/
def View.pace : View := ⟨State.pace, fun _ => rfl⟩

section Pace

variable {r s : State} {v : View} {c : Nat}

theorem State.agrees.of_keeps {e : Core → Core} {t : State} (h : r.agrees v s) (hk : s.keeps e t) : r.agrees v t := h.same hk.frame

theorem State.agrees.lastApplies (h : r.agrees v s) : r.agrees v s.lastApplies :=
  h.foldl fun t x ht => ht.of_within (t.within_refl x.1 true).flushApplies

theorem State.agrees.openAll (h : r.agrees v s) : r.agrees v s.openAll :=
  h.foldl fun t x ht => ht.of_within (t.within_refl x.1 true).openWindows

theorem State.agrees.endTasks (h : r.agrees View.pace s) : r.agrees View.pace s.endTasks := by
  unfold State.endTasks
  extract_lets u w
  have hu : r.agrees View.pace u := h.foldl fun _ _ ht => ht.finishTask
  have hw : r.agrees View.pace w := hu.foldl fun _ _ ht => ht.foldl fun _ _ hx => (hx.when (·.killTask)).modCore
  exact hw.alter

theorem State.agrees.takeResumes (h : r.agrees View.pace s) : r.agrees View.pace s.takeResumes := by
  unfold State.takeResumes
  extract_lets u
  have hu : r.agrees View.pace u := h.foldl fun _ _ ht => ht.foldl fun _ _ hx => hx.at
  exact hu.alter

theorem State.agrees.applyPartset (h : r.agrees View.pace s) : r.agrees View.pace s.applyPartset := by
  unfold State.applyPartset
  extract_lets lifted u
  have hu : r.agrees View.pace u := h.foldl fun _ _ ht => ht.when fun hx => hx.foldl fun _ _ hy => hy.modCore
  exact hu.alter

/-- The end of a phase leaves the pace. -/
theorem State.agrees.endPhase (h : r.agrees View.pace s) : r.agrees View.pace s.endPhase := by
  unfold State.endPhase
  have hl : r.agrees View.pace s.lastApplies.orderLoose := h.lastApplies.same
  rw [State.takePreempts_eq]
  exact (hl.openAll.endTasks.preemptAll (fun _ _ _ _ => rfl) _).takeResumes.applyPartset

theorem State.agrees.quiesce {cyc : Nat} {valids : Bool} (h : r.agrees v s) : r.agrees v (s.quiesce c cyc valids) :=
  h.of_within (s.within_refl c true).quiesce

theorem State.agrees.continueTask {cls : Nat} (h : r.agrees v s) : r.agrees v (s.continueTask c cls) := by
  unfold State.continueTask
  exact h.modCore.quiesce.at

/-! ### The walker -/

theorem State.agrees.startPrepared (h : r.agrees View.pace s) : r.agrees View.pace s.startPrepared := by
  unfold State.startPrepared
  refine h.unless fun h => h.foldl fun t x ht => ?_
  extract_lets k
  split
  · exact ht
  · next e =>
    extract_lets d
    refine ht.when fun ht => ?_
    have hd : r.agrees View.pace { t with draw := d } := ht.alter
    unfold State.startTask
    split
    · exact hd
    · extract_lets u w
      have hw : r.agrees View.pace w := State.agrees.drop (hd.same (t := u))
      exact hw.modCore.at

theorem State.agrees.prepare {x : Record} {k : Nat} (h : r.agrees v s) : r.agrees v (s.prepare c x k) := by
  unfold State.prepare
  extract_lets
  exact h.modCore

theorem State.agrees.bind {x : Record} {k : Nat} (h : r.agrees v s) : r.agrees v (s.bind x c k) := by
  unfold State.bind
  extract_lets image bad u
  have hu : r.agrees v u := h.modRecord.prepare
  exact hu.when fun hu => hu.modCore.failRecord

theorem State.agrees.setCredit {p k x : Nat} (h : r.agrees View.pace s) : r.agrees View.pace (s.setCredit p k x) := h.alter

theorem State.agrees.bindPart {p n : Nat} (h : r.agrees View.pace s) : r.agrees View.pace (s.bindPart p n) := by
  induction n generalizing s with
  | zero => exact h
  | succ n ih =>
    unfold State.bindPart
    extract_lets free cand prios
    refine h.unless fun h => ?_
    split
    · exact ih (h.foldl fun _ _ ht => ht.setCredit)
    · split
      · exact h
      · split
        · exact ih h.bind.setCredit
        · exact h

theorem State.agrees.bindAll (h : r.agrees View.pace s) : r.agrees View.pace s.bindAll := by
  unfold State.bindAll
  exact h.when fun h => h.foldl fun _ _ ht => ht.bindPart

theorem State.agrees.activate (h : r.agrees View.pace s) : r.agrees View.pace s.activate := by
  unfold State.activate
  refine State.agrees.headWork (fun _ _ _ _ _ => rfl) (h.foldl fun t q ht => ?_)
  split
  · exact ht
  · split
    · exact ht
    · extract_lets timed
      refine ht.when fun ht => ht.readEntry (fun _ _ _ _ _ => rfl) fun u hu => ?_
      extract_lets w x
      have hw : r.agrees View.pace w := hu.alter
      have hx : r.agrees View.pace x := hw.modRecord
      split
      · extract_lets y
        have hy : r.agrees View.pace y := hx.when (·.postEvent)
        exact hy.modRecord.checkRecord
      · exact hx.checkRecord

theorem State.agrees.walk (h : r.agrees View.pace s) : r.agrees View.pace s.walk :=
  (h.unless (·.at)).activate.startPrepared.bindAll

/-- The begin of a phase leaves the pace that the counter's step gives. -/
theorem State.agrees.beginPhase {carried : List Nat} {goes : List (Nat × Nat)} (h : r.agrees View.pace s) :
    r.agrees View.pace (s.beginPhase carried goes) := by
  have hgo : r.agrees View.pace ((s.setBudget carried).goOn goes) :=
    State.agrees.foldl (h.alter (t := s.setBudget carried)) fun _ _ ht => ht.continueTask
  have hq : r.agrees View.pace ((s.setBudget carried).goOn goes).quiesceArrived := hgo.foldl fun _ _ ht => ht.quiesce
  have hk : r.agrees View.pace ((s.setBudget carried).goOn goes).quiesceArrived.keepHalted := hq.alter
  have hr : r.agrees View.pace ((s.setBudget carried).goOn goes).quiesceArrived.keepHalted.releaseAll :=
    hk.foldl fun t x ht => ht.when fun ht => ht.of_keeps (t.keeps_releaseWaitt x.1)
  have hw : r.agrees View.pace ((s.setBudget carried).goOn goes).quiesceArrived.keepHalted.releaseAll.phaseWork :=
    State.agrees.ite (hr.alter (t := State.updatePages _)) hr.walk
  exact ((hw.when (·.at)).unless (·.at)).foldl fun _ _ ht => ht.when (·.checkBarriers)

end Pace

/-! ### The step of the counter (R32, R42, R44, R428) -/

/-- CADCTL of the phase that begins: a drive that reverts is barrier-driven. -/
def State.nextCtl (s : State) : W64 := if s.reverting then setField s.cadNew.ctl 0 1 0 else s.cadNew.ctl

theorem State.nextCtl_bit (s : State) (b : Nat) :
    s.nextCtl.getLsbD b = (s.cadNew.ctl.getLsbD b && !(s.reverting && decide (b = 0))) := by
  unfold State.nextCtl
  cases hr : s.reverting with
  | false => simp
  | true =>
    rw [if_pos rfl, setField_getLsbD _ _ _ (by omega)]
    by_cases hb : b = 0
    · subst hb; simp
    · rw [if_neg (by omega)]; simp [hb]

/-- The cadence registers that wait, once a drive that reverts has done so. -/
def State.nextCad (s : State) : Cad := { s.cadNew with ctl := s.nextCtl }

/-- The state at cycle 0 of the next phase, but for its scheduled end. -/
def State.counted (s : State) : State :=
  { s with
    count := s.nextCount, armed := none, phStart := s.cyc, decided := none, reverting := false
    cad := if s.nextCtl.getLsbD 0 then { s.nextCad with tbase := s.cad.tbase } else s.nextCad
    cadNew := s.nextCad, driven := s.nextCtl.getLsbD 0 }

/-- The step places a scheduled boundary, and does else what is said of it. -/
theorem State.stepCadence_eq (s : State) : ∃ b, s.stepCadence = { s.counted with tbound := b } ∨
    s.stepCadence = ({ s.counted with tbound := b } : State).placeBoundary := by
  unfold State.stepCadence
  extract_lets was ctl new u per
  split
  · exact ⟨_, .inr rfl⟩
  · exact ⟨s.tbound, .inl rfl⟩

theorem State.stepCadence_pace (s : State) : s.stepCadence.pace = s.counted.pace := by
  obtain ⟨b, h | h⟩ := s.stepCadence_eq <;> rw [h]
  · rfl
  · exact ((State.agrees_refl View.pace s.counted).alter (t := { s.counted with tbound := b })).placeBoundary

/-- The pace of the phase that begins rests on the pace of the one that ends. -/
theorem State.counted_congr {s t : State} (h : t.pace = s.pace) : t.counted.pace = s.counted.pace := by
  simp only [State.pace, Prod.mk.injEq] at h
  obtain ⟨hnow, hcount, -, -, harmed, hrev, -, hcad, hnew⟩ := h
  have hctl : t.nextCtl = s.nextCtl := by rw [State.nextCtl, hrev, hnew, State.nextCtl]
  have hnc : t.nextCad = s.nextCad := by rw [State.nextCad, hctl, hnew, State.nextCad]
  have hcnt : t.nextCount = s.nextCount := by rw [State.nextCount, harmed, hcount, State.nextCount]
  have hcyc : t.cyc = s.cyc := by rw [State.cyc, hnow, State.cyc]
  simp only [State.pace, State.counted, hctl, hnc, hcnt, hcyc, hnow, hcad]

/-- What the boundary leaves of the counter and the cadence registers. -/
theorem State.turned_pace (s : State) : s.turned.pace = s.counted.pace := by
  have hend : s.endPhase.pace = s.pace := (State.agrees_refl View.pace s).endPhase
  have hbegin : s.turned.pace = s.endPhase.stepCadence.pace := (State.agrees_refl View.pace s.endPhase.stepCadence).beginPhase
  rw [hbegin, State.stepCadence_pace, State.counted_congr hend]

end Sys2Proof.Machine

/-! PROOFS. A task at the boundary: one that has arrived goes on, and one that has ended is over (O35). -/

namespace Sys2Proof.Machine

open Sys2Proof

/-! ### What the begin of a phase leaves of a core -/

/-- Whether core c is k but for its channel, with no record in work and some bundles about to issue. -/
structure State.rests (c : Nat) (k : Core) (its : List Item) (s : State) : Prop where
  core : (s.core c).channelless = k.channelless
  records : s.records = []
  lqs : s.lqs = []
  items : ∀ x ∈ its, x.ev = .issue ∧ x ∈ s.agenda

/-- The translation entries that take effect at a quiescent point are posted. -/
theorem State.adds_quiesce (s : State) (c cyc : Nat) (valids : Bool) : s.adds (s.quiesce c cyc valids) := by
  have hinval := (State.adds_refl s).foldl (xs := (s.core c).tt)
    (f := fun s e => if e.2.inval.isSome then s.at c cyc pTte (.run (argFocus c e.1) .translationInvalidate) else s)
    fun _ _ ht => ht.when (·.at)
  unfold State.quiesce
  extract_lets k
  split
  · refine hinval.foldl fun t e ht => ?_
    split
    · exact ht.at
    · exact ht
  · exact hinval

/-- A bundle that is about to issue stays so when a chain that has waited goes on. -/
theorem State.mem_releaseWaitt {s : State} {x : Item} (c : Nat) (hx : x ∈ s.agenda) (he : x.ev = .issue) : x ∈ (s.releaseWaitt c).agenda := by
  have hstop : ∀ (t : State) (d tick : Nat), x ∈ t.agenda → x ∈ (t.stopChain d tick).agenda := fun t d tick h => by
    have hd : x ∈ ((t.drop d (Ev.ofChain d)).modCore d fun k =>
        { k with ch := { k.ch with run := none, lastRun := (k.ch.run.map (·.start)).or k.ch.lastRun } }).agenda :=
      List.mem_filter.mpr ⟨h, by rw [he]; simp [Ev.ofChain]⟩
    unfold State.stopChain State.wakeIdle
    extract_lets f
    split
    · exact hd
    · exact mem_insertItem.mpr (.inr hd)
  have hnext : ∀ (t : State) (idx last : Nat), x ∈ t.agenda → x ∈ (t.chainNext idx last).agenda := fun t idx last h => by
    unfold State.chainNext
    extract_lets u dt
    split
    · exact hstop u _ _ h
    · exact mem_insertItem.mpr (.inr h)
  unfold State.releaseWaitt
  split
  · split
    · exact hnext _ _ _ hx
    · exact hx
  · exact hx

/-- What the begin of a phase places. -/
theorem State.adds_placements (s : State) : s.adds s.placeArmingCheck.placeBudget.checkParked := by
  have ha : s.adds s.placeArmingCheck := (State.adds_refl s).when (·.at)
  have hb : s.adds s.placeArmingCheck.placeBudget := by
    unfold State.placeBudget
    split
    · exact ha
    · exact ha.at
  exact hb.foldl fun t x ht => ht.when (·.checkBarriers)

section Rests

variable {c : Nat} {k : Core} {its : List Item} {s t : State}

theorem State.rests.adds (h : s.rests c k its) (ha : s.adds t) : t.rests c k its :=
  ⟨(congrArg Core.channelless (ha.core c)).trans h.core, (congrArg State.records ha.eq :).trans h.records, (congrArg State.lqs ha.eq :).trans h.lqs,
    fun x hx => ⟨(h.items x hx).1, ha.mem x (h.items x hx).2⟩⟩

theorem State.rests.at {d cyc prio : Nat} {ev : Ev} (h : s.rests c k its) : (s.at d cyc prio ev).rests c k its :=
  h.adds (State.adds_refl s).at

theorem State.rests.alter (h : s.rests c k its) (hc : t.cores = s.cores := by rfl) (hr : t.records = s.records := by rfl)
    (hl : t.lqs = s.lqs := by rfl) (ha : t.agenda = s.agenda := by rfl) : t.rests c k its := by
  refine ⟨?_, hr.trans h.records, hl.trans h.lqs, fun x hx => ⟨(h.items x hx).1, ha ▸ (h.items x hx).2⟩⟩
  rw [State.core, hc]
  exact h.core

theorem State.rests.when {p : Prop} [Decidable p] (h : s.rests c k its) (h' : s.rests c k its → t.rests c k its) :
    (if p then t else s).rests c k its := by
  split
  · exact h' h
  · exact h

theorem State.rests.foldl {α : Type} {f : State → α → State} {xs : List α} (h : s.rests c k its)
    (hf : ∀ t x, State.rests c k its t → (f t x).rests c k its) : (xs.foldl f s).rests c k its :=
  List.foldlRecOn _ _ h fun t ht x _ => hf t x ht

theorem State.rests.releaseWaitt (h : s.rests c k its) (d : Nat) : (s.releaseWaitt d).rests c k its := by
  have hk := s.keeps_releaseWaitt d
  have hm : ∀ x ∈ its, x.ev = .issue ∧ x ∈ (s.releaseWaitt d).agenda := fun x hx =>
    ⟨(h.items x hx).1, State.mem_releaseWaitt d (h.items x hx).2 (h.items x hx).1⟩
  generalize s.releaseWaitt d = t at hk hm
  have ht : t = { s with cores := t.cores, agenda := t.agenda } := by rw [← hk.1]
  exact ⟨(hk.2 c).trans h.core, (congrArg State.records ht :).trans h.records, (congrArg State.lqs ht :).trans h.lqs, hm⟩

/-! Without a record there is nothing to activate, to start or to bind. -/

theorem State.activate_of_nil (hl : s.lqs = []) : s.activate = s := by
  unfold State.activate State.headWork
  rw [hl]
  exact congrArg (fun l : List (Nat × List Nat) => l.foldl _ s) hl

theorem State.startPrepared_of_nil (hr : s.records = []) : s.startPrepared = s := by
  unfold State.startPrepared
  split
  · rfl
  · refine List.foldlRecOn (motive := fun t => t = s) _ _ rfl fun t ht x _ => ?_
    subst ht
    have hrec : ((t.core x.1).record.bind t.record?) = none := by
      cases (t.core x.1).record with
      | none => rfl
      | some id => show t.record? id = none; rw [State.record?, hr]; rfl
    dsimp only
    rw [hrec]

theorem State.bindPart_of_nil (hr : s.records = []) (p n : Nat) : s.bindPart p n = s := by
  cases n with
  | zero => rfl
  | succ n =>
    unfold State.bindPart
    extract_lets free cand prios
    exact if_pos (by dsimp only [cand]; rw [hr]; rfl)

theorem State.bindAll_of_nil (hr : s.records = []) : s.bindAll = s := by
  unfold State.bindAll
  split
  · exact List.foldlRecOn (motive := fun t => t = s) _ _ rfl fun t ht p _ => by subst ht; exact State.bindPart_of_nil hr p 1024
  · rfl

theorem State.rests.walk (h : s.rests c k its) : s.walk.rests c k its := by
  have h1 : (if s.pages = [] then s else s.at 0 s.cyc pTte .switchPages).rests c k its := by
    split
    · exact h
    · exact h.at
  unfold State.walk
  rw [State.activate_of_nil h1.lqs, State.startPrepared_of_nil h1.records, State.bindAll_of_nil h1.records]
  exact h1

/-- Once the tasks that go on have done so, the begin of a phase leaves a core's record but for its channel. -/
theorem State.rests.beginPhase {carried : List Nat} {goes : List (Nat × Nat)} (h : ((s.setBudget carried).goOn goes).rests c k its) :
    (s.beginPhase carried goes).rests c k its := by
  have hq : ((s.setBudget carried).goOn goes).quiesceArrived.rests c k its := h.foldl fun t x ht => ht.adds (t.adds_quiesce ..)
  have hk : ((s.setBudget carried).goOn goes).quiesceArrived.keepHalted.rests c k its := hq.alter
  have hr : ((s.setBudget carried).goOn goes).quiesceArrived.keepHalted.releaseAll.rests c k its :=
    hk.foldl fun t x ht => ht.when (·.releaseWaitt x.1)
  have hw : ((s.setBudget carried).goOn goes).quiesceArrived.keepHalted.releaseAll.phaseWork.rests c k its := by
    unfold State.phaseWork
    split
    · exact hr.alter
    · exact hr.walk
  exact hw.adds (State.adds_placements _)

end Rests

/-! ### One task, and no other work -/

/-- Whether a state holds one core alone, with no record, and nothing waits for the boundary. -/
structure State.lone (s : State) (c : Nat) (k : Core) : Prop where
  cores : s.cores = [(c, k)]
  lqs : s.lqs = []
  records : s.records = []
  quarantine : s.quarantine = []
  preempt : s.preempt = []
  resuming : s.resuming = []
  partset : s.partset = []

/-- Whether a task has arrived, and nothing drains. -/
structure Core.arrivedWith (k : Core) (a : Arrival) : Prop where
  life : k.life = .task
  arrival : k.arrival = some a
  counted : a.counted ≠ none
  drain : k.drain = none
  phase : k.phase = none

theorem Core.arrivedWith.of_steady {k k' : Core} {a : Arrival} (h : k.arrivedWith a) (hk : k'.steady false = k.steady false) :
    k'.arrivedWith a :=
  ⟨(congrArg (fun k : Core => k.life) hk :).trans h.life, (congrArg (fun k : Core => k.arrival) hk :).trans h.arrival, h.counted,
    (congrArg (fun k : Core => k.drain) hk :).trans h.drain, (congrArg (fun k : Core => k.phase) hk :).trans h.phase⟩

section Lone

variable {s : State} {c : Nat} {k : Core} {a : Arrival}

theorem State.lone.core (h : s.lone c k) : s.core c = k := by
  rw [State.core, h.cores, Sp.get, if_pos rfl]

/-- A state that holds one core at most and in which that core is not as reset leaves it holds just that core. -/
theorem State.cores_of_sole (h : s.sole c) (hl : (s.core c).life ≠ .free) : s.cores = [(c, s.core c)] := by
  rcases h.2 with he | ⟨k, he⟩
  · rw [State.core, he] at hl
    exact absurd rfl hl
  · have hk : s.core c = k := by rw [State.core, he, Sp.get, if_pos rfl]
    rw [he, hk]

/-- Changes of the one core that leave its task leave the state so. -/
theorem State.lone.within {t : State} {mem : Bool} (h : s.lone c k) (hl : k.life ≠ .free) (hw : s.within c mem t) : t.lone c (t.core c) := by
  have hsole := hw.sole ⟨h.records, .inr ⟨k, h.cores⟩⟩
  have hlife : (t.core c).life = k.life := by
    rw [← h.core]
    exact (congrArg (fun k : Core => k.life) hw.core :)
  exact ⟨State.cores_of_sole hsole (hlife ▸ hl), (hw.agrees.eq State.lqs).trans h.lqs, hsole.1, (hw.agrees.eq State.quarantine).trans h.quarantine,
    (hw.agrees.eq State.preempt).trans h.preempt, (hw.agrees.eq State.resuming).trans h.resuming, (hw.agrees.eq State.partset).trans h.partset⟩

/-- With nothing left to apply the end of a phase opens the intervals of the arrival, and leaves the rest of the core. -/
theorem State.lone.openAll (h : s.lone c k) (ha : k.arrivedWith a) (hw : ∀ e : Fin 32, (k.win[e]).applying = false) :
    ∃ k', s.lastApplies.orderLoose.openAll.lone c k' ∧ k'.steady false = k.steady false := by
  have hnone : (k.win.toList.any (·.applying)) = false := by
    rw [List.any_eq_false]
    intro w hw'
    obtain ⟨i, hi, rfl⟩ := List.getElem_of_mem hw'
    have := hw ⟨i, by simpa using hi⟩
    simpa using this
  have hlast : s.lastApplies = s := by
    unfold State.lastApplies
    rw [h.cores, List.filter_cons_of_neg (by simp [hnone])]
    rfl
  rw [hlast]
  have hord : s.orderLoose.lone c (k.ordered (s.decided.getD s.cyc)) :=
    ⟨by rw [State.orderLoose, h.cores]; rfl, h.lqs, h.records, h.quarantine, h.preempt, h.resuming, h.partset⟩
  have hopen : s.orderLoose.openAll = s.orderLoose.openWindows c (s.orderLoose.fenceMask c (k.ordered (s.decided.getD s.cyc))) s.orderLoose.nextCount := by
    unfold State.openAll
    rw [hord.cores, List.foldl_cons, List.foldl_nil]
  have hin : s.orderLoose.within c false s.orderLoose.openAll := by
    rw [hopen]
    exact (s.orderLoose.within_refl c false).openWindows
  have hlife : (k.ordered (s.decided.getD s.cyc)).life ≠ .free := by
    rw [show (k.ordered (s.decided.getD s.cyc)).life = k.life from rfl, ha.life]
    exact nofun
  refine ⟨_, hord.within hlife hin, hin.core.trans ?_⟩
  rw [hord.core]
  rfl

/-- The tasks that end by their arrival are over. -/
def State.endArrived (s : State) : State := (s.cores.filter fun x => s.taskEnds x.2).foldl (fun s x => s.finishTask x.1) s

/-- What is at work, and what waits for a boundary. -/
def State.boundaryWork (s : State) : List (Nat × Core) × List Record × List (Nat × List Nat) × List Nat × List Nat :=
  (s.cores, s.records, s.lqs, s.quarantine, s.preempt)

theorem State.takeResumes_boundaryWork (h : s.resuming = []) : s.takeResumes.boundaryWork = s.boundaryWork := by
  unfold State.takeResumes
  rw [h]
  rfl

theorem State.applyPartset_boundaryWork (h : s.partset = []) : s.applyPartset.boundaryWork = s.boundaryWork := by
  unfold State.applyPartset
  extract_lets lifted u
  have hu : u = s := by
    dsimp only [u]
    rw [h]
    rfl
  rw [hu]
  rfl

/-- Without a quarantine the tasks that end at a boundary are those that end by their arrival. -/
theorem State.endTasks_of_nil (hq : s.endArrived.quarantine = []) (hp : s.endArrived.preempt = []) :
    s.endTasks.boundaryWork = s.endArrived.boundaryWork ∧ s.endTasks.preempt = [] ∧ s.endTasks.resuming = s.endArrived.resuming ∧
    s.endTasks.partset = s.endArrived.partset := by
  unfold State.endTasks
  extract_lets u w
  have hu : u = s.endArrived := rfl
  have hw : w = s.endArrived := by
    dsimp only [w]
    rw [hu, hq]
    rfl
  clear_value u w
  subst hu hw
  refine ⟨?_, ?_, rfl, rfl⟩
  · simp only [State.boundaryWork, hq, hp, List.filter_nil]
  · simp only [hp, List.filter_nil]

/-- With nothing else that waits for the boundary, the end of a phase ends those tasks alone. -/
theorem State.endPhase_boundaryWork (hq : s.endArrived.quarantine = []) (hp : s.endArrived.preempt = []) (hr : s.endArrived.resuming = [])
    (hs : s.endArrived.partset = []) : s.endTasks.takePreempts.takeResumes.applyPartset.boundaryWork = s.endArrived.boundaryWork := by
  obtain ⟨hload, hpre, hres, hpart⟩ := State.endTasks_of_nil hq hp
  rw [State.takePreempts_of_nil hpre]
  have hp' : s.endTasks.takeResumes.partset = [] := by
    unfold State.takeResumes
    rw [hres.trans hr]
    exact hpart.trans hs
  rw [State.applyPartset_boundaryWork hp', State.takeResumes_boundaryWork (hres.trans hr), hload]

theorem State.stepCadence_boundaryWork (s : State) : s.stepCadence.boundaryWork = s.boundaryWork := by
  have hplace : ∀ t : State, t.placeBoundary.boundaryWork = t.boundaryWork := fun t => by
    unfold State.placeBoundary
    split <;> rfl
  obtain ⟨b, h | h⟩ := s.stepCadence_eq <;> rw [h]
  · rfl
  · exact hplace _

/-! ### A task that goes on (R36, R40) -/

/-- A core that goes on into the next phase. -/
def Core.continued (k : Core) (cls : Nat) : Core :=
  { k with
    life := .task, arrival := none, pclass := cls, phase := none, shift := 0, shadow := none, dayNext := none, replay := [], replayed := 0
    opsLeft := 0, rolls := 0, verify := none, barQ := false, barD := false, issued := none }

/-- A core that goes on issues at cycle 0. -/
theorem State.rests_continueTask (s : State) (c cls : Nat) (hr : s.records = []) (hl : s.lqs = []) :
    (s.continueTask c cls).rests c ((s.core c).continued cls) [⟨max (3 * s.cyc) s.now, pIssue, c, .issue⟩] := by
  have ha := (s.modCore c (·.continued cls)).adds_quiesce c s.cyc false
  have hm : ((s.modCore c (·.continued cls)).quiesce c s.cyc false).now = s.now := ha.now
  have hmod : (s.modCore c (·.continued cls)).rests c ((s.core c).continued cls) [] :=
    ⟨by rw [State.core_modCore_same], hr, hl, fun _ hx => absurd hx List.not_mem_nil⟩
  have hat : (s.continueTask c cls).rests c ((s.core c).continued cls) [] := (hmod.adds ha).at
  refine ⟨hat.core, hat.records, hat.lqs, fun x hx => ?_⟩
  rw [List.mem_singleton.mp hx]
  exact ⟨rfl, mem_insertItem.mpr (.inl (congrArg (fun n => (⟨max (3 * s.cyc) n, pIssue, c, .issue⟩ : Item)) hm.symm))⟩

theorem State.taskEnds_of_going (s : State) (ha : k.arrivedWith a) (he : a.ends = false) : s.taskEnds k = false := by
  unfold State.taskEnds
  rw [ha.arrival]
  simp [he]

/-- The class that a task declares with its arrival. -/
theorem State.declared_of_arrived (hq : s.quarantine = []) (hp : s.preempt = []) (ha : k.arrivedWith a) (he : a.ends = false) :
    s.declared c k = if a.pclass = 0 then k.deftClass else a.pclass := by
  unfold State.declared
  rw [hq, hp, s.taskEnds_of_going ha he, ha.life, ha.phase, ha.arrival]
  rfl

/-- A task whose arrival counts goes on, in the class that it declares. -/
theorem State.goers_of_arrived (hc : s.cores = [(c, k)]) (hq : s.quarantine = []) (hp : s.preempt = []) (ha : k.arrivedWith a)
    (he : a.ends = false) : s.goers = [(c, if a.pclass = 0 then k.deftClass else a.pclass)] := by
  have harr : k.arrived = true := by
    rw [Core.arrived, ha.arrival]
    exact Option.isSome_iff_ne_none.mpr ha.counted
  have hgo : (k.drain.isNone && (s.fenceMask c k).isSome) = true := by
    rw [State.fenceMask, harr, ha.drain, ha.life, ha.phase, ha.arrival]
    rfl
  unfold State.goers
  rw [hc, List.filter_cons_of_pos (p := fun x : Nat × Core => x.2.drain.isNone && (s.fenceMask x.1 x.2).isSome) hgo, List.filter_nil,
    List.map_singleton, State.declared_of_arrived hq hp ha he]

theorem State.endArrived_of_going (hc : s.cores = [(c, k)]) (ha : k.arrivedWith a) (he : a.ends = false) : s.endArrived = s := by
  have hnot : ¬ s.taskEnds k = true := by
    rw [s.taskEnds_of_going ha he]
    exact Bool.noConfusion
  unfold State.endArrived
  rw [hc, List.filter_cons_of_neg (p := fun x : Nat × Core => s.taskEnds x.2) hnot, List.filter_nil, List.foldl_nil]

/-- A task that has arrived is alone at work when the phase has ended. -/
theorem State.endPhase_of_going (h : s.lone c k) (ha : k.arrivedWith a) (hw : ∀ e : Fin 32, (k.win[e]).applying = false) (he : a.ends = false) :
    ∃ k' : Core, k'.steady false = k.steady false ∧ s.endPhase.boundaryWork = ([(c, k')], [], [], [], []) := by
  obtain ⟨k', hlone, hk⟩ := h.openAll ha hw
  refine ⟨k', hk, ?_⟩
  unfold State.endPhase
  generalize s.lastApplies.orderLoose.openAll = w at hlone
  have hend : w.endArrived = w := State.endArrived_of_going hlone.cores (ha.of_steady hk) he
  rw [State.endPhase_boundaryWork (by rw [hend]; exact hlone.quarantine) (by rw [hend]; exact hlone.preempt) (by rw [hend]; exact hlone.resuming)
    (by rw [hend]; exact hlone.partset), hend, State.boundaryWork, hlone.cores, hlone.records, hlone.lqs, hlone.quarantine, hlone.preempt]

/-- The step of the counter takes no time. -/
theorem State.stepCadence_now (s : State) : s.endPhase.stepCadence.now = s.now :=
  congrArg Prod.fst ((State.stepCadence_pace s.endPhase).trans (State.counted_congr ((State.agrees_refl View.pace s).endPhase)))

/-- The one task that has arrived is on its way into the next phase. -/
theorem State.turned_of_going (h : s.lone c k) (ha : k.arrivedWith a) (hw : ∀ e : Fin 32, (k.win[e]).applying = false) (he : a.ends = false) :
    ∃ k' : Core, k'.steady false = k.steady false ∧
      s.turned.rests c (k'.continued (if a.pclass = 0 then k'.deftClass else a.pclass)) [⟨max (3 * s.cyc) s.now, pIssue, c, .issue⟩] := by
  obtain ⟨k', hk, hwork⟩ := State.endPhase_of_going h ha hw he
  have hnow := s.stepCadence_now
  have hstep := s.endPhase.stepCadence_boundaryWork
  unfold State.turned
  generalize s.endPhase = u at hwork hnow hstep
  rw [hwork] at hstep
  simp only [State.boundaryWork, Prod.mk.injEq] at hwork hstep
  obtain ⟨hcores, -, -, hquar, hpre⟩ := hwork
  obtain ⟨hcores', hrecords, hlqs, -, -⟩ := hstep
  refine ⟨k', hk, ?_⟩
  rw [State.goers_of_arrived hcores hquar hpre (ha.of_steady hk) he]
  refine State.rests.beginPhase ?_
  have hgo := State.rests_continueTask (u.stepCadence.setBudget s.carried) c (if a.pclass = 0 then k'.deftClass else a.pclass) hrecords hlqs
  have hcore : (u.stepCadence.setBudget s.carried).core c = k' := by
    show Sp.get Core.reset u.stepCadence.cores c = k'
    rw [hcores', Sp.get, if_pos rfl]
  have htick : max (3 * (u.stepCadence.setBudget s.carried).cyc) (u.stepCadence.setBudget s.carried).now = max (3 * s.cyc) s.now :=
    congrArg (fun n => max (3 * (n / 3)) n) hnow
  rw [hcore, htick] at hgo
  exact hgo

/-! ### A task that is over (R30, R362) -/

/-- A core whose task is over, and whose record has been told. -/
def Core.overWith (k : Core) (last : Option Nat) : Core := { k.freed with record := none, lastRecord := last }

/-- Without records the end of a task's part in its record is noted on its core alone. -/
theorem State.releaseRecord_of_nil (h : s.records = []) : s.releaseRecord c = match (s.core c).record with
    | none => s
    | some id => s.modCore c fun k => { k with record := none, lastRecord := some id } := by
  have hmod : ∀ (t : State) id f, t.records = [] → t.modRecord id f = t := fun t id f ht => by
    show { t with records := t.records.map _ } = t
    rw [ht, List.map_nil, ← ht]
  have hcheck : ∀ (t : State) id, t.records = [] → t.checkRecord id = t := fun t id ht => by
    unfold State.checkRecord
    rw [State.record?, ht]
    rfl
  unfold State.releaseRecord
  cases (s.core c).record with
  | none => rfl
  | some id => exact (congrArg (State.checkRecord · id) (hmod (s.modCore c _) id _ h)).trans (hcheck _ id h)

/-- The end of a task frees its core, and no record is left to tell. -/
theorem State.finishTask_of_lone (h : s.lone c k) (ha : k.arrivedWith a) : ∃ (k' : Core) (last : Option Nat), k'.life = .task ∧
    (s.finishTask c).core c = k'.overWith last ∧ (s.finishTask c).sole c := by
  obtain ⟨u, hu, he⟩ := s.finishTask_eq c
  have hsole : (u.modCore c Core.freed).sole c := (hu.sole ⟨h.records, .inr ⟨k, h.cores⟩⟩).setCore _
  have hlife : (u.core c).life = .task := by
    rw [← ha.life, ← h.core]
    exact (congrArg (fun k : Core => k.life) hu.core :)
  rw [he, State.releaseRecord_of_nil hsole.1]
  split
  · next hnone =>
    refine ⟨u.core c, (u.core c).lastRecord, hlife, ?_, hsole⟩
    rw [State.core_modCore_same] at hnone ⊢
    show (u.core c).freed = { (u.core c).freed with record := none, lastRecord := (u.core c).lastRecord }
    rw [← hnone]
    rfl
  · next id hid =>
    refine ⟨u.core c, some id, hlife, ?_, hsole.setCore _⟩
    rw [State.core_modCore_same, State.core_modCore_same]
    rfl

theorem State.endArrived_of_over (hc : s.cores = [(c, k)]) (ha : k.arrivedWith a) (he : a.ends = true) : s.endArrived = s.finishTask c := by
  have hends : s.taskEnds k = true := by
    unfold State.taskEnds
    rw [ha.arrival, ha.drain, ha.phase]
    simp [he, Option.isSome_iff_ne_none.mpr ha.counted]
  unfold State.endArrived
  rw [hc, List.filter_cons_of_pos (p := fun x : Nat × Core => s.taskEnds x.2) hends, List.filter_nil, List.foldl_cons, List.foldl_nil]

/-- A task that has ended is over when the phase has ended, and nothing is at work. -/
theorem State.endPhase_of_over (h : s.lone c k) (ha : k.arrivedWith a) (hw : ∀ e : Fin 32, (k.win[e]).applying = false) (he : a.ends = true) :
    ∃ (k' : Core) (last : Option Nat), k'.life = .task ∧ s.endPhase.core c = k'.overWith last ∧ s.endPhase.sole c ∧ s.endPhase.lqs = [] := by
  obtain ⟨k1, hlone, hk⟩ := h.openAll ha hw
  have ha1 := ha.of_steady hk
  unfold State.endPhase
  generalize s.lastApplies.orderLoose.openAll = w at hlone
  obtain ⟨k', last, hlife, hcore, hsole⟩ := State.finishTask_of_lone hlone ha1
  have hf : w.agrees View.frame (w.finishTask c) := (State.agrees_refl _ w).finishTask
  have hend : w.endArrived = w.finishTask c := State.endArrived_of_over hlone.cores ha1 he
  have hwork := State.endPhase_boundaryWork (s := w) (by rw [hend, hf.eq State.quarantine]; exact hlone.quarantine)
    (by rw [hend, hf.eq State.preempt]; exact hlone.preempt) (by rw [hend, hf.eq State.resuming]; exact hlone.resuming)
    (by rw [hend, hf.eq State.partset]; exact hlone.partset)
  rw [hend] at hwork
  generalize w.endTasks.takePreempts.takeResumes.applyPartset = u at hwork
  simp only [State.boundaryWork, Prod.mk.injEq] at hwork
  obtain ⟨hcores, hrecords, hlqs, -, -⟩ := hwork
  refine ⟨k', last, hlife, ?_, ?_, hlqs.trans ((hf.eq State.lqs).trans hlone.lqs)⟩
  · rw [State.core, hcores]
    exact hcore
  · unfold State.sole
    rw [hcores, hrecords]
    exact hsole

/-- A core without an arrival does not go on. -/
theorem State.goers_of_over (hs : s.sole c) (ha : (s.core c).arrival = none) : s.goers = [] := by
  unfold State.goers
  rcases hs.2 with hc | ⟨k, hc⟩
  · rw [hc]; rfl
  · have hk : k.arrival = none := by
      rw [State.core, hc, Sp.get, if_pos rfl] at ha
      exact ha
    have hstay : ¬ (k.drain.isNone && (s.fenceMask c k).isSome) = true := by
      rw [State.fenceMask, Core.arrived, hk]
      simp
    rw [hc, List.filter_cons_of_neg (p := fun x : Nat × Core => x.2.drain.isNone && (s.fenceMask x.1 x.2).isSome) hstay]
    rfl

/-- The one task that has ended is over. -/
theorem State.turned_of_over (h : s.lone c k) (ha : k.arrivedWith a) (hw : ∀ e : Fin 32, (k.win[e]).applying = false) (he : a.ends = true) :
    ∃ (k' : Core) (last : Option Nat), k'.life = .task ∧ s.turned.rests c (k'.overWith last) [] := by
  obtain ⟨k', last, hlife, hcore, hsole, hlqs⟩ := State.endPhase_of_over h ha hw he
  have hgoers : s.endPhase.goers = [] := State.goers_of_over hsole (by rw [hcore]; rfl)
  have hstep := s.endPhase.stepCadence_boundaryWork
  unfold State.turned
  rw [hgoers]
  generalize s.endPhase = u at hcore hsole hlqs hstep
  simp only [State.boundaryWork, Prod.mk.injEq] at hstep
  obtain ⟨hcores, hrecords, hlqs', -, -⟩ := hstep
  refine ⟨k', last, hlife, State.rests.beginPhase ⟨?_, hrecords.trans hsole.1, hlqs'.trans hlqs, fun _ hx => absurd hx List.not_mem_nil⟩⟩
  show (Sp.get Core.reset u.stepCadence.cores c).channelless = _
  rw [hcores]
  exact congrArg Core.channelless hcore

theorem Core.overWith_life (k : Core) (last : Option Nat) (h : k.life = .task) : (k.overWith last).life = .free := by
  show (if k.life = .retired then Life.retired else Life.free) = _
  rw [h]
  rfl

theorem Core.overWith_win (k : Core) (last : Option Nat) (e : Fin 32) : ((k.overWith last).win[e]).valid = false := by
  show ((k.win.map fun w : Window => ({ w with word0 := w.word0 &&& ~~~1, validNext := false } : Window))[e]).valid = false
  simp [Window.valid]

end Lone

/-- CADTBASE of an active schedule stays; else the cadence registers are those that waited. -/
theorem State.counted_cad (s : State) : s.counted.cad.ctl = s.counted.cadNew.ctl ∧ s.counted.cad.tper = s.counted.cadNew.tper ∧
    s.counted.cad.tbase = if s.counted.driven then s.cad.tbase else s.cadNew.tbase := by
  unfold State.counted
  dsimp only
  split <;> exact ⟨rfl, rfl, rfl⟩

/-! ### The obligation -/

/-- Settles O35: the boundary changes the counter and the cadence registers in its step of them alone, and looks for a decision at its end;
the one task that has arrived is followed through its parts. -/
theorem boundariesBeginPhases : Obligations.BoundariesBeginPhases := by
  intro s
  have hpace := s.turned_pace
  have hrests := fun c k (hl : s.lone c k) a (ha : k.arrivedWith a) hw => And.intro (State.turned_of_going hl ha hw) (State.turned_of_over hl ha hw)
  have hexec := s.phaseBoundary_eq
  generalize s.turned = u at hpace hrests hexec
  simp only [State.pace, Prod.mk.injEq] at hpace
  obtain ⟨hnow, hcount, hph, hdec, harmed, hrev, hdriven, hcad, hnew⟩ := hpace
  have hbit : ∀ b, s.nextCtl.getLsbD b = (s.cadNew.ctl.getLsbD b && !(s.reverting && decide (b = 0))) := s.nextCtl_bit
  have hdrive : u.driven = (s.cadNew.ctl.getLsbD 0 && !s.reverting) := hdriven.trans ((hbit 0).trans (by simp))
  refine ⟨_, hexec, hcount, harmed, hph, hdec, hrev, hnow, hdrive, ?_, ?_, ?_, fun b hb => ?_, ?_, ?_, ?_, ?_, ?_⟩
  · show u.cadNew.ctl.getLsbD 0 = u.driven
    rw [hnew, hdriven]
    rfl
  · show u.cadNew.tbase = _
    rw [hnew]
    rfl
  · show u.cadNew.tper = _
    rw [hnew]
    rfl
  · show u.cadNew.ctl.getLsbD b = _
    rw [hnew]
    exact (hbit b).trans (by simp [hb])
  · show u.cad.ctl = u.cadNew.ctl
    rw [hcad, hnew]
    exact (s.counted_cad).1
  · show u.cad.tper = u.cadNew.tper
    rw [hcad, hnew]
    exact (s.counted_cad).2.1
  · show u.cad.tbase = if u.driven then _ else _
    rw [hcad, hdriven]
    exact (s.counted_cad).2.2
  · have hcyc : u.cyc = s.cyc := congrArg (· / 3) hnow
    refine mem_insertItem.mpr (.inl ?_)
    rw [hcyc, hnow]
    rfl
  · intro c k a hcores hlqs hrecords hquar hpre hres hpart hlife harr hcounted hdrain hphase hwin
    obtain ⟨hgo, hover⟩ := hrests c k ⟨hcores, hlqs, hrecords, hquar, hpre, hres, hpart⟩ a ⟨hlife, harr, hcounted, hdrain, hphase⟩ hwin
    refine ⟨fun he => ?_, fun he => ?_⟩
    · obtain ⟨k', hk, hr⟩ := hgo he
      have hcore := hr.core
      have hclass : k'.deftClass = k.deftClass := (congrArg (fun k : Core => k.deftClass) hk :)
      refine ⟨(congrArg (fun k : Core => k.life) hcore :), (congrArg (fun k : Core => k.arrival) hcore :),
        (congrArg (fun k : Core => k.regs) hcore :).trans (congrArg (fun k : Core => k.regs) hk :),
        (congrArg (fun k : Core => k.spm) hcore :).trans (congrArg (fun k : Core => k.spm) hk :), ?_,
        mem_insertItem.mpr (.inr (hr.items _ (List.mem_singleton.mpr rfl)).2)⟩
      rw [← hclass]
      exact (congrArg (fun k : Core => k.pclass) hcore :)
    · obtain ⟨k', last, hl, hr⟩ := hover he
      have hcore := hr.core
      refine ⟨(congrArg (fun k : Core => k.life) hcore :).trans (k'.overWith_life last hl), (congrArg (fun k : Core => k.record) hcore :), fun e => ?_⟩
      exact (congrArg (fun k : Core => (k.win[e]).valid) hcore :).trans (k'.overWith_win last e)

end Sys2Proof.Machine

/-! PROOFS. The formats of the slot words (O1, O39): what a check accepts, what a field holds, and which words each format reads. -/

namespace Sys2Proof.Coding

open Laws.Encoding (guard_lt sel_lt psel_lt ksel_lt)

/-! ### What a check accepts -/

theorem le_bad {b : Bool} {code : Nat} (h : code < 99) : 99 ≤ bad b code ↔ b = false := by
  cases b with
  | false => simp [bad]
  | true => simp [bad]; omega

theorem le_foldl_min (n m : Nat) (cs : List Nat) : n ≤ cs.foldl Nat.min m ↔ n ≤ m ∧ ∀ c ∈ cs, n ≤ c := by
  induction cs generalizing m with
  | nil => simp
  | cons c cs ih =>
    rw [List.foldl_cons, ih, show Nat.min m c = m ⊓ c from rfl, le_inf_iff]
    simp [and_assoc]

theorem le_ckSlot {s : Slot} {i : Instr} : 99 ≤ ckSlot s i ↔ i.permitted s = true := by
  rw [ckSlot, le_bad (by decide)]
  simp

/-- A word is decoded when the slot permits the form and every check passes (R382). -/
theorem chk_eq_ok {s : Slot} {cs : List Nat} {i j : Instr} :
    chk s cs j = .ok i ↔ j = i ∧ j.permitted s = true ∧ ∀ c ∈ cs, 99 ≤ c := by
  have hle : cs.foldl Nat.min (ckSlot s j) ≤ 99 := by
    refine (le_foldl_min _ _ cs |>.1 le_rfl).1.trans ?_
    unfold ckSlot bad
    split <;> decide
  rw [← le_ckSlot, ← le_foldl_min, chk]
  split
  next h => simp [h]
  next h =>
    refine ⟨nofun, fun ⟨_, h'⟩ => absurd (le_antisymm hle h') h⟩

theorem le_ckIs {x v : Nat} : 99 ≤ ckIs x v ↔ x = v := by
  rw [ckIs, le_bad (by decide)]
  simp

/-! ### The operands -/

@[simp] theorem toSel_enc (a : Sel) : toSel a.enc = a := by
  cases a with
  | reg r => revert r; decide
  | lit n => revert n; decide
  | zero => rfl
  | one => rfl
  | cb n => revert n; decide

@[simp] theorem toPSel_enc (a : PSel) : toPSel a.enc = a := by
  cases a with
  | q n => revert n; decide
  | zero => rfl
  | one => rfl

@[simp] theorem toKSel_enc (a : KSel) : toKSel a.enc = a := by
  cases a with
  | k n => revert n; decide
  | zero => rfl
  | one => rfl

theorem le_ckSel {L a : Nat} (ha : a < 64) : 99 ≤ ckSel L a ↔ (toSel a).enc = a ∧ (toSel a).ok L = true := by
  rw [ckSel, le_bad (by decide)]
  unfold toSel
  split_ifs <;> simp [Sel.enc, Sel.ok] <;> omega

theorem le_ckCtl {L a : Nat} (ha : a < 64) : 99 ≤ ckCtl L a ↔ (toSel a).enc = a ∧ (toSel a).okCtl L = true := by
  rw [ckCtl, le_bad (by decide)]
  unfold toSel
  split_ifs <;> simp [Sel.enc, Sel.okCtl] <;> omega

theorem le_ckCount {L a : Nat} (ha : a < 64) : 99 ≤ ckCount L a ↔ (toSel a).enc = a ∧ (toSel a).okCount L = true := by
  rw [ckCount, le_bad (by decide)]
  unfold toSel
  split_ifs <;> simp [Sel.enc, Sel.okCount] <;> omega

theorem le_ckFile_toPSel {a : Nat} : 99 ≤ ckFile a ↔ (toPSel a).enc = a := by
  rw [ckFile, le_bad (by decide)]
  unfold toPSel
  split_ifs <;> simp [PSel.enc] <;> omega

theorem le_ckFile_toKSel {a : Nat} : 99 ≤ ckFile a ↔ (toKSel a).enc = a := by
  rw [ckFile, le_bad (by decide)]
  unfold toKSel
  split_ifs <;> simp [KSel.enc] <;> omega

theorem le_ckReg {w lo : Nat} : 99 ≤ ckReg (fld w lo 6) ↔ (fin w lo 5).val = fld w lo 6 := by
  rw [ckReg, le_bad (by decide), decide_eq_false_iff_not]
  simp only [fin, fld]
  generalize w / 2 ^ lo = x
  omega

theorem le_ckDst8 {w : Nat} : 99 ≤ ckDst8 w ↔ (dst8 w).val = fld w 17 5 := by
  rw [ckDst8, le_bad (by decide), decide_eq_false_iff_not]
  simp only [dst8, fin, fld]
  omega

/-! ### The fields of a word (R68) -/

theorem fld_lt (w lo n : Nat) : fld w lo n < 2 ^ n := Nat.mod_lt _ (Nat.two_pow_pos n)

/-- A field of one bit holds the code of the flag that it is read as. -/
theorem flag_eq_iff {x : Nat} (hx : x < 2) {b : Bool} : b.toNat = x ↔ b = (x == 1) := by
  interval_cases x <;> cases b <;> decide

theorem enc_eq_iff {w : Nat} {g : Guard} : g.enc = fld w 22 4 ↔ g = gd w := by
  obtain ⟨q, i⟩ := g
  have hi := flag_eq_iff (fld_lt w 22 1) (b := i)
  have := Bool.toNat_lt i
  rw [gd, Guard.mk.injEq, ← hi, Fin.ext_iff]
  simp only [Guard.enc, fin, fld]
  omega

/-- A word of 32 bits is its major opcode and what stands below it. -/
theorem major_eq_iff {w m : Nat} (hm : m < 2 ^ 6) : m = w / 2 ^ 26 ↔ w < 2 ^ 32 ∧ maj w = m := by
  rw [maj, fld]
  constructor
  · rintro rfl
    exact ⟨(Nat.div_lt_iff_lt_mul (Nat.two_pow_pos 26)).1 hm, Nat.mod_eq_of_lt hm⟩
  · rintro ⟨hw, rfl⟩
    exact Nat.mod_eq_of_lt (Nat.div_lt_of_lt_mul hw)

theorem opcode_eq {w m : Nat} (hw : w < 2 ^ 32) (hm : maj w = m) : m = w / 2 ^ 26 := (major_eq_iff (hm ▸ fld_lt ..)).2 ⟨hw, hm⟩

/-- A word is its lowest field and what stands above it. -/
theorem append_eq_iff {w lo k hi x : Nat} (hx : x < 2 ^ k) : hi * 2 ^ k + x = w / 2 ^ lo ↔ hi = w / 2 ^ (lo + k) ∧ x = fld w lo k := by
  have h := Nat.div_mod_unique (a := w / 2 ^ lo) (c := x) (d := hi) (Nat.two_pow_pos k)
  rw [Nat.div_div_eq_div_mul, ← Nat.pow_add] at h
  rw [fld, Nat.add_comm, Nat.mul_comm, eq_comm, eq_comm (a := hi), eq_comm (a := x), h]
  exact ⟨fun h' => ⟨h'.symm, hx⟩, fun h' => h'.1.symm⟩

theorem div_one_iff {x w : Nat} : x = w ↔ x = w / 2 ^ 0 := by rw [Nat.pow_zero, Nat.div_one]

section Formats

variable {w m d a b o x : Nat} {g : Guard}

theorem encRR_iff (hd : d < 2 ^ 5) (ha : a < 2 ^ 6) (hb : b < 2 ^ 6) (hx : x < 2 ^ 5) :
    encRR m g d a b x = w ↔ m = w / 2 ^ 26 ∧ g = gd w ∧ d = fld w 17 5 ∧ a = selA w ∧ b = selB w ∧ x = minor w := by
  have h : encRR m g d a b x = ((((m * 2 ^ 4 + g.enc) * 2 ^ 5 + d) * 2 ^ 6 + a) * 2 ^ 6 + b) * 2 ^ 5 + x := by unfold encRR; ring
  rw [h, div_one_iff, append_eq_iff hx, append_eq_iff hb, append_eq_iff ha, append_eq_iff hd, append_eq_iff (guard_lt g), ← enc_eq_iff]
  simp only [selA, selB, minor, Nat.zero_add, Nat.reduceAdd, and_assoc]

theorem encRI_iff (hd : d < 2 ^ 5) (ha : a < 2 ^ 6) (hx : x < 2 ^ 11) :
    encRI m g d a x = w ↔ m = w / 2 ^ 26 ∧ g = gd w ∧ d = fld w 17 5 ∧ a = selA w ∧ x = fld w 0 11 := by
  have h : encRI m g d a x = (((m * 2 ^ 4 + g.enc) * 2 ^ 5 + d) * 2 ^ 6 + a) * 2 ^ 11 + x := by unfold encRI; ring
  rw [h, div_one_iff, append_eq_iff hx, append_eq_iff ha, append_eq_iff hd, append_eq_iff (guard_lt g), ← enc_eq_iff]
  simp only [selA, Nat.zero_add, Nat.reduceAdd, and_assoc]

theorem encFI_iff {d : Fin 32} {imm : BitVec 20} :
    encFI m d imm = w ↔ m = w / 2 ^ 26 ∧ d = fdst w ∧ imm = imm20 w ∧ fld w 20 1 = 0 := by
  have h : encFI m d imm = ((m * 2 ^ 5 + d.val) * 2 ^ 1 + 0) * 2 ^ 20 + imm.toNat := by unfold encFI; ring
  rw [h, div_one_iff, append_eq_iff imm.isLt, append_eq_iff (by decide), append_eq_iff d.isLt, Fin.ext_iff, ← BitVec.toNat_inj,
    eq_comm (a := 0)]
  simp only [fdst, imm20, fin, fld, BitVec.toNat_ofNat, Nat.zero_add, Nat.reduceAdd, and_assoc, Nat.pow_zero, Nat.div_one]
  exact and_congr_right' (and_congr_right' and_comm)

theorem encBR_iff {off : BitVec 22} : encBR m g off = w ↔ m = w / 2 ^ 26 ∧ g = gd w ∧ off = BitVec.ofNat 22 w := by
  have h : encBR m g off = (m * 2 ^ 4 + g.enc) * 2 ^ 22 + off.toNat := by unfold encBR; ring
  rw [h, div_one_iff, append_eq_iff off.isLt, append_eq_iff (guard_lt g), ← enc_eq_iff, ← BitVec.toNat_inj]
  simp only [fld, BitVec.toNat_ofNat, Nat.zero_add, Nat.reduceAdd, and_assoc, Nat.pow_zero, Nat.div_one]

theorem encE_iff (ho : o < 2 ^ 12) (ha : a < 2 ^ 5) (hb : b < 2 ^ 5) :
    encE m g o a b = w ↔ m = w / 2 ^ 26 ∧ g = gd w ∧ o = fld w 10 12 ∧ a = fld w 5 5 ∧ b = fld w 0 5 := by
  have h : encE m g o a b = (((m * 2 ^ 4 + g.enc) * 2 ^ 12 + o) * 2 ^ 5 + a) * 2 ^ 5 + b := by unfold encE; ring
  rw [h, div_one_iff, append_eq_iff hb, append_eq_iff ha, append_eq_iff ho, append_eq_iff (guard_lt g), ← enc_eq_iff]
  simp only [Nat.zero_add, Nat.reduceAdd, and_assoc]

end Formats

/-- A field of n bits that holds x is read as a, under the checks cs: the codes of the operands fit the field, none but a can have the
code x, and the checks pass when a is an operand allowed and has the code x. -/
structure WordField {α : Type} (n x : Nat) (code : α → Nat) (a : α) (cs : List Nat) (ok : α → Prop) : Prop where
  lt : ∀ b, code b < 2 ^ n
  eq : ∀ b, code b = x → b = a
  pass : (∀ c ∈ cs, 99 ≤ c) ↔ code a = x ∧ ok a

/-- What a decoder answers: the one instruction of the shape P whose word this is, if the operand restrictions and the slot allow it. -/
def Reads (s : Slot) (L w : Nat) (r : Except Nat Instr) (P : Instr → Prop) : Prop :=
  ∀ i, r = .ok i ↔ P i ∧ encode i = w ∧ i.wellFormed L = true ∧ i.permitted s = true

theorem chk_reads {s : Slot} {L w : Nat} {cs : List Nat} {j : Instr} {P : Instr → Prop} (hP : P j)
    (hj : ∀ i, P i → encode i = w → i = j) (hc : (∀ c ∈ cs, 99 ≤ c) ↔ encode j = w ∧ j.wellFormed L = true) :
    Reads s L w (chk s cs j) P := by
  intro i
  rw [chk_eq_ok, hc]
  constructor
  · rintro ⟨rfl, hp, he, hw⟩
    exact ⟨hP, he, hw, hp⟩
  · rintro ⟨hPi, he, hw, hp⟩
    obtain rfl := hj i hPi he
    exact ⟨rfl, hp, he, hw⟩

/-! ### The families of words, field by field -/

section Families

variable {s : Slot} {L w m : Nat} (hw : w < 2 ^ 32) (hm : maj w = m)
variable {α β γ δ : Type} {d : α} {a : β} {b : γ} {x : δ} {fd : α → Nat} {fa : β → Nat} {fb : γ → Nat} {fx : δ → Nat}
variable {cs cd ca cb cx : List Nat} {pd : α → Prop} {pa : β → Prop} {pb : γ → Prop} {px : δ → Prop}
include hw hm

theorem rr_reads {mk : Guard → α → β → γ → δ → Instr} (hd : WordField 5 (fld w 17 5) fd d cd pd) (ha : WordField 6 (selA w) fa a ca pa)
    (hb : WordField 6 (selB w) fb b cb pb) (hx : WordField 5 (minor w) fx x cx px)
    (henc : ∀ g d a b x, encode (mk g d a b x) = encRR m g (fd d) (fa a) (fb b) (fx x))
    (hwf : ∀ g d a b x, (mk g d a b x).wellFormed L = true ↔ pd d ∧ pa a ∧ pb b ∧ px x) (hcs : ∀ c, c ∈ cs ↔ c ∈ cd ++ ca ++ cb ++ cx) :
    Reads s L w (chk s cs (mk (gd w) d a b x)) fun i => ∃ g d a b x, i = mk g d a b x := by
  have h : ∀ g d a b x, encode (mk g d a b x) = w ↔ _ := fun g d a b x =>
    (henc g d a b x) ▸ (encRR_iff (hd.lt d) (ha.lt a) (hb.lt b) (hx.lt x)).trans (and_iff_right (opcode_eq hw hm))
  refine chk_reads ⟨_, _, _, _, _, rfl⟩ ?_ ?_
  · rintro _ ⟨g, d', a', b', x', rfl⟩ he
    obtain ⟨rfl, h1, h2, h3, h4⟩ := (h ..).1 he
    rw [hd.eq _ h1, ha.eq _ h2, hb.eq _ h3, hx.eq _ h4]
  · simp only [hcs, List.mem_append, or_imp, forall_and, hd.pass, ha.pass, hb.pass, hx.pass, h, hwf]
    tauto

theorem ri_reads {mk : Guard → α → β → δ → Instr} (hd : WordField 5 (fld w 17 5) fd d cd pd) (ha : WordField 6 (selA w) fa a ca pa)
    (hx : WordField 11 (fld w 0 11) fx x cx px) (henc : ∀ g d a x, encode (mk g d a x) = encRI m g (fd d) (fa a) (fx x))
    (hwf : ∀ g d a x, (mk g d a x).wellFormed L = true ↔ pd d ∧ pa a ∧ px x) (hcs : ∀ c, c ∈ cs ↔ c ∈ cd ++ ca ++ cx) :
    Reads s L w (chk s cs (mk (gd w) d a x)) fun i => ∃ g d a x, i = mk g d a x := by
  have h : ∀ g d a x, encode (mk g d a x) = w ↔ _ := fun g d a x =>
    (henc g d a x) ▸ (encRI_iff (hd.lt d) (ha.lt a) (hx.lt x)).trans (and_iff_right (opcode_eq hw hm))
  refine chk_reads ⟨_, _, _, _, rfl⟩ ?_ ?_
  · rintro _ ⟨g, d', a', x', rfl⟩ he
    obtain ⟨rfl, h1, h2, h3⟩ := (h ..).1 he
    rw [hd.eq _ h1, ha.eq _ h2, hx.eq _ h3]
  · simp only [hcs, List.mem_append, or_imp, forall_and, hd.pass, ha.pass, hx.pass, h, hwf]
    tauto

theorem fi_reads {mk : Fin 32 → BitVec 20 → Instr} (henc : ∀ d imm, encode (mk d imm) = encFI m d imm)
    (hwf : ∀ d imm, (mk d imm).wellFormed L = true) : Reads s L w (fi s w mk) fun i => ∃ d imm, i = mk d imm := by
  refine chk_reads ⟨_, _, rfl⟩ ?_ ?_
  · rintro _ ⟨d, imm, rfl⟩ he
    rw [henc, encFI_iff] at he
    obtain ⟨-, rfl, rfl, -⟩ := he
    rfl
  · simp [henc, hwf, encFI_iff, opcode_eq hw hm, le_ckIs]

theorem brw_reads {mk : Guard → BitVec 22 → Instr} (henc : ∀ g off, encode (mk g off) = encBR m g off)
    (hwf : ∀ g off, (mk g off).wellFormed L = true) : Reads s L w (brw s w mk) fun i => ∃ g off, i = mk g off := by
  refine chk_reads ⟨_, _, rfl⟩ ?_ ?_
  · rintro _ ⟨g, off, rfl⟩ he
    rw [henc, encBR_iff] at he
    obtain ⟨-, rfl, rfl⟩ := he
    rfl
  · simp [henc, hwf, encBR_iff, opcode_eq hw hm]

theorem engine_reads {mk : Guard → α → β → γ → Instr} (hd : WordField 12 (fld w 10 12) fd d cd pd) (ha : WordField 5 (fld w 5 5) fa a ca pa)
    (hb : WordField 5 (fld w 0 5) fb b cb pb) (henc : ∀ g d a b, encode (mk g d a b) = encE m g (fd d) (fa a) (fb b))
    (hwf : ∀ g d a b, (mk g d a b).wellFormed L = true ↔ pd d ∧ pa a ∧ pb b)
    (hcs : (∀ c ∈ cs, 99 ≤ c) ↔ ∀ c ∈ cd ++ ca ++ cb, 99 ≤ c) :
    Reads s L w (chk s cs (mk (gd w) d a b)) fun i => ∃ g d a b, i = mk g d a b := by
  have h : ∀ g d a b, encode (mk g d a b) = w ↔ _ := fun g d a b =>
    (henc g d a b) ▸ (encE_iff (hd.lt d) (ha.lt a) (hb.lt b)).trans (and_iff_right (opcode_eq hw hm))
  refine chk_reads ⟨_, _, _, _, rfl⟩ ?_ ?_
  · rintro _ ⟨g, d', a', b', rfl⟩ he
    obtain ⟨rfl, h1, h2, h3⟩ := (h ..).1 he
    rw [hd.eq _ h1, ha.eq _ h2, hb.eq _ h3]
  · simp only [hcs, List.mem_append, or_imp, forall_and, hd.pass, ha.pass, hb.pass, h, hwf]
    tauto

end Families

/-! ### The fields -/

section Fields

variable {w L n x lo k v : Nat}

theorem selA_lt (w : Nat) : selA w < 64 := fld_lt ..
theorem selB_lt (w : Nat) : selB w < 64 := fld_lt ..

/-- A field at its stated value (row 10 of R382). -/
theorem WordField.is (hv : v < 2 ^ n) : WordField n x (fun _ : Unit => v) () [ckIs x v] fun _ => True :=
  ⟨fun _ => hv, fun _ _ => rfl, by simp [le_ckIs, eq_comm]⟩

/-- A field whose value the row of the table has fixed. -/
theorem WordField.fixed (hv : v < 2 ^ n) (h : x = v) : WordField n x (fun _ : Unit => v) () [] fun _ => True :=
  ⟨fun _ => hv, fun _ _ => rfl, by simp [h]⟩

/-- A register number that fills its field. -/
theorem WordField.fin : WordField k (fld w lo k) (Fin.val : Fin (2 ^ k) → Nat) (fin w lo k) [] fun _ => True :=
  ⟨fun b => b.isLt, fun _ h => Fin.ext h, by simp [Sys2Proof.fin, fld]⟩

theorem fld_mod (w lo k n : Nat) : fld w lo (k + n) % 2 ^ k = fld w lo k := by
  unfold fld
  rw [Nat.pow_add, Nat.mod_mul_right_mod]

theorem fld_div (w lo k n : Nat) : fld w lo (k + n) / 2 ^ k = fld w (lo + k) n := by
  unfold fld
  rw [Nat.pow_add, Nat.mod_mul_right_div_self, Nat.pow_add, Nat.div_div_eq_div_mul]

/-- A field of two parts. -/
theorem WordField.pair {α β : Type} {fa : α → Nat} {fb : β → Nat} {a : α} {b : β} {ca cb : List Nat} {pa : α → Prop} {pb : β → Prop}
    (ha : WordField k (fld w lo k) fa a ca pa) (hb : WordField n (fld w (lo + k) n) fb b cb pb) :
    WordField (k + n) (fld w lo (k + n)) (fun x : α × β => fb x.2 * 2 ^ k + fa x.1) (a, b) (ca ++ cb) fun x => pa x.1 ∧ pb x.2 := by
  have h : ∀ x : α × β, fb x.2 * 2 ^ k + fa x.1 = fld w lo (k + n) ↔ fa x.1 = fld w lo k ∧ fb x.2 = fld w (lo + k) n := fun x => by
    have h1 := Nat.div_mod_unique (a := fld w lo (k + n)) (c := fa x.1) (d := fb x.2) (Nat.two_pow_pos k)
    rw [fld_div, fld_mod] at h1
    rw [Nat.add_comm, Nat.mul_comm, eq_comm (a := fa x.1), eq_comm (a := fb x.2), and_comm, h1]
    exact (and_iff_left (ha.lt _)).symm
  refine ⟨fun x => ?_, fun x hx => ?_, ?_⟩
  · have h1 := ha.lt x.1
    have h2 := hb.lt x.2
    calc fb x.2 * 2 ^ k + fa x.1 < fb x.2 * 2 ^ k + 2 ^ k := by omega
      _ = (fb x.2 + 1) * 2 ^ k := by ring
      _ ≤ 2 ^ n * 2 ^ k := Nat.mul_le_mul_right _ h2
      _ = 2 ^ (k + n) := by ring
  · obtain ⟨h1, h2⟩ := (h x).1 hx
    exact Prod.ext (ha.eq _ h1) (hb.eq _ h2)
  · rw [h (a, b)]
    simp only [List.mem_append, or_imp, forall_and, ha.pass, hb.pass]
    tauto

theorem WordField.low {α : Type} {fa : α → Nat} {a : α} {ca : List Nat} {pa : α → Prop} (ha : WordField k (fld w lo k) fa a ca pa) :
    WordField (k + n) (fld w lo (k + n)) fa a (ca ++ [ckIs (fld w (lo + k) n) 0]) pa := by
  have h := ha.pair (.is (Nat.two_pow_pos n) (x := fld w (lo + k) n))
  simp only [Nat.zero_mul, Nat.zero_add] at h
  exact ⟨fun b => h.lt (b, ()), fun b hb => congrArg Prod.fst (h.eq (b, ()) hb), h.pass.trans (by simp)⟩

theorem WordField.sel (L : Nat) (hx : x < 64) : WordField 6 x Sel.enc (toSel x) [ckSel L x] (fun a => a.ok L = true) :=
  ⟨sel_lt, fun b h => h ▸ (toSel_enc b).symm, by simp [le_ckSel hx]⟩

theorem WordField.ctl (L : Nat) (hx : x < 64) : WordField 6 x Sel.enc (toSel x) [ckCtl L x] (fun a => a.okCtl L = true) :=
  ⟨sel_lt, fun b h => h ▸ (toSel_enc b).symm, by simp [le_ckCtl hx]⟩

theorem WordField.count (L : Nat) (hx : x < 64) : WordField 6 x Sel.enc (toSel x) [ckCount L x] (fun a => a.okCount L = true) :=
  ⟨sel_lt, fun b h => h ▸ (toSel_enc b).symm, by simp [le_ckCount hx]⟩

theorem WordField.psel : WordField 6 x PSel.enc (toPSel x) [ckFile x] fun _ => True :=
  ⟨psel_lt, fun b h => h ▸ (toPSel_enc b).symm, by simp [le_ckFile_toPSel]⟩

theorem WordField.ksel : WordField 6 x KSel.enc (toKSel x) [ckFile x] fun _ => True :=
  ⟨ksel_lt, fun b h => h ▸ (toKSel_enc b).symm, by simp [le_ckFile_toKSel]⟩

theorem WordField.reg : WordField 6 (fld w lo 6) (Fin.val : Fin 32 → Nat) (Sys2Proof.fin w lo 5) [ckReg (fld w lo 6)] fun _ => True := by
  refine ⟨fun b => by omega, fun b h => Fin.ext ?_, by simp [le_ckReg]⟩
  simp only [Sys2Proof.fin]
  unfold fld at h
  generalize w / 2 ^ lo = y at h ⊢
  omega

theorem WordField.dst8 : WordField 5 (fld w 17 5) (Fin.val : Fin 8 → Nat) (dst8 w) [ckDst8 w] fun _ => True := by
  refine ⟨fun b => by omega, fun b h => Fin.ext ?_, by simp [le_ckDst8]⟩
  simp only [Sys2Proof.dst8, Sys2Proof.fin]
  unfold fld at h
  omega


theorem WordField.flag : WordField 1 (fld w lo 1) Bool.toNat (fld w lo 1 == 1) [] fun _ => True :=
  ⟨Bool.toNat_lt, fun _ h => (flag_eq_iff (fld_lt ..)).1 h, by simp [flag_eq_iff (fld_lt w lo 1)]⟩

theorem WordField.bits : WordField k (fld w lo k) BitVec.toNat (BitVec.ofNat k (fld w lo k)) [] fun _ => True :=
  ⟨fun b => b.isLt, fun b h => by simp [← h], by simp [Nat.mod_eq_of_lt (fld_lt w lo k)]⟩

/-- The low bits of a word. -/
theorem WordField.imm : WordField k (fld w 0 k) BitVec.toNat (BitVec.ofNat k w) [] fun _ => True :=
  ⟨fun b => b.isLt, fun b h => by rw [← BitVec.toNat_inj]; simpa [fld] using h, by simp [fld]⟩

theorem WordField.itype {t : IType} (h : toIT x = some t) : WordField 2 x IType.code t [] fun _ => True := by
  have hx : ∀ u : IType, toIT u.code = some u := fun u => by cases u <;> rfl
  refine ⟨fun u => by cases u <;> decide, fun u hu => ?_, ?_⟩
  · rw [← hu, hx, Option.some_inj] at h
    exact h
  · unfold toIT at h
    split at h <;> simp_all [IType.code]
    all_goals subst h; rfl

theorem WordField.ftype {t : FType} (h : toFT x = some t) : WordField 2 x FType.code t [] fun _ => True := by
  have hx : ∀ u : FType, toFT u.code = some u := fun u => by cases u <;> rfl
  refine ⟨fun u => by cases u <;> decide, fun u hu => ?_, ?_⟩
  · rw [← hu, hx, Option.some_inj] at h
    exact h
  · unfold toFT at h
    split at h <;> simp_all [FType.code]
    all_goals subst h; rfl

theorem WordField.width (hn : 2 ≤ n) (hx : x < 4) : WordField n x Width.code (toW x) [] fun _ => True := by
  have hc : ∀ u : Width, u.code < 4 := fun u => by cases u <;> decide
  have ht : ∀ u : Width, toW u.code = u := fun u => by cases u <;> rfl
  refine ⟨fun u => (hc u).trans_le (Nat.pow_le_pow_right (n := 2) (by decide) hn), fun u hu => by rw [← hu, ht], ?_⟩
  interval_cases x <;> simp [toW, Width.code]

theorem WordField.masked {α : Type} {fa : α → Nat} {a : α} {ca : List Nat} {pa : α → Prop} (ha : WordField 2 (vari w) fa a ca pa) :
    WordField 5 (minor w) (fun y : α × Fin 8 => y.2.val * 4 + fa y.1) (a, mask w) (ca ++ []) fun y => pa y.1 ∧ True := ha.pair (n := 3) .fin

/-- A field whose value the row of the table has fixed to the code of a. -/
theorem WordField.code {α : Type} {f : α → Nat} {a : α} (hlt : ∀ b, f b < 2 ^ n) (hinj : ∀ b, f b = f a → b = a) (h : x = f a) :
    WordField n x f a [] fun _ => True :=
  ⟨hlt, fun b hb => hinj b (hb.trans h), by simp [h]⟩

/-- A field whose upper bits the row of the table has found to be zero. -/
theorem WordField.narrow {α : Type} {fa : α → Nat} {a : α} {ca : List Nat} {pa : α → Prop} (ha : WordField k (fld w lo k) fa a ca pa)
    (h : fld w lo (k + n) < 2 ^ k) : WordField (k + n) (fld w lo (k + n)) fa a ca pa := by
  rw [← fld_mod w lo k n, Nat.mod_eq_of_lt h] at ha
  exact ⟨fun b => (ha.lt b).trans_le (Nat.pow_le_pow_right (by decide) (by omega)), ha.eq, ha.pass⟩

theorem toPC_code (p : PathClass) : toPC p.code = p := by cases p <;> rfl

theorem WordField.path (hx : x < 4) : WordField 2 x PathClass.code (toPC x) [] fun _ => True := by
  refine ⟨fun p => by cases p <;> decide, fun p hp => by rw [← hp, toPC_code], ?_⟩
  interval_cases x <;> simp [toPC, PathClass.code]

/-- The minor of XFENCE: two path classes that are not both timed (R298). -/
theorem WordField.paths (h0 : minor w ≠ 0) (hx : minor w < 16) :
    WordField 5 (minor w) (fun x : PathClass × PathClass => x.2.code * 4 + x.1.code) (toPC (fld w 0 2), toPC (fld w 2 2)) []
      fun x => (!(x.1 == .t && x.2 == .t)) = true := by
  have h := (WordField.path (fld_lt w 0 2)).pair (WordField.path (fld_lt w 2 2)) |>.narrow (n := 1) hx
  have hc := h.pass
  simp only [List.append_nil, and_self, and_true, List.not_mem_nil, false_implies, implies_true, true_iff] at hc
  have hc : (toPC (fld w 2 2)).code * 4 + (toPC (fld w 0 2)).code = minor w := hc
  refine ⟨h.lt, h.eq, ?_⟩
  simp only [List.not_mem_nil, false_implies, implies_true, true_iff]
  refine ⟨hc, ?_⟩
  rw [Bool.not_eq_true', Bool.and_eq_false_iff, beq_eq_false_iff_ne, beq_eq_false_iff_ne, ← not_and_or]
  rintro ⟨hp, hq⟩
  rw [hp, hq] at hc
  exact h0 hc.symm

theorem toNat_inj {b c : Bool} (h : b.toNat = c.toNat) : b = c := by
  revert b c
  decide

theorem LdType.code_inj {t u : LdType} (h : u.code = t.code) : u = t := by
  cases t <;> cases u <;> simp_all [LdType.code]

theorem StType.code_inj {t u : StType} (h : u.code = t.code) : u = t := by
  cases t <;> cases u <;> simp_all [StType.code]

end Fields

/-! ### The formats of the slot words (R68-R73): what each decoding function reads -/

section Formats

variable {s : Slot} {L w m v : Nat} (hw : w < 2 ^ 32) (hm : maj w = m)
include hw hm

section Plain

variable (hv : minor w = v)
include hv

theorem rr3_reads {mk : Guard → Fin 32 → Sel → Sel → Instr} (henc : ∀ g d a b, encode (mk g d a b) = encRR m g d.val a.enc b.enc v)
    (hwf : ∀ g d a b, (mk g d a b).wellFormed L = (a.ok L && b.ok L)) :
    Reads s L w (rr3 s L w mk) fun i => ∃ g d a b, ∃ _ : Unit, i = mk g d a b :=
  rr_reads (mk := fun g d a b _ => mk g d a b) hw hm .fin (.sel L (selA_lt w)) (.sel L (selB_lt w)) (.fixed (hv ▸ fld_lt ..) hv)
    (fun g d a b _ => henc g d a b) (by simp [hwf]) (by simp)

theorem rr2_reads {mk : Guard → Fin 32 → Sel → Instr} (henc : ∀ g d a, encode (mk g d a) = encRR m g d.val a.enc 35 v)
    (hwf : ∀ g d a, (mk g d a).wellFormed L = a.ok L) :
    Reads s L w (rr2 s L w mk) fun i => ∃ g d a, ∃ _ _ : Unit, i = mk g d a :=
  rr_reads (mk := fun g d a _ _ => mk g d a) hw hm .fin (.sel L (selA_lt w)) (.is (by decide)) (.fixed (hv ▸ fld_lt ..) hv)
    (fun g d a _ _ => henc g d a) (by simp [hwf]) (by simp)

theorem rr1_reads {mk : Guard → Fin 32 → Instr} (henc : ∀ g d, encode (mk g d) = encRR m g d.val 35 35 v)
    (hwf : ∀ g d, (mk g d).wellFormed L = true) : Reads s L w (rr1 s w mk) fun i => ∃ g d, ∃ _ _ _ : Unit, i = mk g d :=
  rr_reads (mk := fun g d _ _ _ => mk g d) hw hm .fin (.is (by decide)) (.is (by decide)) (.fixed (hv ▸ fld_lt ..) hv)
    (fun g d _ _ _ => henc g d) (by simp [hwf]) (by simp)

theorem rr0_reads {mk : Guard → Sel → Instr} (henc : ∀ g a, encode (mk g a) = encRR m g 0 a.enc 35 v)
    (hwf : ∀ g a, (mk g a).wellFormed L = a.ok L) :
    Reads s L w (rr0 s L w mk) fun i => ∃ g, ∃ _ : Unit, ∃ a, ∃ _ _ : Unit, i = mk g a :=
  rr_reads (mk := fun g _ a _ _ => mk g a) hw hm (.is (by decide)) (.sel L (selA_lt w)) (.is (by decide)) (.fixed (hv ▸ fld_lt ..) hv)
    (fun g _ a _ _ => henc g a) (by simp [hwf]) (by grind)

theorem rr0b_reads {mk : Guard → Sel → Sel → Instr} (henc : ∀ g a b, encode (mk g a b) = encRR m g 0 a.enc b.enc v)
    (hwf : ∀ g a b, (mk g a b).wellFormed L = (a.ok L && b.ok L)) :
    Reads s L w (rr0b s L w mk) fun i => ∃ g, ∃ _ : Unit, ∃ a b, ∃ _ : Unit, i = mk g a b :=
  rr_reads (mk := fun g _ a b _ => mk g a b) hw hm (.is (by decide)) (.sel L (selA_lt w)) (.sel L (selB_lt w)) (.fixed (hv ▸ fld_lt ..) hv)
    (fun g _ a b _ => henc g a b) (by simp [hwf]) (by grind)

theorem rrq_reads {mk : Guard → Fin 8 → Sel → Sel → Instr} (henc : ∀ g d a b, encode (mk g d a b) = encRR m g d.val a.enc b.enc v)
    (hwf : ∀ g d a b, (mk g d a b).wellFormed L = (a.ok L && b.ok L)) :
    Reads s L w (rrq s L w mk) fun i => ∃ g d a b, ∃ _ : Unit, i = mk g d a b :=
  rr_reads (mk := fun g d a b _ => mk g d a b) hw hm .dst8 (.sel L (selA_lt w)) (.sel L (selB_lt w)) (.fixed (hv ▸ fld_lt ..) hv)
    (fun g d a b _ => henc g d a b) (by simp [hwf]) (by grind)

theorem rrp_reads {mk : Guard → Fin 8 → PSel → PSel → Instr} (henc : ∀ g d a b, encode (mk g d a b) = encRR m g d.val a.enc b.enc v)
    (hwf : ∀ g d a b, (mk g d a b).wellFormed L = true) :
    Reads s L w (rrp s w mk) fun i => ∃ g d a b, ∃ _ : Unit, i = mk g d a b :=
  rr_reads (mk := fun g d a b _ => mk g d a b) hw hm .dst8 .psel .psel (.fixed (hv ▸ fld_lt ..) hv)
    (fun g d a b _ => henc g d a b) (by simp [hwf]) (by grind)

theorem rrc_reads {mk : Guard → Fin 32 → Sel → Sel → Instr} (henc : ∀ g d a c, encode (mk g d a c) = encRR m g d.val a.enc c.enc v)
    (hwf : ∀ g d a c, (mk g d a c).wellFormed L = (a.ok L && c.okCtl L)) :
    Reads s L w (rrc s L w mk) fun i => ∃ g d a c, ∃ _ : Unit, i = mk g d a c :=
  rr_reads (mk := fun g d a c _ => mk g d a c) hw hm .fin (.sel L (selA_lt w)) (.ctl L (selB_lt w)) (.fixed (hv ▸ fld_lt ..) hv)
    (fun g d a c _ => henc g d a c) (by simp [hwf]) (by simp)

end Plain

/-! Words with an immediate. -/

theorem ri_form_reads {mk : Guard → Fin 32 → Sel → BitVec 11 → Instr}
    (henc : ∀ g d a imm, encode (mk g d a imm) = encRI m g d.val a.enc imm.toNat)
    (hwf : ∀ g d a imm, (mk g d a imm).wellFormed L = a.ok L) :
    Reads s L w (ri s L w mk) fun i => ∃ g d a imm, i = mk g d a imm :=
  ri_reads hw hm .fin (.sel L (selA_lt w)) .imm henc (by simp [hwf]) (by simp)

theorem riq_reads {mk : Guard → Fin 8 → Sel → BitVec 11 → Instr}
    (henc : ∀ g d a imm, encode (mk g d a imm) = encRI m g d.val a.enc imm.toNat)
    (hwf : ∀ g d a imm, (mk g d a imm).wellFormed L = a.ok L) :
    Reads s L w (riq s L w mk) fun i => ∃ g d a imm, i = mk g d a imm :=
  ri_reads hw hm .dst8 (.sel L (selA_lt w)) .imm henc (by simp [hwf]) (by grind)

theorem ri6_reads {mk : Guard → Fin 32 → Sel → Fin 64 → Instr} (henc : ∀ g d a n, encode (mk g d a n) = encRI m g d.val a.enc n.val)
    (hwf : ∀ g d a n, (mk g d a n).wellFormed L = a.ok L) :
    Reads s L w (ri6 s L w mk) fun i => ∃ g d a n, i = mk g d a n :=
  ri_reads hw hm .fin (.sel L (selA_lt w)) (.low (k := 6) (n := 5) .fin) henc (by simp [hwf]) (by simp)

theorem ri5_reads {mk : Guard → Fin 32 → Sel → Fin 32 → Instr} (henc : ∀ g d a n, encode (mk g d a n) = encRI m g d.val a.enc n.val)
    (hwf : ∀ g d a n, (mk g d a n).wellFormed L = a.ok L) :
    Reads s L w (ri5 s L w mk) fun i => ∃ g d a n, i = mk g d a n :=
  ri_reads hw hm .fin (.sel L (selA_lt w)) (.low (k := 5) (n := 6) .fin) henc (by simp [hwf]) (by simp)

/-! Vector words (R72): the minor holds the lane mask and the variant. -/

theorem vi3_reads {t : IType} (ht : toIT (vari w) = some t) {mk : Guard → Fin 32 → Sel → Sel → Fin 8 → IType → Instr}
    (henc : ∀ g d a b k t, encode (mk g d a b k t) = encRR m g d.val a.enc b.enc (k.val * 4 + t.code))
    (hwf : ∀ g d a b k t, (mk g d a b k t).wellFormed L = (a.ok L && b.ok L)) :
    Reads s L w (vi3 s L w mk) fun i => ∃ g d a b, ∃ x : IType × Fin 8, i = mk g d a b x.2 x.1 := by
  unfold vi3
  rw [ht]
  exact rr_reads (x := (t, mask w)) (mk := fun g d a b x => mk g d a b x.2 x.1) hw hm .fin (.sel L (selA_lt w)) (.sel L (selB_lt w))
    (.masked (.itype ht)) (fun g d a b x => henc ..) (by simp [hwf]) (by simp)

theorem vf3_reads {t : FType} (ht : toFT (vari w) = some t) {mk : Guard → Fin 32 → Sel → Sel → Fin 8 → FType → Instr}
    (henc : ∀ g d a b k t, encode (mk g d a b k t) = encRR m g d.val a.enc b.enc (k.val * 4 + t.code))
    (hwf : ∀ g d a b k t, (mk g d a b k t).wellFormed L = (a.ok L && b.ok L)) :
    Reads s L w (vf3 s L w mk) fun i => ∃ g d a b, ∃ x : FType × Fin 8, i = mk g d a b x.2 x.1 := by
  unfold vf3
  rw [ht]
  exact rr_reads (x := (t, mask w)) (mk := fun g d a b x => mk g d a b x.2 x.1) hw hm .fin (.sel L (selA_lt w)) (.sel L (selB_lt w))
    (.masked (.ftype ht)) (fun g d a b x => henc ..) (by simp [hwf]) (by simp)

theorem vf2_reads {t : FType} (ht : toFT (vari w) = some t) {mk : Guard → Fin 32 → Sel → Fin 8 → FType → Instr}
    (henc : ∀ g d a k t, encode (mk g d a k t) = encRR m g d.val a.enc 35 (k.val * 4 + t.code))
    (hwf : ∀ g d a k t, (mk g d a k t).wellFormed L = a.ok L) :
    Reads s L w (vf2 s L w mk) fun i => ∃ g d a, ∃ _ : Unit, ∃ x : FType × Fin 8, i = mk g d a x.2 x.1 := by
  unfold vf2
  rw [ht]
  exact rr_reads (x := (t, mask w)) (mk := fun g d a _ x => mk g d a x.2 x.1) hw hm .fin (.sel L (selA_lt w)) (.is (v := 35) (by decide))
    (.masked (.ftype ht)) (fun g d a _ x => henc ..) (by simp [hwf]) (by simp)

theorem vic_reads {t : IType} (ht : toIT (vari w) = some t) {mk : Guard → Fin 8 → Sel → Sel → Fin 8 → IType → Instr}
    (henc : ∀ g d a b k t, encode (mk g d a b k t) = encRR m g d.val a.enc b.enc (k.val * 4 + t.code))
    (hwf : ∀ g d a b k t, (mk g d a b k t).wellFormed L = (a.ok L && b.ok L)) :
    Reads s L w (vic s L w mk) fun i => ∃ g d a b, ∃ x : IType × Fin 8, i = mk g d a b x.2 x.1 := by
  unfold vic
  rw [ht]
  exact rr_reads (x := (t, mask w)) (mk := fun g d a b x => mk g d a b x.2 x.1) hw hm .dst8 (.sel L (selA_lt w)) (.sel L (selB_lt w))
    (.masked (.itype ht)) (fun g d a b x => henc ..) (by simp [hwf]) (by grind)

theorem vfc_reads {t : FType} (ht : toFT (vari w) = some t) {mk : Guard → Fin 8 → Sel → Sel → Fin 8 → FType → Instr}
    (henc : ∀ g d a b k t, encode (mk g d a b k t) = encRR m g d.val a.enc b.enc (k.val * 4 + t.code))
    (hwf : ∀ g d a b k t, (mk g d a b k t).wellFormed L = (a.ok L && b.ok L)) :
    Reads s L w (vfc s L w mk) fun i => ∃ g d a b, ∃ x : FType × Fin 8, i = mk g d a b x.2 x.1 := by
  unfold vfc
  rw [ht]
  exact rr_reads (x := (t, mask w)) (mk := fun g d a b x => mk g d a b x.2 x.1) hw hm .dst8 (.sel L (selA_lt w)) (.sel L (selB_lt w))
    (.masked (.ftype ht)) (fun g d a b x => henc ..) (by simp [hwf]) (by grind)

theorem vcv_reads {mk : Guard → Fin 32 → Sel → Sel → Fin 8 → Instr}
    (henc : ∀ g d a c k, encode (mk g d a c k) = encRR m g d.val a.enc c.enc (k.val * 4))
    (hwf : ∀ g d a c k, (mk g d a c k).wellFormed L = (a.ok L && c.okCtl L)) :
    Reads s L w (vcv s L w mk) fun i => ∃ g d a c, ∃ x : Unit × Fin 8, i = mk g d a c x.2 :=
  rr_reads (x := ((), mask w)) (mk := fun g d a c x => mk g d a c x.2) hw hm .fin (.sel L (selA_lt w)) (.ctl L (selB_lt w))
    (.masked (.is (v := 0) (by decide))) (fun g d a c x => henc ..) (by simp [hwf]) (by simp)

theorem rrk_reads (hv : vari w = v) {mk : Guard → Fin 8 → KSel → KSel → Instr}
    (henc : ∀ g d a b, encode (mk g d a b) = encRR m g d.val a.enc b.enc v)
    (hwf : ∀ g d a b, (mk g d a b).wellFormed L = true) : Reads s L w (rrk s w mk) fun i => ∃ g d a b, ∃ _ : Unit, i = mk g d a b :=
  rr_reads (mk := fun g d a b _ => mk g d a b) hw hm .dst8 .ksel .ksel (.low (k := 2) (n := 3) (.fixed (hv ▸ fld_lt ..) hv))
    (fun g d a b _ => henc ..) (by simp [hwf]) (by grind)

theorem kst0_reads (hv : vari w = v) (hx : fld w 2 3 < 4) {ck : Nat} {ok : Sel → Bool}
    (hck : WordField 6 (selA w) Sel.enc (toSel (selA w)) [ck] (fun a => ok a = true)) {mk : Guard → Fin 8 → Sel → Width → Instr}
    (henc : ∀ g d a wd, encode (mk g d a wd) = encRR m g d.val a.enc 35 (wd.code * 4 + v))
    (hwf : ∀ g d a wd, (mk g d a wd).wellFormed L = ok a) :
    Reads s L w (kst0 s w ck mk) fun i => ∃ g d a, ∃ _ : Unit, ∃ x : Unit × Width, i = mk g d a x.2 := by
  unfold kst0
  rw [if_neg (by omega)]
  exact rr_reads (x := ((), toW (fld w 2 3))) (mk := fun g d a _ x => mk g d a x.2) hw hm .dst8 hck (.is (by decide))
    (.pair (k := 2) (n := 3) (.fixed (hv ▸ fld_lt ..) hv) (.width (by decide) hx)) (fun g d a _ x => henc ..) (by simp [hwf]) (by grind)

theorem vw3_reads {mk : Guard → Fin 32 → Sel → Sel → Fin 8 → Width → Instr}
    (henc : ∀ g d a b k t, encode (mk g d a b k t) = encRR m g d.val a.enc b.enc (k.val * 4 + t.code))
    (hwf : ∀ g d a b k t, (mk g d a b k t).wellFormed L = (a.ok L && b.ok L)) :
    Reads s L w (vw3 s L w mk) fun i => ∃ g d a b, ∃ x : Width × Fin 8, i = mk g d a b x.2 x.1 :=
  rr_reads (x := (toW (vari w), mask w)) (mk := fun g d a b x => mk g d a b x.2 x.1) hw hm .fin (.sel L (selA_lt w)) (.sel L (selB_lt w))
    (.masked (.width le_rfl (fld_lt ..))) (fun g d a b x => henc ..) (by simp [hwf]) (by simp)

theorem vwc_reads {mk : Guard → Fin 32 → Sel → Sel → Fin 8 → Width → Instr}
    (henc : ∀ g d a c k t, encode (mk g d a c k t) = encRR m g d.val a.enc c.enc (k.val * 4 + t.code))
    (hwf : ∀ g d a c k t, (mk g d a c k t).wellFormed L = (a.ok L && c.okCtl L)) :
    Reads s L w (vwc s L w mk) fun i => ∃ g d a c, ∃ x : Width × Fin 8, i = mk g d a c x.2 x.1 :=
  rr_reads (x := (toW (vari w), mask w)) (mk := fun g d a c x => mk g d a c x.2 x.1) hw hm .fin (.sel L (selA_lt w)) (.ctl L (selB_lt w))
    (.masked (.width le_rfl (fld_lt ..))) (fun g d a b x => henc ..) (by simp [hwf]) (by simp)

theorem sf1_reads {mk : Guard → Fin 32 → Sel → Fin 8 → Instr} (henc : ∀ g d a k, encode (mk g d a k) = encRR m g d.val a.enc 35 (k.val * 4))
    (hwf : ∀ g d a k, (mk g d a k).wellFormed L = a.ok L) :
    Reads s L w (sf1 s L w mk) fun i => ∃ g d a, ∃ _ : Unit, ∃ x : Unit × Fin 8, i = mk g d a x.2 :=
  rr_reads (x := ((), mask w)) (mk := fun g d a _ x => mk g d a x.2) hw hm .fin (.sel L (selA_lt w)) (.is (v := 35) (by decide))
    (.masked (.is (v := 0) (by decide))) (fun g d a _ x => henc ..) (by simp [hwf]) (by simp)

theorem sf2_reads {mk : Guard → Fin 32 → Sel → Sel → Fin 8 → Instr}
    (henc : ∀ g d a b k, encode (mk g d a b k) = encRR m g d.val a.enc b.enc (k.val * 4))
    (hwf : ∀ g d a b k, (mk g d a b k).wellFormed L = (a.ok L && b.ok L)) :
    Reads s L w (sf2 s L w mk) fun i => ∃ g d a b, ∃ x : Unit × Fin 8, i = mk g d a b x.2 :=
  rr_reads (x := ((), mask w)) (mk := fun g d a b x => mk g d a b x.2) hw hm .fin (.sel L (selA_lt w)) (.sel L (selB_lt w))
    (.masked (.is (v := 0) (by decide))) (fun g d a b x => henc ..) (by simp [hwf]) (by simp)

theorem ms3_reads {mk : Guard → Fin 32 → Sel → Sel → Fin 8 → Fin 4 → Instr}
    (henc : ∀ g d a b k p, encode (mk g d a b k p) = encRR m g d.val a.enc b.enc (k.val * 4 + p.val))
    (hwf : ∀ g d a b k p, (mk g d a b k p).wellFormed L = (a.ok L && b.ok L)) :
    Reads s L w (ms3 s L w mk) fun i => ∃ g d a b, ∃ x : Fin 4 × Fin 8, i = mk g d a b x.2 x.1 :=
  rr_reads (x := (fin w 0 2, mask w)) (mk := fun g d a b x => mk g d a b x.2 x.1) hw hm .fin (.sel L (selA_lt w)) (.sel L (selB_lt w))
    (.masked .fin) (fun g d a b x => henc ..) (by simp [hwf]) (by simp)

theorem mx3_reads {mk : Guard → Fin 32 → Sel → Fin 32 → Fin 8 → Fin 4 → Instr}
    (henc : ∀ g d a b k p, encode (mk g d a b k p) = encRR m g d.val a.enc b.val (k.val * 4 + p.val))
    (hwf : ∀ g d a b k p, (mk g d a b k p).wellFormed L = a.ok L) :
    Reads s L w (mx3 s L w mk) fun i => ∃ g d a b, ∃ x : Fin 4 × Fin 8, i = mk g d a b x.2 x.1 :=
  rr_reads (x := (fin w 0 2, mask w)) (mk := fun g d a b x => mk g d a b x.2 x.1) hw hm .fin (.sel L (selA_lt w)) .reg
    (.masked .fin) (fun g d a b x => henc ..) (by simp [hwf]) (by simp [selB])

theorem mk3_reads {mk : Guard → Fin 8 → Sel → Sel → Width → Instr}
    (henc : ∀ g d a b t, encode (mk g d a b t) = encRR m g d.val a.enc b.enc t.code)
    (hwf : ∀ g d a b t, (mk g d a b t).wellFormed L = (a.ok L && b.ok L)) :
    Reads s L w (mk3 s L w mk) fun i => ∃ g d a b t, i = mk g d a b t :=
  rr_reads hw hm .dst8 (.sel L (selA_lt w)) (.sel L (selB_lt w)) (.low (k := 2) (n := 3) (.width le_rfl (fld_lt ..))) henc
    (by simp [hwf]) (by grind)

/-! Words of the engine slot (R73). -/

theorem e2_reads {mk : Guard → BitVec 12 → Fin 32 → Fin 32 → Instr} (henc : ∀ g o a b, encode (mk g o a b) = encE m g o.toNat a.val b.val)
    (hwf : ∀ g o a b, (mk g o a b).wellFormed L = true) : Reads s L w (e2 s w mk) fun i => ∃ g o a b, i = mk g o a b :=
  engine_reads hw hm .bits .fin .fin henc (by simp [hwf]) (by simp)

/-! Rows with a layout of their own. -/

theorem addsh_reads (hx : minor w < 8) (h5 : m = 0x05) :
    Reads s L w (rr3 s L w fun g d a b => .addsh g d a b (fin w 0 3)) fun i => ∃ g d a b n, i = .addsh g d a b n :=
  rr_reads hw hm .fin (.sel L (selA_lt w)) (.sel L (selB_lt w)) (.narrow (k := 3) (n := 2) .fin hx)
    (by subst h5; intros; rfl) (by intros; show (_ && _) = true ↔ _; simp) (by simp)

theorem lcset_reads (h : m = 0x12) :
    Reads s L w (chk s [ckSel L (selA w), ckIs (fld w 17 5) 0, ckIs (fld w 2 9) 0] (.lcset (gd w) (toSel (selA w)) (fin w 0 2)))
      fun i => ∃ g, ∃ _ : Unit, ∃ a e, i = .lcset g a e :=
  ri_reads (mk := fun g _ a e => .lcset g a e) hw hm (.is (v := 0) (by decide)) (.sel L (selA_lt w)) (.low (k := 2) (n := 9) .fin)
    (by subst h; intros; rfl) (by intros; show Sel.ok _ _ = true ↔ _; simp) (by grind)

theorem nopw_reads (h : m = 0x13) :
    Reads s L w (chk s [ckSel L (selA w), ckIs (fld w 17 5) 0] (.nopw (gd w) (toSel (selA w)) (imm11 w)))
      fun i => ∃ g, ∃ _ : Unit, ∃ a imm, i = .nopw g a imm :=
  ri_reads (mk := fun g _ a imm => .nopw g a imm) hw hm (.is (v := 0) (by decide)) (.sel L (selA_lt w)) .imm
    (by subst h; intros; rfl) (by intros; show Sel.ok _ _ = true ↔ _; simp) (by grind)

theorem trap_reads (h : m = 0x22) :
    Reads s L w (chk s [ckIs (fld w 17 5) 0, ckIs (selA w) 35] (.trap (gd w) (imm11 w)))
      fun i => ∃ g, ∃ _ _ : Unit, ∃ imm, i = .trap g imm :=
  ri_reads (mk := fun g _ _ imm => .trap g imm) hw hm (.is (v := 0) (by decide)) (.is (v := 35) (by decide)) .imm
    (by subst h; intros; rfl) (by intros; show true = true ↔ _; simp) (by simp)

theorem rfd_reads (h : m = 0x23) (hv : minor w = 0) :
    Reads s L w (chk s [ckIs (fld w 17 5) 0, ckIs (selA w) 35, ckIs (selB w) 35] (.rfd (gd w)))
      fun i => ∃ g, ∃ _ _ _ _ : Unit, i = .rfd g :=
  rr_reads (mk := fun g _ _ _ _ => .rfd g) hw hm (.is (v := 0) (by decide)) (.is (v := 35) (by decide)) (.is (v := 35) (by decide))
    (.fixed (by decide) hv) (by subst h; intros; rfl) (by intros; show true = true ↔ _; simp) (by simp)

theorem xfence_reads (h : m = 0x24) (h0 : minor w ≠ 0) (hx : minor w < 16) :
    Reads s L w (chk s [ckIs (fld w 17 5) 0, ckIs (selA w) 35, ckIs (selB w) 35] (.xfence (gd w) (toPC (fld w 0 2)) (toPC (fld w 2 2))))
      fun i => ∃ g, ∃ _ _ _ : Unit, ∃ x : PathClass × PathClass, i = .xfence g x.1 x.2 :=
  rr_reads (x := (toPC (fld w 0 2), toPC (fld w 2 2))) (mk := fun g _ _ _ x => .xfence g x.1 x.2) hw hm (.is (v := 0) (by decide))
    (.is (v := 35) (by decide)) (.is (v := 35) (by decide)) (.paths h0 hx) (by subst h; intros; rfl)
      (by intros; show (!_) = true ↔ _; simp) (by simp)

theorem vmov_reads (h : m = 0x26) :
    Reads s L w (chk s [ckSel L (selA w), ckIs (selB w) 35] (.vmov (gd w) (dst w) (toSel (selA w)) (mask w) (toW (vari w))))
      fun i => ∃ g d a, ∃ _ : Unit, ∃ x : Width × Fin 8, i = .vmov g d a x.2 x.1 :=
  rr_reads (x := (toW (vari w), mask w)) (mk := fun g d a _ x => .vmov g d a x.2 x.1) hw hm .fin (.sel L (selA_lt w))
    (.is (v := 35) (by decide)) (.masked (.width le_rfl (fld_lt ..))) (by subst h; intros; rfl)
      (by intros; show Sel.ok _ _ = true ↔ _; simp) (by simp)

theorem vperm_reads (h : m = 0x38) (hv : vari w ≠ 3) :
    Reads s L w (vw3 s L w .vperm) fun i => ∃ g d a b, ∃ x : Width × Fin 8, i = .vperm g d a b x.2 x.1 := by
  have hx : WordField 2 (vari w) Width.code (toW (vari w)) [] (fun t => (t != .w4) = true) := by
    have h := WordField.width le_rfl (fld_lt w 0 2)
    refine ⟨h.lt, h.eq, h.pass.trans (and_congr_right fun hc => ?_)⟩
    have hc : (toW (vari w)).code = vari w := hc
    rw [bne_iff_ne, true_iff]
    intro ht
    exact hv (by rw [← hc, ht]; rfl)
  exact rr_reads (x := (toW (vari w), mask w)) (mk := fun g d a b x => .vperm g d a b x.2 x.1) hw hm .fin (.sel L (selA_lt w))
    (.sel L (selB_lt w)) (.masked hx) (by subst h; intros; rfl) (by intros; show (_ && _ && _) = true ↔ _; simp [and_assoc]) (by simp)

theorem rrc_masked_reads {α : Type} {f : α → Nat} {t : α} (ht : WordField 2 (vari w) f t [] fun _ => True)
    {mk : Guard → Fin 32 → Sel → Sel → Fin 8 → α → Instr}
    (henc : ∀ g d a c k t, encode (mk g d a c k t) = encRR m g d.val a.enc c.enc (k.val * 4 + f t))
    (hwf : ∀ g d a c k t, (mk g d a c k t).wellFormed L = (a.ok L && c.okCtl L)) :
    Reads s L w (rrc s L w fun g d a c => mk g d a c (mask w) t) fun i => ∃ g d a c, ∃ x : α × Fin 8, i = mk g d a c x.2 x.1 :=
  rr_reads (x := (t, mask w)) (mk := fun g d a c x => mk g d a c x.2 x.1) hw hm .fin (.sel L (selA_lt w)) (.ctl L (selB_lt w))
    (.masked ht) (fun g d a c x => henc ..) (by simp [hwf]) (by simp)

theorem vldb_reads (h : m = 0x09) {int : Bool} (hv : vari w = int.toNat) :
    Reads s L w (rr3 s L w fun g d a b => .vldb g d a b (mask w) int) fun i => ∃ g d a b, ∃ x : Bool × Fin 8, i = .vldb g d a b x.2 x.1 :=
  rr_reads (x := (int, mask w)) (mk := fun g d a b x => .vldb g d a b x.2 x.1) hw hm .fin (.sel L (selA_lt w)) (.sel L (selB_lt w))
    (.masked (.code (fun b => (Bool.toNat_lt b).trans (by decide)) (fun _ hb => toNat_inj hb) hv)) (by subst h; intros; rfl)
    (by intros; show (_ && _) = true ↔ _; simp) (by simp)

theorem vrand_reads (h : m = 0x0C) (ha : selA w = 35) :
    Reads s L w (chk s [ckIs (selB w) 35, ckIs (vari w) 0] (.vrand (gd w) (dst w) (mask w)))
      fun i => ∃ g d, ∃ _ _ : Unit, ∃ x : Unit × Fin 8, i = .vrand g d x.2 :=
  rr_reads (x := ((), mask w)) (mk := fun g d _ _ x => .vrand g d x.2) hw hm .fin (.fixed (by decide) ha) (.is (v := 35) (by decide))
    (.masked (.is (v := 0) (by decide))) (by subst h; intros; rfl) (by intros; show true = true ↔ _; simp) (by simp)

theorem vrandSeed_reads (h : m = 0x0C) :
    Reads s L w (chk s [ckReg (selA w), ckIs (selB w) 35, ckIs (fld w 17 5) 0, ckIs (fld w 2 3) 0, ckIs (vari w) 0]
      (.vrandSeed (gd w) (fin w 11 5))) fun i => ∃ g, ∃ _ : Unit, ∃ a, ∃ _ _ : Unit, i = .vrandSeed g a :=
  rr_reads (mk := fun g _ a _ _ => .vrandSeed g a) hw hm (.is (v := 0) (by decide)) .reg (.is (v := 35) (by decide))
    (.low (k := 2) (n := 3) (.is (v := 0) (by decide))) (by subst h; intros; rfl) (by intros; show true = true ↔ _; simp)
      (by grind [selA, vari])

theorem ld_reads (h : m = 0x01) {t : LdType} (ht : fld w 0 3 = t.code) :
    Reads s L w (decodeMemory.ldw s L w t) fun i => ∃ g d a b t, i = .ld g d a b t :=
  rr_reads hw hm .fin (.sel L (selA_lt w)) (.sel L (selB_lt w))
    (.low (k := 3) (n := 2) (.code (fun t => by cases t <;> decide) (fun _ hu => LdType.code_inj hu) ht)) (by subst h; intros; rfl)
      (by intros; show (_ && _) = true ↔ _; simp) (by simp)

theorem st_reads (h : m = 0x02) {t : StType} (ht : vari w = t.code) :
    Reads s L w (decodeMemory.stw s L w t) fun i => ∃ g d a b t, i = .st g d a b t :=
  rr_reads hw hm .fin (.sel L (selA_lt w)) (.sel L (selB_lt w))
    (.low (k := 2) (n := 3) (.code (fun t => by cases t <;> decide) (fun _ hu => StType.code_inj hu) ht)) (by subst h; intros; rfl)
      (by intros; show (_ && _) = true ↔ _; simp) (by simp)

theorem mset_reads (h : m = 0x01) :
    Reads s L w (chk s [ckIs (fld w 3 2) 0] (.mset (gd w) (eo w) (ea w) (fin w 0 3))) fun i => ∃ g o a k, i = .mset g o a k :=
  engine_reads hw hm .bits .fin (.low (k := 3) (n := 2) .fin) (by subst h; intros; rfl) (by intros; show true = true ↔ _; simp) (by simp)

theorem coll_reads (h : m = 0x28) :
    Reads s L w (chk s [ckIs (fld w 4 1) 0] (.coll (gd w) (eo w) (ea w) (fin w 0 4))) fun i => ∃ g o a k, i = .coll g o a k :=
  engine_reads hw hm .bits .fin (.low (k := 4) (n := 1) .fin) (by subst h; intros; rfl) (by intros; show true = true ↔ _; simp) (by simp)

theorem hwait_reads (h : m = 0x20) :
    Reads s L w (chk s [ckOn w, ckIs (fld w 5 5) 0] (.hwait (gd w) (fin w 0 4) (fld w 4 1 == 1)))
      fun i => ∃ g, ∃ _ _ : Unit, ∃ x : Fin 16 × Bool, i = .hwait g x.1 x.2 :=
  engine_reads (b := (fin w 0 4, fld w 4 1 == 1)) (mk := fun g _ _ x => .hwait g x.1 x.2) hw hm (.is (v := 0xFFF) (by decide))
    (.is (v := 0) (by decide)) (.pair (k := 4) (n := 1) .fin .flag) (by subst h; intros; rfl) (by intros; show true = true ↔ _; simp)
      (by simp [ckOn])

theorem htest_reads (h : m = 0x21) :
    Reads s L w (chk s [ckOn w] (.htest (gd w) (ea w) (fin w 0 4) (fld w 4 1 == 1)))
      fun i => ∃ g, ∃ _ : Unit, ∃ d, ∃ x : Fin 16 × Bool, i = .htest g d x.1 x.2 :=
  engine_reads (b := (fin w 0 4, fld w 4 1 == 1)) (mk := fun g _ d x => .htest g d x.1 x.2) hw hm (.is (v := 0xFFF) (by decide))
    .fin (.pair (k := 4) (n := 1) .fin .flag) (by subst h; intros; rfl) (by intros; show true = true ↔ _; simp) (by simp [ckOn])

/-- WPOST and WWAIT: one register, at issue. -/
theorem issue1_reads {mk : Guard → Fin 32 → Instr} (henc : ∀ g a, encode (mk g a) = encE m g 0xFFF a.val 0)
    (hwf : ∀ g a, (mk g a).wellFormed L = true) :
    Reads s L w (chk s [ckOn w, ckIs (fld w 0 5) 0] (mk (gd w) (ea w))) fun i => ∃ g, ∃ _ : Unit, ∃ a, ∃ _ : Unit, i = mk g a :=
  engine_reads (mk := fun g _ a _ => mk g a) hw hm (.is (v := 0xFFF) (by decide)) .fin (.is (v := 0) (by decide))
    (fun g _ a _ => henc g a) (by simp [hwf]) (by simp [ckOn])

/-- LAUNCH and CADV: two registers, at issue. -/
theorem issue2_reads {mk : Guard → Fin 32 → Fin 32 → Instr} (henc : ∀ g a b, encode (mk g a b) = encE m g 0xFFF a.val b.val)
    (hwf : ∀ g a b, (mk g a b).wellFormed L = true) :
    Reads s L w (chk s [ckOn w] (mk (gd w) (ea w) (eb w))) fun i => ∃ g, ∃ _ : Unit, ∃ a b, i = mk g a b :=
  engine_reads (mk := fun g _ a b => mk g a b) hw hm (.is (v := 0xFFF) (by decide)) .fin .fin
    (fun g _ a b => henc g a b) (by simp [hwf]) (by simp [ckOn])

/-- BAR: no operand, at issue. -/
theorem issue0_reads {mk : Guard → Instr} (henc : ∀ g, encode (mk g) = encE m g 0xFFF 0 0) (hwf : ∀ g, (mk g).wellFormed L = true) :
    Reads s L w (chk s [ckOn w, ckIs (fld w 0 10) 0] (mk (gd w))) fun i => ∃ g, ∃ _ _ _ : Unit, i = mk g := by
  refine engine_reads (mk := fun g _ _ _ => mk g) hw hm (.is (v := 0xFFF) (by decide)) (.is (v := 0) (by decide)) (.is (v := 0) (by decide))
    (fun g _ _ _ => henc g) (by simp [hwf]) ?_
  have h0 : fld w 0 10 = 0 ↔ fld w 5 5 = 0 ∧ fld w 0 5 = 0 := by unfold fld; omega
  simp [ckOn, le_ckIs, h0]

end Formats

end Sys2Proof.Coding

/-! PROOFS. From words to instructions (O1): each row of the decoding tables answers an instruction whose word it was given. -/

namespace Sys2Proof.Coding
open Laws.Encoding (guard_lt sel_lt psel_lt ksel_lt)

/-! ### The tables, from words to instructions -/

/-- What a decoder answers is an instruction whose word this is, allowed by the operand restrictions and the slot. -/
def Coded (s : Slot) (L w : Nat) (r : Except Nat Instr) : Prop :=
  ∀ i, r = .ok i → encode i = w ∧ i.wellFormed L = true ∧ i.permitted s = true

theorem coded_error {s : Slot} {L w e : Nat} {r : Except Nat Instr} (h : r = .error e) : Coded s L w r := by
  intro i hi
  rw [h] at hi
  cases hi

theorem Reads.coded {s : Slot} {L w : Nat} {r : Except Nat Instr} {P : Instr → Prop} (h : Reads s L w r P) : Coded s L w r :=
  fun i hi => ((h i).1 hi).2

theorem vari_eq_three {w : Nat} (h0 : vari w = 0 → False) (h1 : vari w = 1 → False) (h2 : vari w = 2 → False) : vari w = 3 := by
  have hlt : vari w < 4 := fld_lt ..
  have : ¬ vari w = 0 ∧ ¬ vari w = 1 ∧ ¬ vari w = 2 := ⟨h0, h1, h2⟩
  omega

theorem WordField.vscan {w : Nat} {v : Fin 3} (h : vari w = v.val) : WordField 2 (vari w) (Fin.val : Fin 3 → Nat) v [] fun _ => True :=
  .code (fun b => by omega) (fun _ => Fin.ext) h

section Tables

variable {s : Slot} {L w : Nat} (hw : w < 2 ^ 32)
include hw

theorem kst0_coded {m v : Nat} (hm : maj w = m) (hv : vari w = v) {ck : Nat} {ok : Sel → Bool}
    (hck : WordField 6 (selA w) Sel.enc (toSel (selA w)) [ck] (fun a => ok a = true)) {mk : Guard → Fin 8 → Sel → Width → Instr}
    (henc : ∀ g d a wd, encode (mk g d a wd) = encRR m g d.val a.enc 35 (wd.code * 4 + v))
    (hwf : ∀ g d a wd, (mk g d a wd).wellFormed L = ok a) : Coded s L w (kst0 s w ck mk) := by
  by_cases hx : fld w 2 3 < 4
  · exact (kst0_reads hw hm hv hx hck henc hwf).coded
  · exact coded_error (if_pos (Nat.le_of_not_lt hx))

theorem decodeScalar_coded : Coded s L w (decodeScalar s L w) := by
  fun_cases decodeScalar s L w
  case case1 | case2 | case3 | case4 | case5 | case6 | case7 | case8 | case9 | case10 | case12 | case13 | case14 | case15 | case17 |
    case18 | case19 | case21 | case22 | case60 | case61 | case62 | case63 | case64 | case68 | case69 =>
    exact (rr3_reads hw ‹_› ‹_› (fun _ _ _ _ => rfl) (fun _ _ _ _ => rfl)).coded
  case case11 | case16 | case20 | case27 | case28 | case36 | case41 | case67 | case70 | case75 | case82 | case86 | case93 | case96 |
    case98 | case105 | case106 | case112 | case114 =>
    exact coded_error rfl
  case case23 | case24 | case25 | case26 | case65 | case66 | case83 | case111 =>
    exact (rr2_reads hw ‹_› ‹_› (fun _ _ _ => rfl) (fun _ _ _ => rfl)).coded
  case case29 =>
    exact (addsh_reads hw ‹_› (Nat.lt_of_not_le ‹_›) rfl).coded
  case case30 | case31 | case32 | case33 | case34 | case35 | case71 | case72 | case73 | case74 =>
    exact (rrq_reads hw ‹_› ‹_› (fun _ _ _ _ => rfl) (fun _ _ _ _ => rfl)).coded
  case case37 | case38 | case39 | case40 =>
    exact (rrp_reads hw ‹_› ‹_› (fun _ _ _ _ => rfl) (fun _ _ _ _ => rfl)).coded
  case case42 | case43 | case44 | case45 =>
    exact (ri_form_reads hw ‹_› (fun _ _ _ _ => rfl) (fun _ _ _ _ => rfl)).coded
  case case46 | case47 | case48 =>
    exact (ri6_reads hw ‹_› (fun _ _ _ _ => rfl) (fun _ _ _ _ => rfl)).coded
  case case49 | case50 | case51 =>
    exact (riq_reads hw ‹_› (fun _ _ _ _ => rfl) (fun _ _ _ _ => rfl)).coded
  case case52 =>
    exact (lcset_reads hw ‹_› rfl).coded
  case case53 =>
    exact (nopw_reads hw ‹_› rfl).coded
  case case54 | case55 | case56 | case57 | case58 | case59 =>
    exact (fi_reads hw ‹_› (fun _ _ => rfl) (fun _ _ => rfl)).coded
  case case76 | case77 | case78 | case79 | case80 | case81 =>
    exact (rrc_reads hw ‹_› ‹_› (fun _ _ _ _ => rfl) (fun _ _ _ _ => rfl)).coded
  case case84 | case87 | case88 | case89 | case90 | case91 | case92 =>
    exact (rr1_reads hw ‹_› ‹_› (fun _ _ => rfl) (fun _ _ => rfl)).coded
  case case85 | case94 | case104 | case110 =>
    exact (rr0_reads hw ‹_› ‹_› (fun _ _ => rfl) (fun _ _ => rfl)).coded
  case case95 | case97 =>
    exact (rr0b_reads hw ‹_› ‹_› (fun _ _ _ => rfl) (fun _ _ _ => rfl)).coded
  case case99 =>
    exact (trap_reads hw ‹_› rfl).coded
  case case100 =>
    exact (rfd_reads hw ‹_› rfl ‹_›).coded
  case case101 | case102 | case103 =>
    exact (rr1_reads hw ‹_› ‹_› (fun _ _ => rfl) (fun _ _ => rfl)).coded
  case case107 =>
    obtain ⟨h0, hx⟩ := not_or.1 ‹¬(_ ∨ _)›
    exact (xfence_reads hw ‹_› rfl h0 (Nat.lt_of_not_le hx)).coded
  case case108 | case109 | case113 =>
    exact (brw_reads hw ‹_› (fun _ _ => rfl) (fun _ _ => rfl)).coded

theorem decodeVector_coded : Coded s L w (decodeVector s L w) := by
  fun_cases decodeVector s L w
  case case1 | case2 | case3 | case4 | case5 | case6 | case7 | case8 | case9 | case10 | case11 | case12 | case13 | case14 | case15 =>
    cases ht : toIT (vari w) with
    | none => exact coded_error (e := 6) (by simp only [vi3, ht])
    | some t => exact (vi3_reads hw ‹_› ht (fun _ _ _ _ _ _ => rfl) (fun _ _ _ _ _ _ => rfl)).coded
  case case16 | case17 | case18 | case19 | case20 | case21 | case22 =>
    cases ht : toFT (vari w) with
    | none => exact coded_error (e := 6) (by simp only [vf3, ht])
    | some t => exact (vf3_reads hw ‹_› ht (fun _ _ _ _ _ _ => rfl) (fun _ _ _ _ _ _ => rfl)).coded
  case case23 | case24 =>
    cases ht : toFT (vari w) with
    | none => exact coded_error (e := 6) (by simp only [vf2, ht])
    | some t => exact (vf2_reads hw ‹_› ht (fun _ _ _ _ _ => rfl) (fun _ _ _ _ _ => rfl)).coded
  case case25 | case26 | case27 =>
    cases ht : toIT (vari w) with
    | none => exact coded_error (e := 6) (by simp only [vic, ht])
    | some t => exact (vic_reads hw ‹_› ht (fun _ _ _ _ _ _ => rfl) (fun _ _ _ _ _ _ => rfl)).coded
  case case28 | case29 | case30 | case31 =>
    cases ht : toFT (vari w) with
    | none => exact coded_error (e := 6) (by simp only [vfc, ht])
    | some t => exact (vfc_reads hw ‹_› ht (fun _ _ _ _ _ _ => rfl) (fun _ _ _ _ _ _ => rfl)).coded
  case case32 =>
    exact (vw3_reads hw ‹_› (fun _ _ _ _ _ _ => rfl) (fun _ _ _ _ _ _ => rfl)).coded
  case case33 | case34 | case35 | case36 | case37 =>
    exact (vcv_reads hw ‹_› (fun _ _ _ _ _ => rfl) (fun _ _ _ _ _ => rfl)).coded
  case case38 =>
    exact (vmov_reads hw ‹_› rfl).coded
  case case39 | case43 =>
    exact (ri_form_reads hw ‹_› (fun _ _ _ _ => rfl) (fun _ _ _ _ => rfl)).coded
  case case40 | case41 | case42 =>
    exact (ri5_reads hw ‹_› (fun _ _ _ _ => rfl) (fun _ _ _ _ => rfl)).coded
  case case44 | case45 | case46 | case47 =>
    exact (fi_reads hw ‹_› (fun _ _ => rfl) (fun _ _ => rfl)).coded
  case case48 | case49 | case50 =>
    exact (rrk_reads hw ‹_› ‹_› (fun _ _ _ _ => rfl) (fun _ _ _ _ => rfl)).coded
  case case51 =>
    exact (rrk_reads hw ‹_› (vari_eq_three ‹_› ‹_› ‹_›) (fun _ _ _ _ => rfl) (fun _ _ _ _ => rfl)).coded
  case case52 =>
    exact kst0_coded hw ‹_› ‹_› (.count L (selA_lt w)) (fun _ _ _ _ => rfl) (fun _ _ _ _ => rfl)
  case case53 | case54 =>
    exact kst0_coded hw ‹_› ‹_› (.sel L (selA_lt w)) (fun _ _ _ _ => rfl) (fun _ _ _ _ => rfl)
  case case55 | case56 | case64 | case65 | case67 | case69 =>
    exact coded_error rfl
  case case57 =>
    exact (vperm_reads hw ‹_› rfl ‹_›).coded
  case case58 | case59 | case60 =>
    exact (vwc_reads hw ‹_› (fun _ _ _ _ _ _ => rfl) (fun _ _ _ _ _ _ => rfl)).coded
  case case61 | case62 | case63 =>
    exact (rrc_masked_reads hw ‹_› (mk := .vscan) (.vscan ‹_›) (fun _ _ _ _ _ _ => rfl) (fun _ _ _ _ _ _ => rfl)).coded
  case case66 =>
    exact (rrc_masked_reads hw ‹_› (mk := .vredf) (.ftype ‹_›) (fun _ _ _ _ _ _ => rfl) (fun _ _ _ _ _ _ => rfl)).coded
  case case68 =>
    exact (rrc_masked_reads hw ‹_› (mk := .vredi) (.itype ‹_›) (fun _ _ _ _ _ _ => rfl) (fun _ _ _ _ _ _ => rfl)).coded

theorem decodeSpecial_coded : Coded s L w (decodeSpecial s L w) := by
  fun_cases decodeSpecial s L w
  case case1 | case2 | case3 | case4 | case5 | case6 | case7 | case10 | case11 =>
    exact (sf1_reads hw ‹_› (fun _ _ _ _ => rfl) (fun _ _ _ _ => rfl)).coded
  case case8 | case9 =>
    exact (sf2_reads hw ‹_› (fun _ _ _ _ _ => rfl) (fun _ _ _ _ _ => rfl)).coded
  case case12 =>
    exact (vrand_reads hw ‹_› rfl ‹_›).coded
  case case13 =>
    exact (vrandSeed_reads hw ‹_› rfl).coded
  case case14 =>
    exact coded_error rfl

theorem decodeMemory_coded : Coded s L w (decodeMemory s L w) := by
  fun_cases decodeMemory s L w
  case case1 | case2 | case3 | case4 | case5 | case6 | case7 =>
    exact (ld_reads hw ‹_› rfl ‹_›).coded
  case case8 | case21 | case28 =>
    exact coded_error rfl
  case case9 | case10 | case11 =>
    exact (st_reads hw ‹_› rfl ‹_›).coded
  case case12 =>
    exact (st_reads hw ‹_› rfl (vari_eq_three ‹_› ‹_› ‹_›)).coded
  case case13 | case14 =>
    exact (vw3_reads hw ‹_› (fun _ _ _ _ _ _ => rfl) (fun _ _ _ _ _ _ => rfl)).coded
  case case15 | case16 =>
    exact (ms3_reads hw ‹_› (fun _ _ _ _ _ _ => rfl) (fun _ _ _ _ _ _ => rfl)).coded
  case case17 | case18 =>
    exact (mx3_reads hw ‹_› (fun _ _ _ _ _ _ => rfl) (fun _ _ _ _ _ _ => rfl)).coded
  case case19 | case20 =>
    exact (vldb_reads hw ‹_› rfl ‹_›).coded
  case case22 | case23 =>
    exact (mk3_reads hw ‹_› (fun _ _ _ _ _ => rfl) (fun _ _ _ _ _ => rfl)).coded
  case case24 | case25 | case26 | case27 =>
    exact (ri_form_reads hw ‹_› (fun _ _ _ _ => rfl) (fun _ _ _ _ => rfl)).coded

theorem decodeEngine_coded : Coded s L w (decodeEngine s w) := by
  fun_cases decodeEngine s w
  case case1 =>
    exact (mset_reads hw ‹_› rfl).coded
  case case2 | case3 | case4 | case5 | case6 | case7 | case8 | case9 | case10 | case12 | case13 | case15 | case16 =>
    exact (e2_reads hw ‹_› (fun _ _ _ _ => rfl) (fun _ _ _ _ => rfl)).coded
  case case11 | case14 =>
    exact (issue1_reads hw ‹_› (fun _ _ => rfl) (fun _ _ => rfl)).coded
  case case17 =>
    exact (hwait_reads hw ‹_› rfl).coded
  case case18 =>
    exact (htest_reads hw ‹_› rfl).coded
  case case19 =>
    exact (coll_reads hw ‹_› rfl).coded
  case case20 | case21 | case22 =>
    exact (issue2_reads hw ‹_› (fun _ _ _ => rfl) (fun _ _ _ => rfl)).coded
  case case23 | case24 =>
    exact (issue0_reads hw ‹_› (fun _ => rfl) (fun _ => rfl)).coded
  case case25 =>
    exact coded_error rfl

/-- Whatever a slot decodes is an instruction of that word (R65). -/
theorem decodeWord_coded : Coded s L w (decodeWord s L w) := by
  unfold decodeWord
  split
  · exact decodeScalar_coded hw
  · exact decodeVector_coded hw
  · exact decodeSpecial_coded hw
  · exact decodeMemory_coded hw
  · exact decodeEngine_coded hw

end Tables
end Sys2Proof.Coding

/-! PROOFS. From instructions to words (O39): the word of each slot instruction meets its row of the decoding tables. -/

namespace Sys2Proof.Coding
open Laws.Encoding (guard_lt sel_lt psel_lt ksel_lt)

/-! ### The tables, from instructions to words -/

theorem Reads.ok {s : Slot} {L w : Nat} {r : Except Nat Instr} {P : Instr → Prop} {i : Instr} (h : Reads s L w r P) (hP : P i)
    (he : encode i = w) (hwf : i.wellFormed L = true) (hp : i.permitted s = true) : r = .ok i := (h i).2 ⟨hP, he, hwf, hp⟩

section Rows

variable {m d a b x w : Nat} {g : Guard}

theorem rr_row (h : encRR m g d a b x = w) (hm : m < 64) (hd : d < 32) (ha : a < 64) (hb : b < 64) (hx : x < 32) :
    w < 2 ^ 32 ∧ maj w = m ∧ minor w = x := by
  obtain ⟨hop, -, -, -, -, hx⟩ := (encRR_iff hd ha hb hx).1 h
  obtain ⟨hw, hm⟩ := (major_eq_iff hm).1 hop
  exact ⟨hw, hm, hx.symm⟩

theorem selA_of_encRR (h : encRR m g d a b x = w) (hd : d < 32) (ha : a < 64) (hb : b < 64) (hx : x < 32) : selA w = a := by
  obtain ⟨-, -, -, ha, -⟩ := (encRR_iff hd ha hb hx).1 h
  exact ha.symm

theorem ri_row (h : encRI m g d a x = w) (hm : m < 64) (hd : d < 32) (ha : a < 64) (hx : x < 2 ^ 11) : w < 2 ^ 32 ∧ maj w = m :=
  (major_eq_iff hm).1 ((encRI_iff hd ha hx).1 h).1

theorem fi_row {d : Fin 32} {imm : BitVec 20} (h : encFI m d imm = w) (hm : m < 64) : w < 2 ^ 32 ∧ maj w = m :=
  (major_eq_iff hm).1 (encFI_iff.1 h).1

theorem brw_row {off : BitVec 22} (h : encBR m g off = w) (hm : m < 64) : w < 2 ^ 32 ∧ maj w = m := (major_eq_iff hm).1 (encBR_iff.1 h).1

theorem e_row {o : Nat} (h : encE m g o a b = w) (hm : m < 64) (ho : o < 2 ^ 12) (ha : a < 32) (hb : b < 32) : w < 2 ^ 32 ∧ maj w = m :=
  (major_eq_iff hm).1 ((encE_iff ho ha hb).1 h).1

/-! The parts of a minor. -/

theorem minor_lt (k : Fin 8) (hx : x < 4) : k.val * 4 + x < 32 := by omega

theorem vari_of_minor {k : Nat} (h : minor w = k * 4 + x) (hx : x < 4) : vari w = x := by
  unfold minor fld at h
  unfold vari fld
  omega

theorem vari_of_small (h : minor w = x) (hx : x < 4) : vari w = x := vari_of_minor (k := 0) (h.trans (by omega)) hx

theorem itype_lt (t : IType) : t.code < 4 := by cases t <;> decide
theorem ftype_lt (t : FType) : t.code < 4 := by cases t <;> decide
theorem width_lt (t : Width) : t.code < 4 := by cases t <;> decide
theorem path_lt (p : PathClass) : p.code < 4 := by cases p <;> decide
theorem ldType_lt (t : LdType) : t.code < 8 := by cases t <;> decide
theorem stType_lt (t : StType) : t.code < 4 := by cases t <;> decide

/-- An XFENCE names a path class other than T (R148). -/
theorem fence_ne_zero {p q : PathClass} (h : (!(p == .t && q == .t)) = true) : q.code * 4 + p.code ≠ 0 := by
  revert h
  cases p <;> cases q <;> decide

theorem toIT_vari {k : Nat} {t : IType} (h : minor w = k * 4 + t.code) : toIT (vari w) = some t := by
  rw [vari_of_minor h (itype_lt t)]
  cases t <;> rfl

theorem toFT_vari {k : Nat} {t : FType} (h : minor w = k * 4 + t.code) : toFT (vari w) = some t := by
  rw [vari_of_minor h (ftype_lt t)]
  cases t <;> rfl

theorem kset_lt (t : Width) (hx : x < 4) : t.code * 4 + x < 32 := by
  have := width_lt t
  omega

theorem kset_width {t : Width} (h : minor w = t.code * 4 + x) (hx : x < 4) : fld w 2 3 < 4 := by
  have := width_lt t
  unfold minor fld at h
  unfold fld
  omega

end Rows

section Tables

variable {s : Slot} {L : Nat} {i : Instr} (hwf : i.wellFormed L = true) (hp : i.permitted s = true)
include hwf hp

theorem decodeScalar_encode (hsp : i.space = .scalar) : decodeScalar s L (encode i) = .ok i := by
  generalize he : encode i = w
  rw [decodeScalar]
  cases i with
  | add | sub | and | or | xor | andn | min | max | minl | maxl | shl | shr | sra | rol | mul | mulh | mulhl | extr | ins | fadd | fsub |
    fmul | fmin | fmax | fma | fmaD =>
    rename_i g d a b
    obtain ⟨hw, hm, hv⟩ := rr_row he (by decide) d.isLt (sel_lt a) (sel_lt b) (by decide)
    rw [hm, hv]
    exact Reads.ok (rr3_reads hw hm hv (fun _ _ _ _ => rfl) (fun _ _ _ _ => rfl)) ⟨g, d, a, b, (), rfl⟩ he hwf hp
  | clz | ctz | popc | brev | fabs | fneg | mov | jalr =>
    rename_i g d a
    obtain ⟨hw, hm, hv⟩ := rr_row he (by decide) d.isLt (sel_lt a) (by decide) (by decide)
    rw [hm, hv]
    exact Reads.ok (rr2_reads hw hm hv (fun _ _ _ => rfl) (fun _ _ _ => rfl)) ⟨g, d, a, (), (), rfl⟩ he hwf hp
  | addsh g d a b n =>
    obtain ⟨hw, hm, hv⟩ := rr_row he (by decide) d.isLt (sel_lt a) (sel_lt b) (by omega)
    rw [hm, if_neg (by omega)]
    exact Reads.ok (addsh_reads hw hm (by omega) rfl) ⟨g, d, a, b, n, rfl⟩ he hwf hp
  | cmpeq | cmpne | cmplt | cmple | cmplo | cmpls | fcmpeq | fcmplt | fcmple | fcmpun =>
    rename_i g d a b
    obtain ⟨hw, hm, hv⟩ := rr_row he (by decide) (by omega) (sel_lt a) (sel_lt b) (by decide)
    rw [hm, hv]
    exact Reads.ok (rrq_reads hw hm hv (fun _ _ _ _ => rfl) (fun _ _ _ _ => rfl)) ⟨g, d, a, b, (), rfl⟩ he hwf hp
  | pand | por | pxor | pandn =>
    rename_i g d a b
    obtain ⟨hw, hm, hv⟩ := rr_row he (by decide) (by omega) (psel_lt a) (psel_lt b) (by decide)
    rw [hm, hv]
    exact Reads.ok (rrp_reads hw hm hv (fun _ _ _ _ => rfl) (fun _ _ _ _ => rfl)) ⟨g, d, a, b, (), rfl⟩ he hwf hp
  | addi | andi | ori | xori =>
    rename_i g d a imm
    obtain ⟨hw, hm⟩ := ri_row he (by decide) d.isLt (sel_lt a) imm.isLt
    rw [hm]
    exact Reads.ok (ri_form_reads hw hm (fun _ _ _ _ => rfl) (fun _ _ _ _ => rfl)) ⟨g, d, a, imm, rfl⟩ he hwf hp
  | shli | shri | srai =>
    rename_i g d a n
    obtain ⟨hw, hm⟩ := ri_row he (by decide) d.isLt (sel_lt a) (by omega)
    rw [hm]
    exact Reads.ok (ri6_reads hw hm (fun _ _ _ _ => rfl) (fun _ _ _ _ => rfl)) ⟨g, d, a, n, rfl⟩ he hwf hp
  | cmpeqi | cmplti | cmploi =>
    rename_i g d a imm
    obtain ⟨hw, hm⟩ := ri_row he (by decide) (by omega) (sel_lt a) imm.isLt
    rw [hm]
    exact Reads.ok (riq_reads hw hm (fun _ _ _ _ => rfl) (fun _ _ _ _ => rfl)) ⟨g, d, a, imm, rfl⟩ he hwf hp
  | lcset g a e =>
    obtain ⟨hw, hm⟩ := ri_row he (by decide) (by decide) (sel_lt a) (by omega)
    rw [hm]
    exact Reads.ok (lcset_reads hw hm rfl) ⟨g, (), a, e, rfl⟩ he hwf hp
  | nopw g a imm =>
    obtain ⟨hw, hm⟩ := ri_row he (by decide) (by decide) (sel_lt a) imm.isLt
    rw [hm]
    exact Reads.ok (nopw_reads hw hm rfl) ⟨g, (), a, imm, rfl⟩ he hwf hp
  | movi | movhi | addl | fmovi | faddi | fmuli =>
    rename_i d imm
    obtain ⟨hw, hm⟩ := fi_row he (by decide)
    rw [hm]
    exact Reads.ok (fi_reads hw hm (fun _ _ => rfl) (fun _ _ => rfl)) ⟨d, imm, rfl⟩ he hwf hp
  | fcvtI64F32 | fcvtF32I64 | fcvtF16F32 | fcvtBf16F32 | fcvtF32F16 | fcvtF32Bf16 =>
    rename_i g d a c
    obtain ⟨hw, hm, hv⟩ := rr_row he (by decide) d.isLt (sel_lt a) (sel_lt c) (by decide)
    rw [hm, hv]
    exact Reads.ok (rrc_reads hw hm hv (fun _ _ _ _ => rfl) (fun _ _ _ _ => rfl)) ⟨g, d, a, c, (), rfl⟩ he hwf hp
  | pkq | rdcad | rdpcyc | rdtime | rdcore | flog | rdtimeFrac =>
    rename_i g d
    obtain ⟨hw, hm, hv⟩ := rr_row he (by decide) d.isLt (by decide) (by decide) (by decide)
    rw [hm, hv]
    exact Reads.ok (rr1_reads hw hm hv (fun _ _ => rfl) (fun _ _ => rfl)) ⟨g, d, (), (), (), rfl⟩ he hwf hp
  | upkq | setcb | settv | jr =>
    rename_i g a
    obtain ⟨hw, hm, hv⟩ := rr_row he (by decide) (by decide) (sel_lt a) (by decide) (by decide)
    rw [hm, hv]
    exact Reads.ok (rr0_reads hw hm hv (fun _ _ => rfl) (fun _ _ => rfl)) ⟨g, (), a, (), (), rfl⟩ he hwf hp
  | cbwr | waitt =>
    rename_i g a b
    obtain ⟨hw, hm, hv⟩ := rr_row he (by decide) (by decide) (sel_lt a) (sel_lt b) (by decide)
    rw [hm, hv]
    exact Reads.ok (rr0b_reads hw hm hv (fun _ _ _ => rfl) (fun _ _ _ => rfl)) ⟨g, (), a, b, (), rfl⟩ he hwf hp
  | trap g imm =>
    obtain ⟨hw, hm⟩ := ri_row he (by decide) (by decide) (by decide) imm.isLt
    rw [hm]
    exact Reads.ok (trap_reads hw hm rfl) ⟨g, (), (), imm, rfl⟩ he hwf hp
  | rfd g =>
    obtain ⟨hw, hm, hv⟩ := rr_row he (by decide) (by decide) (by decide) (by decide) (by decide)
    rw [hm, hv]
    exact Reads.ok (rfd_reads hw hm rfl hv) ⟨g, (), (), (), (), rfl⟩ he hwf hp
  | rdtrap g d n =>
    obtain ⟨hw, hm, hv⟩ := rr_row he (by decide) d.isLt (by decide) (by decide) (by omega)
    have hr := rr1_reads (s := s) (L := L) (mk := fun g d => .rdtrap g d n) hw hm hv (fun _ _ => rfl) (fun _ _ => rfl)
    refine Eq.trans ?_ (hr.ok ⟨g, d, (), (), (), rfl⟩ he hwf hp)
    rw [hm, hv]
    fin_cases n <;> rfl
  | xfence g p q =>
    obtain ⟨hw, hm, hv⟩ := rr_row he (by decide) (by decide) (by decide) (by decide) (by have := path_lt p; have := path_lt q; omega)
    have hx : minor w < 16 := by have := path_lt p; have := path_lt q; omega
    have hne : (!(p == .t && q == .t)) = true := hwf
    have h0 : minor w ≠ 0 := hv ▸ fence_ne_zero hne
    rw [hm, if_neg (not_or.2 ⟨h0, Nat.not_le_of_lt hx⟩)]
    exact Reads.ok (xfence_reads hw hm rfl h0 hx) ⟨g, (), (), (), (p, q), rfl⟩ he hwf hp
  | br | call | loop =>
    rename_i g off
    obtain ⟨hw, hm⟩ := brw_row he (by decide)
    rw [hm]
    exact Reads.ok (brw_reads hw hm (fun _ _ => rfl) (fun _ _ => rfl)) ⟨g, off, rfl⟩ he hwf hp
  | _ => exact absurd hsp (of_decide_eq_false rfl)

theorem decodeVector_encode (hsp : i.space = .vector) : decodeVector s L (encode i) = .ok i := by
  generalize he : encode i = w
  rw [decodeVector]
  cases i with
  | vadd | vsub | vmul | vmin | vmax | vminl | vmaxl | vand | vor | vxor | vshl | vshr | vsra | vadds | vsubs =>
    rename_i g d a b k t
    obtain ⟨hw, hm, hv⟩ := rr_row he (by decide) d.isLt (sel_lt a) (sel_lt b) (minor_lt k (itype_lt t))
    rw [hm]
    exact Reads.ok (vi3_reads hw hm (toIT_vari hv) (fun _ _ _ _ _ _ => rfl) (fun _ _ _ _ _ _ => rfl)) ⟨g, d, a, b, (t, k), rfl⟩ he hwf hp
  | vfadd | vfsub | vfmul | vfma | vfmad | vfmin | vfmax =>
    rename_i g d a b k t
    obtain ⟨hw, hm, hv⟩ := rr_row he (by decide) d.isLt (sel_lt a) (sel_lt b) (minor_lt k (ftype_lt t))
    rw [hm]
    exact Reads.ok (vf3_reads hw hm (toFT_vari hv) (fun _ _ _ _ _ _ => rfl) (fun _ _ _ _ _ _ => rfl)) ⟨g, d, a, b, (t, k), rfl⟩ he hwf hp
  | vfabs | vfneg =>
    rename_i g d a k t
    obtain ⟨hw, hm, hv⟩ := rr_row he (by decide) d.isLt (sel_lt a) (by decide) (minor_lt k (ftype_lt t))
    rw [hm]
    exact Reads.ok (vf2_reads hw hm (toFT_vari hv) (fun _ _ _ _ _ => rfl) (fun _ _ _ _ _ => rfl)) ⟨g, d, a, (), (t, k), rfl⟩ he hwf hp
  | vcmpeq | vcmplt | vcmple =>
    rename_i g d a b k t
    obtain ⟨hw, hm, hv⟩ := rr_row he (by decide) (by omega) (sel_lt a) (sel_lt b) (minor_lt k (itype_lt t))
    rw [hm]
    exact Reads.ok (vic_reads hw hm (toIT_vari hv) (fun _ _ _ _ _ _ => rfl) (fun _ _ _ _ _ _ => rfl)) ⟨g, d, a, b, (t, k), rfl⟩ he hwf hp
  | vfcmpeq | vfcmplt | vfcmple | vfcmpun =>
    rename_i g d a b k t
    obtain ⟨hw, hm, hv⟩ := rr_row he (by decide) (by omega) (sel_lt a) (sel_lt b) (minor_lt k (ftype_lt t))
    rw [hm]
    exact Reads.ok (vfc_reads hw hm (toFT_vari hv) (fun _ _ _ _ _ _ => rfl) (fun _ _ _ _ _ _ => rfl)) ⟨g, d, a, b, (t, k), rfl⟩ he hwf hp
  | vsel g d a b k t =>
    obtain ⟨hw, hm, -⟩ := rr_row he (by decide) d.isLt (sel_lt a) (sel_lt b) (minor_lt k (width_lt t))
    rw [hm]
    exact Reads.ok (vw3_reads hw hm (fun _ _ _ _ _ _ => rfl) (fun _ _ _ _ _ _ => rfl)) ⟨g, d, a, b, (t, k), rfl⟩ he hwf hp
  | vcvtf | vcvti | vcvtif | vwiden | vnarrow =>
    rename_i g d a c k
    obtain ⟨hw, hm, -⟩ := rr_row he (by decide) d.isLt (sel_lt a) (sel_lt c) (minor_lt k (by decide : 0 < 4))
    rw [hm]
    exact Reads.ok (vcv_reads hw hm (fun _ _ _ _ _ => rfl) (fun _ _ _ _ _ => rfl)) ⟨g, d, a, c, ((), k), rfl⟩ he hwf hp
  | vmov g d a k t =>
    obtain ⟨hw, hm, -⟩ := rr_row he (by decide) d.isLt (sel_lt a) (by decide) (minor_lt k (width_lt t))
    rw [hm]
    exact Reads.ok (vmov_reads hw hm rfl) ⟨g, d, a, (), (t, k), rfl⟩ he hwf hp
  | vaddi | vandi =>
    rename_i g d a imm
    obtain ⟨hw, hm⟩ := ri_row he (by decide) d.isLt (sel_lt a) imm.isLt
    rw [hm]
    exact Reads.ok (ri_form_reads hw hm (fun _ _ _ _ => rfl) (fun _ _ _ _ => rfl)) ⟨g, d, a, imm, rfl⟩ he hwf hp
  | vshli | vshri | vsrai =>
    rename_i g d a n
    obtain ⟨hw, hm⟩ := ri_row he (by decide) d.isLt (sel_lt a) (by omega)
    rw [hm]
    exact Reads.ok (ri5_reads hw hm (fun _ _ _ _ => rfl) (fun _ _ _ _ => rfl)) ⟨g, d, a, n, rfl⟩ he hwf hp
  | vfmovi | vfaddi | vfmuli | vmovi =>
    rename_i d imm
    obtain ⟨hw, hm⟩ := fi_row he (by decide)
    rw [hm]
    exact Reads.ok (fi_reads hw hm (fun _ _ => rfl) (fun _ _ => rfl)) ⟨d, imm, rfl⟩ he hwf hp
  | kand | kor | kxor | kandn =>
    rename_i g d a b
    obtain ⟨hw, hm, hv⟩ := rr_row he (by decide) (by omega) (ksel_lt a) (ksel_lt b) (by decide)
    rw [hm, vari_of_small hv (by decide)]
    exact Reads.ok (rrk_reads hw hm (vari_of_small hv (by decide)) (fun _ _ _ _ => rfl) (fun _ _ _ _ => rfl))
      ⟨g, d, a, b, (), rfl⟩ he hwf hp
  | ksetFirst g d a t =>
    obtain ⟨hw, hm, hv⟩ := rr_row he (by decide) (by omega) (sel_lt a) (by decide) (kset_lt t (by decide))
    rw [hm, vari_of_minor hv (by decide)]
    exact Reads.ok (kst0_reads hw hm (vari_of_minor hv (by decide)) (kset_width hv (by decide)) (.count L (selA_lt w))
      (fun _ _ _ _ => rfl) (fun _ _ _ _ => rfl)) ⟨g, d, a, (), ((), t), rfl⟩ he hwf hp
  | ksetNz | ksetNeg =>
    rename_i g d a t
    obtain ⟨hw, hm, hv⟩ := rr_row he (by decide) (by omega) (sel_lt a) (by decide) (kset_lt t (by decide))
    rw [hm, vari_of_minor hv (by decide)]
    exact Reads.ok (kst0_reads hw hm (vari_of_minor hv (by decide)) (kset_width hv (by decide)) (.sel L (selA_lt w)) (fun _ _ _ _ => rfl)
      (fun _ _ _ _ => rfl)) ⟨g, d, a, (), ((), t), rfl⟩ he hwf hp
  | vperm g d a b k t =>
    obtain ⟨hw, hm, hv⟩ := rr_row he (by decide) d.isLt (sel_lt a) (sel_lt b) (minor_lt k (width_lt t))
    have hne : vari w ≠ 3 := by
      rw [vari_of_minor hv (width_lt t)]
      intro h3
      obtain rfl : t = .w4 := by cases t <;> simp_all [Width.code]
      have hne : (a.ok L && b.ok L && Width.w4 != .w4) = true := hwf
      simp at hne
    rw [hm, if_neg hne]
    exact Reads.ok (vperm_reads hw hm rfl hne) ⟨g, d, a, b, (t, k), rfl⟩ he hwf hp
  | vshuf | vrot | vbcst =>
    rename_i g d a c k t
    obtain ⟨hw, hm, -⟩ := rr_row he (by decide) d.isLt (sel_lt a) (sel_lt c) (minor_lt k (width_lt t))
    rw [hm]
    exact Reads.ok (vwc_reads hw hm (fun _ _ _ _ _ _ => rfl) (fun _ _ _ _ _ _ => rfl)) ⟨g, d, a, c, (t, k), rfl⟩ he hwf hp
  | vscan g d a c k v =>
    obtain ⟨hw, hm, hv⟩ := rr_row he (by decide) d.isLt (sel_lt a) (sel_lt c) (minor_lt k (by omega : v.val < 4))
    have h := vari_of_minor hv (by omega)
    have hr := rrc_masked_reads (s := s) (L := L) hw hm (mk := .vscan) (.vscan h) (fun _ _ _ _ _ _ => rfl) (fun _ _ _ _ _ _ => rfl)
    refine Eq.trans ?_ (hr.ok ⟨g, d, a, c, (v, k), rfl⟩ he hwf hp)
    rw [hm, h]
    fin_cases v <;> rfl
  | vredf g d a c k t =>
    obtain ⟨hw, hm, hv⟩ := rr_row he (by decide) d.isLt (sel_lt a) (sel_lt c) (minor_lt k (ftype_lt t))
    rw [hm, toFT_vari hv]
    exact Reads.ok (rrc_masked_reads hw hm (mk := .vredf) (.ftype (toFT_vari hv)) (fun _ _ _ _ _ _ => rfl) (fun _ _ _ _ _ _ => rfl))
      ⟨g, d, a, c, (t, k), rfl⟩ he hwf hp
  | vredi g d a c k t =>
    obtain ⟨hw, hm, hv⟩ := rr_row he (by decide) d.isLt (sel_lt a) (sel_lt c) (minor_lt k (itype_lt t))
    rw [hm, toIT_vari hv]
    exact Reads.ok (rrc_masked_reads hw hm (mk := .vredi) (.itype (toIT_vari hv)) (fun _ _ _ _ _ _ => rfl) (fun _ _ _ _ _ _ => rfl))
      ⟨g, d, a, c, (t, k), rfl⟩ he hwf hp
  | _ => exact absurd hsp (of_decide_eq_false rfl)

theorem decodeSpecial_encode (hsp : i.space = .special) : decodeSpecial s L (encode i) = .ok i := by
  generalize he : encode i = w
  rw [decodeSpecial]
  cases i with
  | exp2 | log2 | rcp | rsq | sqrt | sin | cos | tanh | sigm =>
    rename_i g d a k
    obtain ⟨hw, hm, -⟩ := rr_row he (by decide) d.isLt (sel_lt a) (by decide) (minor_lt k (by decide : 0 < 4))
    rw [hm]
    exact Reads.ok (sf1_reads hw hm (fun _ _ _ _ => rfl) (fun _ _ _ _ => rfl)) ⟨g, d, a, (), ((), k), rfl⟩ he hwf hp
  | rcpnr | rsqnr =>
    rename_i g d a b k
    obtain ⟨hw, hm, -⟩ := rr_row he (by decide) d.isLt (sel_lt a) (sel_lt b) (minor_lt k (by decide : 0 < 4))
    rw [hm]
    exact Reads.ok (sf2_reads hw hm (fun _ _ _ _ _ => rfl) (fun _ _ _ _ _ => rfl)) ⟨g, d, a, b, ((), k), rfl⟩ he hwf hp
  | vrand g d k =>
    obtain ⟨hw, hm, -⟩ := rr_row he (by decide) d.isLt (by decide) (by decide) (minor_lt k (by decide : 0 < 4))
    have ha : selA w = 35 := selA_of_encRR he d.isLt (by decide) (by decide) (minor_lt k (by decide : 0 < 4))
    rw [hm, if_pos ha]
    exact Reads.ok (vrand_reads hw hm rfl ha) ⟨g, d, (), (), ((), k), rfl⟩ he hwf hp
  | vrandSeed g a =>
    obtain ⟨hw, hm, -⟩ := rr_row he (by decide) (by decide) (by omega) (by decide) (by decide)
    have ha : selA w ≠ 35 := by
      rw [selA_of_encRR he (by decide) (by omega) (by decide) (by decide)]
      omega
    rw [hm, if_neg ha]
    exact Reads.ok (vrandSeed_reads hw hm rfl) ⟨g, (), a, (), (), rfl⟩ he hwf hp
  | _ => exact absurd hsp (of_decide_eq_false rfl)

theorem decodeMemory_encode (hsp : i.space = .memory) : decodeMemory s L (encode i) = .ok i := by
  generalize he : encode i = w
  rw [decodeMemory]
  cases i with
  | ld g d a b t =>
    obtain ⟨hw, hm, hv⟩ := rr_row he (by decide) d.isLt (sel_lt a) (sel_lt b) (by have := ldType_lt t; omega)
    have h : fld w 0 3 = t.code := by
      have := ldType_lt t
      unfold minor fld at hv
      unfold fld
      omega
    refine Eq.trans ?_ (Reads.ok (ld_reads (s := s) (L := L) hw hm rfl h) ⟨g, d, a, b, t, rfl⟩ he hwf hp)
    rw [hm, h]
    cases t <;> rfl
  | st g d a b t =>
    obtain ⟨hw, hm, hv⟩ := rr_row he (by decide) d.isLt (sel_lt a) (sel_lt b) (by have := stType_lt t; omega)
    have h := vari_of_small hv (stType_lt t)
    refine Eq.trans ?_ (Reads.ok (st_reads (s := s) (L := L) hw hm rfl h) ⟨g, d, a, b, t, rfl⟩ he hwf hp)
    rw [hm, h]
    cases t <;> rfl
  | vld | vst =>
    rename_i g d a b k t
    obtain ⟨hw, hm, -⟩ := rr_row he (by decide) d.isLt (sel_lt a) (sel_lt b) (minor_lt k (width_lt t))
    rw [hm]
    exact Reads.ok (vw3_reads hw hm (fun _ _ _ _ _ _ => rfl) (fun _ _ _ _ _ _ => rfl)) ⟨g, d, a, b, (t, k), rfl⟩ he hwf hp
  | vlds | vsts =>
    rename_i g d a b k p
    obtain ⟨hw, hm, -⟩ := rr_row he (by decide) d.isLt (sel_lt a) (sel_lt b) (minor_lt k p.isLt)
    rw [hm]
    exact Reads.ok (ms3_reads hw hm (fun _ _ _ _ _ _ => rfl) (fun _ _ _ _ _ _ => rfl)) ⟨g, d, a, b, (p, k), rfl⟩ he hwf hp
  | vldx | vstx =>
    rename_i g d a b k p
    obtain ⟨hw, hm, -⟩ := rr_row he (by decide) d.isLt (sel_lt a) (by omega) (minor_lt k p.isLt)
    rw [hm]
    exact Reads.ok (mx3_reads hw hm (fun _ _ _ _ _ _ => rfl) (fun _ _ _ _ _ _ => rfl)) ⟨g, d, a, b, (p, k), rfl⟩ he hwf hp
  | vldb g d a b k int =>
    obtain ⟨hw, hm, hv⟩ := rr_row he (by decide) d.isLt (sel_lt a) (sel_lt b)
      (minor_lt k (by have := Bool.toNat_lt int; omega : int.toNat < 4))
    have h := vari_of_minor hv (by have := Bool.toNat_lt int; omega)
    refine Eq.trans ?_ (Reads.ok (vldb_reads (s := s) (L := L) hw hm rfl h) ⟨g, d, a, b, (int, k), rfl⟩ he hwf hp)
    rw [hm, h]
    cases int <;> rfl
  | kld | kst =>
    rename_i g d a b t
    obtain ⟨hw, hm, -⟩ := rr_row he (by decide) (by omega) (sel_lt a) (sel_lt b) (by have := width_lt t; omega)
    rw [hm]
    exact Reads.ok (mk3_reads hw hm (fun _ _ _ _ _ => rfl) (fun _ _ _ _ _ => rfl)) ⟨g, d, a, b, t, rfl⟩ he hwf hp
  | ldi | sti | vldi | vsti =>
    rename_i g d a imm
    obtain ⟨hw, hm⟩ := ri_row he (by decide) d.isLt (sel_lt a) imm.isLt
    rw [hm]
    exact Reads.ok (ri_form_reads hw hm (fun _ _ _ _ => rfl) (fun _ _ _ _ => rfl)) ⟨g, d, a, imm, rfl⟩ he hwf hp
  | _ => exact absurd hsp (of_decide_eq_false rfl)

theorem decodeEngine_encode (hsp : i.space = .engine) : decodeEngine s (encode i) = .ok i := by
  generalize he : encode i = w
  rw [decodeEngine]
  cases i with
  | mset g o a k =>
    obtain ⟨hw, hm⟩ := e_row he (by decide) o.isLt a.isLt (by omega)
    rw [hm]
    exact Reads.ok (mset_reads hw hm rfl) ⟨g, o, a, k, rfl⟩ he hwf hp
  | mcall | mload | cpyaSpm | cpyaAcc | tlgo | get | put | putMc | racc | wstart | wcompl | wlock | wunlock =>
    rename_i g o a b
    obtain ⟨hw, hm⟩ := e_row he (by decide) o.isLt a.isLt b.isLt
    rw [hm]
    exact Reads.ok (e2_reads hw hm (fun _ _ _ _ => rfl) (fun _ _ _ _ => rfl)) ⟨g, o, a, b, rfl⟩ he hwf hp
  | wpost | wwait =>
    rename_i g a
    obtain ⟨hw, hm⟩ := e_row he (by decide) (by decide) a.isLt (by decide)
    rw [hm]
    exact Reads.ok (issue1_reads hw hm (fun _ _ => rfl) (fun _ _ => rfl)) ⟨g, (), a, (), rfl⟩ he hwf hp
  | hwait g h vis =>
    obtain ⟨hw, hm⟩ := e_row he (by decide) (by decide) (by decide) (by have := Bool.toNat_lt vis; omega)
    rw [hm]
    exact Reads.ok (hwait_reads hw hm rfl) ⟨g, (), (), (h, vis), rfl⟩ he hwf hp
  | htest g d h clr =>
    obtain ⟨hw, hm⟩ := e_row he (by decide) (by decide) d.isLt (by have := Bool.toNat_lt clr; omega)
    rw [hm]
    exact Reads.ok (htest_reads hw hm rfl) ⟨g, (), d, (h, clr), rfl⟩ he hwf hp
  | coll g o a h =>
    obtain ⟨hw, hm⟩ := e_row he (by decide) o.isLt a.isLt (by omega)
    rw [hm]
    exact Reads.ok (coll_reads hw hm rfl) ⟨g, o, a, h, rfl⟩ he hwf hp
  | launch | cadv | cadvEnd =>
    rename_i g a b
    obtain ⟨hw, hm⟩ := e_row he (by decide) (by decide) a.isLt b.isLt
    rw [hm]
    exact Reads.ok (issue2_reads hw hm (fun _ _ _ => rfl) (fun _ _ _ => rfl)) ⟨g, (), a, b, rfl⟩ he hwf hp
  | barQuad | barDie =>
    rename_i g
    obtain ⟨hw, hm⟩ := e_row he (by decide) (by decide) (by decide) (by decide)
    rw [hm]
    exact Reads.ok (issue0_reads hw hm (fun _ => rfl) (fun _ => rfl)) ⟨g, (), (), (), rfl⟩ he hwf hp
  | _ => exact absurd hsp (of_decide_eq_false rfl)


theorem decodeWord_encode : decodeWord s L (encode i) = .ok i := by
  have hsp : i.space = s.space := by
    unfold Instr.permitted at hp
    simp only [Bool.and_eq_true, beq_iff_eq] at hp
    exact hp.1
  unfold decodeWord
  split
  · exact decodeScalar_encode hwf hp (by rw [hsp]; assumption)
  · exact decodeVector_encode hwf hp (by rw [hsp]; assumption)
  · exact decodeSpecial_encode hwf hp (by rw [hsp]; assumption)
  · exact decodeMemory_encode hwf hp (by rw [hsp]; assumption)
  · exact decodeEngine_encode hwf hp (by rw [hsp]; cases s <;> simp_all [Slot.space])

end Tables
end Sys2Proof.Coding

/-! PROOFS. Chain commands, micro-steps and the statements about encodings (O1, O39). -/

namespace Sys2Proof.Coding

/-! ### Chain commands and micro-steps (R221, R244) -/

section Engines

variable {w lo n : Nat}

theorem fin_eq {k : Fin (2 ^ n)} (h : w / 2 ^ lo % 2 ^ n = k.val) : fin w lo n = k := Fin.ext h

theorem bits_eq {v : BitVec n} (h : w / 2 ^ lo % 2 ^ n = v.toNat) : BitVec.ofNat n (fld w lo n) = v := (WordField.bits.eq v h.symm).symm

theorem imm_eq {v : BitVec n} (h : w % 2 ^ n = v.toNat) : BitVec.ofNat n w = v := BitVec.eq_of_toNat_eq h

theorem flag_eq {b : Bool} (h : w / 2 ^ lo % 2 = b.toNat) : (fld w lo 1 == 1) = b := (WordField.flag.eq b h.symm).symm

/-- A chain command is its op, what stands between, and dt. -/
theorem chain_row {op x : Nat} {dt : BitVec 11} (h : encC op x dt = w) (hop : op < 16) (hx : x < 2 ^ 28) (h0 : x % 2 ^ 11 = 0) :
    w < 2 ^ 32 ∧ fld w 28 4 = op ∧ BitVec.ofNat 11 w = dt ∧ w / 2 ^ 11 % 2 ^ 17 = x / 2 ^ 11 := by
  have := dt.isLt
  unfold encC at h
  refine ⟨by omega, by unfold fld; omega, imm_eq (by omega), by omega⟩

end Engines

theorem decodeChain_encode {i : Instr} (hsp : i.space = .chain) : encode i < 2 ^ 32 ∧ decodeChain (encode i) = some i := by
  generalize he : encode i = w
  rw [decodeChain]
  cases i with
  | act k v dt | rowb k v dt | ptr k v dt =>
    obtain ⟨hw, hop, hdt, hx⟩ := chain_row he (by decide) (by omega) (by omega)
    rw [hop, hdt]
    refine ⟨hw, congrArg some ?_⟩
    rw [fin_eq (k := k) (by omega), bits_eq (v := v) (by omega)]
  | chainWaitt next v dt =>
    have := Bool.toNat_lt next
    obtain ⟨hw, hop, hdt, hx⟩ := chain_row he (by decide) (by omega) (by omega)
    rw [hop, hdt]
    refine ⟨hw, congrArg some ?_⟩
    rw [flag_eq (b := next) (by omega), bits_eq (v := v) (by omega)]
  | rd ba col dt | wr ba col dt =>
    obtain ⟨hw, hop, hdt, hx⟩ := chain_row he (by decide) (by omega) (by omega)
    rw [hop, hdt]
    refine ⟨hw, (if_pos (by unfold fld; omega)).trans ?_⟩
    rw [bits_eq (v := ba) (by omega), bits_eq (v := col) (by omega)]
  | pre ba dt | refpb ba dt =>
    obtain ⟨hw, hop, hdt, hx⟩ := chain_row he (by decide) (by omega) (by omega)
    rw [hop, hdt]
    refine ⟨hw, (if_pos (by unfold fld; omega)).trans ?_⟩
    rw [bits_eq (v := ba) (by omega)]
  | prea pc dt | refab pc dt | maint pc dt =>
    obtain ⟨hw, hop, hdt, hx⟩ := chain_row he (by decide) (by omega) (by omega)
    rw [hop, hdt]
    refine ⟨hw, (if_pos (by unfold fld; omega)).trans ?_⟩
    rw [fin_eq (k := pc) (by omega)]
  | lcnt k v dt | chainLoop k v dt =>
    obtain ⟨hw, hop, hdt, hx⟩ := chain_row he (by decide) (by omega) (by omega)
    rw [hop, hdt]
    refine ⟨hw, (if_pos (by unfold fld; omega)).trans ?_⟩
    rw [fin_eq (k := k) (by omega), bits_eq (v := v) (by omega)]
  | chainEnd dt =>
    obtain ⟨hw, hop, hdt, hx⟩ := chain_row he (by decide) (by omega) (by omega)
    rw [hop, hdt]
    exact ⟨hw, if_pos (by unfold fld; omega)⟩
  | _ => exact absurd hsp (of_decide_eq_false rfl)

theorem decodeMicro_encode {i : Instr} (hsp : i.space = .micro) : encode i < 2 ^ 64 ∧ decodeMicro (encode i) = some i := by
  generalize he : encode i = w
  rw [decodeMicro]
  cases i with
  | mend =>
    unfold encode at he
    dsimp only at he
    rw [show fld w 58 6 = 0x01 by unfold fld; omega]
    exact ⟨by omega, if_pos (by unfold fld; omega)⟩
  | mnop n =>
    unfold encode at he
    dsimp only at he
    rw [show fld w 58 6 = 0x02 by unfold fld; omega]
    refine ⟨by omega, (if_pos (by unfold fld; omega)).trans ?_⟩
    rw [imm_eq (v := n) (by omega)]
  | mseta k imm =>
    unfold encode at he
    dsimp only at he
    rw [show fld w 58 6 = 0x03 by unfold fld; omega]
    refine ⟨by omega, (if_pos (by unfold fld; omega)).trans ?_⟩
    rw [fin_eq (k := k) (by omega), imm_eq (v := imm) (by omega)]
  | madda k imm =>
    unfold encode at he
    dsimp only at he
    rw [show fld w 58 6 = 0x04 by unfold fld; omega]
    refine ⟨by omega, (if_pos (by unfold fld; omega)).trans ?_⟩
    rw [fin_eq (k := k) (by omega), imm_eq (v := imm) (by omega)]
  | msetc k imm =>
    unfold encode at he
    dsimp only at he
    rw [show fld w 58 6 = 0x05 by unfold fld; omega]
    refine ⟨by omega, (if_pos (by unfold fld; omega)).trans ?_⟩
    rw [fin_eq (k := k) (by omega), imm_eq (v := imm) (by omega)]
  | mloop k target =>
    unfold encode at he
    dsimp only at he
    rw [show fld w 58 6 = 0x06 by unfold fld; omega]
    refine ⟨by omega, (if_pos (by unfold fld; omega)).trans ?_⟩
    rw [fin_eq (k := k) (by omega), imm_eq (v := target) (by omega)]
  | msync mask =>
    unfold encode at he
    dsimp only at he
    rw [show fld w 58 6 = 0x07 by unfold fld; omega]
    refine ⟨by omega, (if_pos (by unfold fld; omega)).trans ?_⟩
    rw [imm_eq (v := mask) (by omega)]
  | agath s i wd stride a aoff nm =>
    have := Bool.toNat_lt stride
    unfold encode at he
    dsimp only at he
    rw [show fld w 58 6 = 0x08 by unfold fld; omega]
    refine ⟨by omega, (if_pos (by unfold fld; omega)).trans ?_⟩
    rw [fin_eq (k := s) (by omega), fin_eq (k := i) (by omega), fin_eq (k := wd) (by omega), flag_eq (b := stride) (by omega),
      fin_eq (k := a) (by omega), bits_eq (v := aoff) (by omega), imm_eq (v := nm) (by omega)]
  | wld d j int h =>
    have := Bool.toNat_lt int
    have := Bool.toNat_lt h
    unfold encode at he
    dsimp only at he
    rw [show fld w 58 6 = 0x09 by unfold fld; omega]
    refine ⟨by omega, (if_pos (by unfold fld; omega)).trans ?_⟩
    rw [fin_eq (k := d) (by omega), bits_eq (v := j) (by omega), flag_eq (b := int) (by omega), flag_eq (b := h) (by omega)]
  | wldp d fmt h =>
    have := Bool.toNat_lt h
    unfold encode at he
    dsimp only at he
    rw [show fld w 58 6 = 0x0A by unfold fld; omega]
    refine ⟨by omega, (if_pos (by unfold fld; omega)).trans ?_⟩
    rw [fin_eq (k := d) (by omega), fin_eq (k := fmt) (by omega), flag_eq (b := h) (by omega)]
  | aclr c coff nm =>
    unfold encode at he
    dsimp only at he
    rw [show fld w 58 6 = 0x0B by unfold fld; omega]
    refine ⟨by omega, (if_pos (by unfold fld; omega)).trans ?_⟩
    rw [fin_eq (k := c) (by omega), bits_eq (v := coff) (by omega), imm_eq (v := nm) (by omega)]
  | mma c coff a aoff afmt x2 h nm =>
    have := Bool.toNat_lt x2
    have := Bool.toNat_lt h
    unfold encode at he
    dsimp only at he
    rw [show fld w 58 6 = 0x0C by unfold fld; omega]
    refine ⟨by omega, (if_pos (by unfold fld; omega)).trans ?_⟩
    rw [fin_eq (k := c) (by omega), bits_eq (v := coff) (by omega), fin_eq (k := a) (by omega), bits_eq (v := aoff) (by omega),
      fin_eq (k := afmt) (by omega), flag_eq (b := x2) (by omega), flag_eq (b := h) (by omega), imm_eq (v := nm) (by omega)]
  | _ => exact absurd hsp (of_decide_eq_false rfl)

/-! ### The obligations -/

theorem slotWordsReadBack : Claims.SlotWordsReadBack := fun _ _ _ hwf _ hp => decodeWord_encode hwf hp

theorem engineWordsReadBack : Claims.EngineWordsReadBack := fun _ => ⟨decodeChain_encode, decodeMicro_encode⟩

/-- Settles O39: each row of the tables, from the instruction to its word and back. -/
theorem wordsReadBack : Obligations.WordsReadBack := ⟨slotWordsReadBack, engineWordsReadBack⟩

/-- Settles O1: each row of the tables, from a word that passes its checks to the instruction and back. -/
theorem slotWordsAreUnique : Obligations.SlotWordsAreUnique := fun i _ _ _ hw _ h => decodeWord_coded hw i h

end Sys2Proof.Coding

/-! PROOFS. A slot whose guard reads false (O3, R61), and what the operand forms supply (O4). -/

namespace Sys2Proof.Machine

open Sys2Proof

/-! ### Guards (R61, R69) -/

/-- The guard of a form without a guard field always reads true: q0, not inverted (R69, R80). -/
theorem State.guard_unguarded (s : State) : s.guard ⟨0, false⟩ = true := rfl

theorem State.ite_of_guard {s : State} {g : Guard} (h : s.guard g = false) (t : State) :
    (.next (if s.guard g = true then t else s) : Result) = .next s := s.slot_false h fun _ => t

/-- Settles O3: each slot form with a guard is an effect under that guard, and the guard of the others reads true. -/
theorem falseGuardDoesNothing : Obligations.FalseGuardDoesNothing := by
  intro i s hsp h
  have hslot : (i.space == .micro || i.space == .chain || i.space == .event) = false := by
    rcases hsp with hs | hs | hs | hs | hs <;> rw [hs] <;> rfl
  cases i with
  | movi | movhi | addl | fmovi | faddi | fmuli | vfmovi | vfaddi | vfmuli |
    vmovi => exact absurd (s.guard_unguarded.symm.trans h) (by decide)
  | mnop | mseta | madda | msetc | mloop | msync | agath | wld | wldp | aclr | mma | act | rd | wr | pre | prea | refab | refpb | maint |
    chainWaitt | ptr | rowb | lcnt | chainLoop | chainEnd | chainRdLanding | visibilityEvent | engineCommandStart | barrierRelease |
    flitReceipt | cmddb | scrubRange | repairLane | correctedErrorCount | repairDone | stackTemperature | ptpMessageReceipt |
    forwardedEventRecordReceipt | forwardedStatusReceipt | mend | resetRelease | phaseBoundary | stragglerBudgetExpiry |
    timeDrivenBoundary | powerAdmission | arrivalCount | daymark | routineEnd | idleChainCommand | refreshDebtIncrement |
    maintenanceDebtIncrement | maintSlotEnd | leaseGrant | translationInvalidate | invalidateWatchdogExpiry | remoteOperationReceipt |
    localReuseEvent | remoteTimeout | collectiveSequenceStart | collectiveCompletion | collectiveTimeout | trapDrainCompletion |
    rerunVerification | contextSave | contextRestore | recordCompletion | stationDown | stationRetrained | timeLockLoss | powerAlarm |
    powerAlarmRelease | attest | wrreg | rdreg | armtd | cadctlDriveArm | enqueue | memwr | memrd | groupdef | partset | preempt |
    mboxsend | armingCheck | werrRead | cerrstRead | perrstRead | eventQueueRead | wrrwWrite | phyctlClr |
    forwardedCommandReceipt => cases hslot
  | _ => exact State.ite_of_guard h _

/-! ### Operands (R74, R75, R80) -/

theorem Core.readS_of_ne {k : Core} {r : Fin 32} (h : r ≠ 0) : k.readS r = k.regs.s[r] := if_neg h

theorem Core.readK_of_ne {k : Core} {r : Fin 8} (h : r ≠ 0) : k.readK r = k.regs.k[r] := if_neg h

theorem Core.readQ_of_ne {k : Core} {r : Fin 8} (h : r ≠ 0) : k.readQ r = k.regs.q[r] := if_neg h

theorem State.word_lit {s : State} {n : Fin 3} {x : W32} (h : s.focus.lits[n.val]? = some x) : s.word (.lit n) = x :=
  (List.getD_eq_getElem?_getD ..).trans (by rw [h]; rfl)

/-- A word widens to a 64-bit operand of the same integer (R75). -/
theorem W32.toInt_widen (x : W32) : (x.signExtend 64).toInt = x.toInt := BitVec.toInt_signExtend_of_le (by decide)

/-- Settles O4: each selector by the operand form that reads it. -/
theorem operandValues : Obligations.OperandValues := by
  refine fun s => ⟨rfl, fun _ => Core.readS_of_ne, rfl, rfl, fun n x h => ?_, fun n => W32.toInt_widen _, fun _ => rfl, rfl, rfl, rfl,
    fun _ => Core.readQ_of_ne, rfl, rfl, rfl, fun _ => Core.readK_of_ne, rfl, rfl⟩
  have hx := State.word_lit h
  exact ⟨(W32.toInt_widen _).trans (congrArg _ hx), congrArg BitVec.toNat hx⟩

end Sys2Proof.Machine

/-! PROOFS. What a step at a posted instruction, at a chain command and at a micro-step runs (O40, R60, R217, R241, R244, R442). -/

namespace Sys2Proof.Machine

open Sys2Proof

/-! ### The focus of an event -/

theorem coreFocus_core {c : Nat} (hc : c < 256) : (coreFocus c).core.val = c := Nat.mod_eq_of_lt hc

theorem State.cur_take1 {it : Item} (hc : it.core < 256) (s : State) (rest : List Item) : (s.take1 it rest).cur = s.core it.core :=
  congrArg s.core (coreFocus_core hc)

theorem step_eq {s : State} {it : Item} {rest : List Item} (ha : s.agenda = it :: rest) :
    step s = (s.take1 it rest).event it.core it.ev exec := by simp only [step, ha]

theorem Core.marked_of_nil {k : Core} (hm : k.marks = []) (st : Store) (us : List Nat) (hard : Bool) : k.marked st us hard = none := by
  rw [Core.marked, hm]; rfl

/-! ### The sequencers -/

/-- The state in which the step of a routine runs: the focus is on the engine, at the address of the call. -/
def State.onStep (s : State) (addr : Nat) : State := { s with focus := { s.focus with addr := addr, slot := .eng } }

section Sequencer

variable {s : State} {q : Seq} (hq : s.mx.seq = some q) (hl : q.step < 8192) (hm : s.cur.marks = []) (ex : Instr → State → Result)
include hq hl hm

/-- R217: a micro-step is fetched with the engine in focus; it waits for its unit. -/
theorem State.seqStep_of_busy (h : s.cyc < unitFree q (Sp.get 0 s.mx.rstore q.step).toNat) :
    s.seqStep ex = .next ((s.onStep q.addr).later
      (unitFree q (Sp.get 0 s.mx.rstore q.step).toNat) pEngine .seqStep) := by
  have hmk : (s.onStep q.addr).cur.marked .rstore [q.step] true = none := Core.marked_of_nil (k := s.cur) hm ..
  simp only [State.seqStep, hq, if_neg (Nat.not_le.mpr hl)]
  rw [State.onStep] at hmk
  rw [hmk]
  exact (if_neg Bool.false_ne_true).trans (if_pos h)

/-- R217: a micro-step whose unit is free issues. -/
theorem State.seqStep_of_free (h : unitFree q (Sp.get 0 s.mx.rstore q.step).toNat ≤ s.cyc) {i : Instr}
    (hi : decodeMicro (Sp.get 0 s.mx.rstore q.step).toNat = some i) :
    s.seqStep ex = ex i (s.onStep q.addr) := by
  have hmk : (s.onStep q.addr).cur.marked .rstore [q.step] true = none := Core.marked_of_nil (k := s.cur) hm ..
  have hfix : (s.onStep q.addr).fixes s.focus.core.val .rstore [q.step] = s.onStep q.addr :=
    State.fixes_of_nil (s := s.onStep q.addr) hm _ _
  simp only [State.seqStep, hq, if_neg (Nat.not_le.mpr hl)]
  rw [State.onStep] at hmk hfix
  rw [hmk, hfix]
  refine (if_neg Bool.false_ne_true).trans ((if_neg (Nat.not_lt.mpr h)).trans ?_)
  split
  next hn => cases hn.symm.trans hi
  next j hj => exact congrArg (ex · _) (Option.some.inj (hj.symm.trans hi))

end Sequencer

/-- R244: a chain command that its index names, and that decodes, is executed. -/
theorem State.chainStep_of_decode {s : State} {r : ChainRun} {i : Instr} (hr : s.ch.run = some r) (hl : r.idx < 16384)
    (hm : s.cur.marks = []) (hi : decodeChain (s.ch.word r.idx).toNat = some i) (ex : Instr → State → Result) :
    s.chainStep ex = ex i s := by
  have hf : (if r.firmware then s else s.fixes s.focus.core.val .chainMem [r.idx / 2]) = s := by
    rw [State.fixes_of_nil hm, ite_self]
  simp only [State.chainStep, hr, if_neg (Nat.not_le.mpr hl), Core.marked_of_nil hm, Option.isSome_none, Bool.and_false, hf, hi]
  rfl

theorem stepRunsPostedInstruction : Claims.StepRunsPostedInstruction := by
  intro s it rest f i ha he
  rw [step_eq ha, he]
  rfl

theorem stepRunsChainCommand : Claims.StepRunsChainCommand := by
  intro s it rest r i ha hc he h hr hl hm
  have hcur : (s.take1 it rest).cur = s.core it.core := s.cur_take1 hc rest
  refine ⟨fun hf => by simp [Channel.word, hr, hf], fun hi => ?_⟩
  rw [step_eq ha, he]
  refine State.chainStep_of_decode (r := r) ?_ hl ?_ ?_ exec
  · rw [State.ch, hcur]; exact hr
  · rw [hcur]; exact hm
  · rw [State.ch, hcur]; exact hi

theorem stepRunsMicroStep : Claims.StepRunsMicroStep := by
  intro s it rest q i ha hc he hq hl hm w t
  have hcur : (s.take1 it rest).cur = s.core it.core := s.cur_take1 hc rest
  have hseq : (s.take1 it rest).mx.seq = some q := by rw [State.mx, hcur]; exact hq
  have hmarks : (s.take1 it rest).cur.marks = [] := by rw [hcur]; exact hm
  have hw : (Sp.get 0 (s.take1 it rest).mx.rstore q.step).toNat = w := by rw [State.mx, hcur]
  have hlater : t.later (unitFree q w) pEngine .seqStep = t.at it.core (unitFree q w) pEngine .seqStep :=
    congrArg (fun c => t.at c (unitFree q w) pEngine .seqStep) (coreFocus_core hc)
  rw [step_eq ha, he]
  refine ⟨fun h hi => State.seqStep_of_free hseq hl hmarks exec (hw ▸ h) (hw ▸ hi), fun h => ?_⟩
  refine (State.seqStep_of_busy hseq hl hmarks exec (hw ▸ h)).trans ?_
  rw [hw]
  exact congrArg _ hlater

/-- Settles O40: the event at the front of the agenda is the sequencer's, or the instruction itself, and each runs what it reads. -/
theorem stepsRunInstructions : Obligations.StepsRunInstructions :=
  ⟨stepRunsPostedInstruction, stepRunsChainCommand, stepRunsMicroStep⟩

end Sys2Proof.Machine

/-! PROOFS. What a step at an issue does: the fetch, the bundle that it gives or the fault that it meets, and what follows (O41, R57, R60,
R63, R65, R140, R376, R382, R393). -/

namespace Sys2Proof.Machine

open Sys2Proof

/-! ### The fetch (R57, R63, R65, R393) -/

section Fetch

variable {k : Core} {flow : Bool} {n a : Nat}

theorem Core.fetch_beyond (ha : 0x80000 ≤ a) : k.fetch flow (n + 1) a = .bad (Err.plain 1 11 15 k.lastAddr) := by
  rw [Core.fetch, if_pos ha]

theorem Core.fetch_marked {m : Mark} (ha : a < 0x80000) (hm : k.marked .imem (lineWords a) true = some m) :
    k.fetch flow (n + 1) a = .bad { Err.plain 0x1C 1 15 a with loc := BitVec.ofNat 32 (8 * m.unit) } := by
  rw [Core.fetch, if_neg (Nat.not_le.mpr ha), hm]

section Unmarked

variable (ha : a < 0x80000) (hm : k.marked .imem (lineWords a) true = none)
include ha hm

theorem Core.fetch_filler (hb : decodeBundle a flow (k.parcels a) = .filler) :
    k.fetch flow (n + 1) a = k.fetch flow n (a + 64 - a % 64) := by
  simp only [Core.fetch, if_neg (Nat.not_le.mpr ha), hm, hb]

theorem Core.fetch_fault {info slot : Nat} (hb : decodeBundle a flow (k.parcels a) = .fault info slot) :
    k.fetch flow (n + 1) a = .bad (Err.plain 1 info slot a) := by
  simp only [Core.fetch, if_neg (Nat.not_le.mpr ha), hm, hb]

theorem Core.fetch_bundle {b : Bundle} (hb : decodeBundle a flow (k.parcels a) = .bundle b) :
    k.fetch flow (n + 1) a = .bundle a b := by
  simp only [Core.fetch, if_neg (Nat.not_le.mpr ha), hm, hb]

end Unmarked

/-- The errors that a fetch gives: a decoding fault, or one of the line that has an uncorrectable word. -/
def Core.fetchFault (k : Core) (e : Err) : Prop :=
  e.cls = 1 ∨ e.cls = 0x1C ∧ ∃ m, k.marked .imem (lineWords e.addr) true = some m

theorem Core.fetchFault_of_fetch {e : Err} (h : k.fetch flow n a = .bad e) : k.fetchFault e := by
  induction n generalizing a with
  | zero =>
    cases h
    exact .inl rfl
  | succ n ih =>
    by_cases ha : a < 0x80000
    · cases hm : k.marked .imem (lineWords a) true with
      | some m =>
        rw [Core.fetch_marked ha hm] at h
        cases h
        exact .inr ⟨rfl, m, hm⟩
      | none =>
        cases hb : decodeBundle a flow (k.parcels a) with
        | filler =>
          rw [Core.fetch_filler ha hm hb] at h
          exact ih h
        | fault info slot =>
          rw [Core.fetch_fault ha hm hb] at h
          cases h
          exact .inl rfl
        | bundle b =>
          rw [Core.fetch_bundle ha hm hb] at h
          cases h
    · rw [Core.fetch_beyond (Nat.not_lt.mp ha)] at h
      cases h
      exact .inl rfl

end Fetch

theorem fetchReadsLines : Claims.FetchReadsLines := by
  intro k flow n a
  exact ⟨Core.fetch_beyond, fun m => Core.fetch_marked, fun ha hm =>
    ⟨fun b => Core.fetch_bundle ha hm, fun info slot => Core.fetch_fault ha hm, Core.fetch_filler ha hm⟩, rfl⟩

/-! ### What comes before the words of a bundle, at its core -/

/-- A core but for its waits, and what it has seen. -/
def Core.unwaited (k : Core) : Core := { k with loose := [], known := [], issued := none }

theorem State.keeps_endWaits (s : State) (c : Nat) : s.keeps Core.unwaited (s.endWaits c) := by
  unfold State.endWaits State.seesBy State.sees
  cases (s.core c).issued with
  | none => exact s.keeps_refl _
  | some i =>
    dsimp only
    refine State.keeps.trans ?_ (State.keeps_modCore _ c fun _ => rfl)
    split
    · exact s.keeps_refl _
    · exact s.keeps_modCore c fun _ => rfl

/-- The counting of corrected reads changes CERRST alone (R367). -/
theorem State.core_fixes (s : State) (c : Nat) (st : Store) (us : List Nat) :
    ∃ x, (s.fixes c st us).core c = { s.core c with cerrst := x } := by
  unfold State.fixes
  split
  · exact ⟨_, rfl⟩
  · unfold State.corrected State.vector
    extract_lets old t
    have ht : t.core c = _ := State.core_modCore_same s c _
    split
    · rw [State.msi_eq]
      exact ⟨_, ht⟩
    · exact ⟨_, ht⟩

theorem State.core_fetchFixes (s : State) (c upto : Nat) : ∃ x, (s.fetchFixes c upto).core c = { s.core c with cerrst := x } := by
  unfold State.fetchFixes
  split
  · exact ⟨_, rfl⟩
  · exact s.core_fixes c .imem _

theorem State.core_raiseAll (s : State) (c : Nat) (es : List Err) :
    (s.raiseAll c es).core c = { s.core c with errs := (s.core c).errs ++ es } := by
  induction es generalizing s with
  | nil => rw [List.append_nil]; rfl
  | cons e es ih =>
    have h1 : (s.raiseOn c e).core c = { s.core c with errs := (s.core c).errs ++ [e] } := by
      rw [State.raiseOn, State.core_at, State.core_modCore_same]
    have h2 : s.raiseAll c (e :: es) = (s.raiseOn c e).raiseAll c es := rfl
    rw [h2, ih, h1, List.append_assoc, List.singleton_append]

/-! ### The issue (R60, R141, R369) -/

/-- A core that holds a task, waits for nothing and meets no error at this cycle. -/
structure State.mayIssue (s : State) (c : Nat) : Prop where
  life : (s.core c).life = .task
  errs : (s.core c).errs = []
  drain : (s.core c).drain = none
  arrival : (s.core c).arrival = none
  rfd : (s.core c).rfd = false ∨ (s.core c).delay.isSome = true
  waits : s.waitsOn c = []
  goes : s.stopsHere c exec = false

theorem State.mayIssue.issue_eq {s : State} {c : Nat} (h : s.mayIssue c) : s.issue c exec = (s.endWaits c).issueBundle c exec := by
  have hr : (s.core c).returning = false := by
    rw [Core.returning]
    obtain hf | hd := h.rfd
    · rw [hf, Bool.false_and]
    · rw [Option.isNone_eq_false_iff.mpr hd, Bool.and_false]
  have hidle : ¬((s.core c).errs ≠ [] ∨ (s.core c).drain.isSome ∨ (s.core c).life ≠ .task) := by simp [h.errs, h.drain, h.life]
  simp [State.issue, hidle, hr, h.arrival, h.waits, h.goes]

theorem step_issue {s : State} {it : Item} {rest : List Item} (ha : s.agenda = it :: rest) (he : it.ev = .issue)
    (h : (s.take1 it rest).mayIssue it.core) : step s = ((s.take1 it rest).endWaits it.core).issueBundle it.core exec := by
  rw [step_eq ha, he, ← h.issue_eq]
  rfl

/-- R60, R392: a bundle issues where its slots meet no error but that of a TRAP, and it does not end a rerun under verification. -/
theorem State.issueBundle_of_bundle {s t : State} {c addr : Nat} {b : Bundle} {ex : Instr → State → Result}
    (hf : (s.core c).fetchNext = .bundle addr b)
    (ht : if b.k then ex .daymark { s.modCore c fun k => k.begin addr s.cyc b with focus := slotFocus c addr b .s0 } = .next t
      else t = { s.modCore c fun k => k.begin addr s.cyc b with focus := slotFocus c addr b .s0 })
    (hes : ∀ w ∈ b.words, ∀ e ∈ t.slotErrs c addr b ex w, e.cls = 9)
    (hv : (s.core c).verify.any (fun v => v.stage == 1 || v.stage == 2) = false ∨ s.endsRegion c addr b = false) :
    s.issueBundle c ex = s.place c addr b ex := by
  have hany : (b.words.flatMap (t.slotErrs c addr b ex)).any (·.cls != 9) = false := by
    simp only [List.any_eq_false, List.mem_flatMap, bne_iff_ne, ne_eq, Decidable.not_not]
    rintro e ⟨w, hw, he⟩
    exact hes w hw e he
  have hver : ((s.core c).verify.any (fun v => v.stage == 1 || v.stage == 2) && s.endsRegion c addr b) = false := by
    rw [Bool.and_eq_false_iff]; exact hv
  unfold State.issueBundle
  rw [hf]
  cases hk : b.k
  · rw [hk, if_neg Bool.false_ne_true] at ht
    subst ht
    simp only [hk, if_neg Bool.false_ne_true, hany, hver]
  · rw [hk, if_pos rfl] at ht
    simp only [hk, if_pos, ht, hany, hver, if_neg Bool.false_ne_true]

theorem State.issueBundle_of_bad {s : State} {c : Nat} {e : Err} (hf : (s.core c).fetchNext = .bad e) (ex : Instr → State → Result) :
    s.issueBundle c ex = .next ((s.fetchFixes c (fetchEnd e)).raiseAll c (s.fetchErrs c e)) := by
  unfold State.issueBundle
  rw [hf]

theorem stepIssuesBundle : Claims.StepIssuesBundle := by
  intro s it rest addr b ha hc he c s0 k s1 begun hlife herrs hdrain harr hrfd hwaits hgoes hf hv
  refine ⟨fun t ht hes => ?_, rfl, fun hm hq => ?_⟩
  · have hstep : step s = s1.issueBundle c exec := step_issue ha he ⟨hlife, herrs, hdrain, harr, hrfd, hwaits, hgoes⟩
    rw [hstep, State.issueBundle_of_bundle hf ht hes hv]
    rfl
  · have hm1 : (s1.core c).marks = [] := by
      exact (congrArg Core.marks ((s0.keeps_endWaits c).2 c)).trans hm
    simp only [State.placeBegin, State.bundleFixes, if_pos hm1, hq]
    rfl

/-! ### What follows a bundle (R60, R140, R376) -/

theorem State.drain_stopChain (s : State) (c t : Nat) : ((s.stopChain c t).core c).drain = (s.core c).drain := by
  obtain ⟨-, h⟩ := s.keeps_stopChain c t
  exact (congrArg Core.drain (h c) :)

theorem State.drain_setDrain (s : State) (c : Nat) (d : Drain) (own : Bool) :
    ∃ ch, ((s.setDrain c d own).core c).drain = some { d with chain := ch } := by
  unfold State.setDrain
  extract_lets k stop chain u
  have hu : (u.core c).drain = some _ := congrArg Core.drain (State.core_modCore_same ..)
  refine ⟨_, Eq.trans ?_ hu⟩
  split
  · exact State.drain_stopChain ..
  · rfl

/-- R376: the drain of an RFD begins at this cycle. -/
theorem State.drain_rfdDrain (s : State) (c : Nat) : ∃ d, ((s.rfdDrain c).core c).drain = some d ∧ d.rfd = true ∧ d.f = s.cyc := by
  unfold State.rfdDrain State.beginDrain
  extract_lets u
  obtain ⟨ch, h⟩ := u.drain_setDrain c (s.drainFrom c (Err.plain 9 0 15 (s.core c).lastAddr) false true false) false
  rw [State.core_atLast]
  exact ⟨_, h, rfl, rfl⟩

/-- A core goes on as k', and issues next at a cycle unless it has arrived. -/
def State.nextIssue (s : State) (c : Nat) (k' : Core) (at_ : Nat) : State :=
  if (s.core c).arrival.isSome && !k'.returning then s.setCore c k' else (s.setCore c k').at c at_ pIssue .issue

theorem State.nextIssue_of_not_returning {k' : Core} (h : k'.returning = false) (s : State) (c at_ : Nat) :
    s.nextIssue c k' at_ = if (s.core c).arrival.isSome then s.setCore c k' else (s.setCore c k').at c at_ pIssue .issue := by
  rw [State.nextIssue, h, Bool.not_false, Bool.and_true]

theorem State.nextIssue_of_returning {k' : Core} (h : k'.returning = true) (s : State) (c at_ : Nat) :
    s.nextIssue c k' at_ = (s.setCore c k').at c at_ pIssue .issue := by
  rw [State.nextIssue, h, Bool.not_true, Bool.and_false, if_neg Bool.false_ne_true]

section EndBundle

variable {s : State} {c : Nat} {i : Issued} (hi : (s.core c).issued = some i)
include hi

theorem State.endBundle_of_rfd (hd : (s.core c).delay = none) (hr : (s.core c).rfd = true) (hs : (s.core c).shadow = none)
    (he : (s.core c).errs = []) : s.endBundle c = (s.setCore c { s.core c with pc := i.addr + i.size, flow := true }).rfdDrain c := by
  simp [State.endBundle, hi, hd, hr, hs, he]

theorem State.endBundle_of_none (hd : (s.core c).delay = none)
    (h : (s.core c).rfd = false ∨ (s.core c).shadow.isSome = true ∨ (s.core c).errs ≠ []) :
    s.endBundle c = s.nextIssue c { s.core c with pc := i.addr + i.size, flow := true, delay := i.taken } i.until_ := by
  have hn : ¬((s.core c).rfd ∧ (s.core c).delay.isNone ∧ (s.core c).shadow.isNone ∧ (s.core c).errs = []) := by
    rintro ⟨h1, -, h2, h3⟩
    obtain h | h | h := h
    · exact Bool.false_ne_true (h.symm.trans h1)
    · rw [Option.isNone_iff_eq_none.mp h2] at h
      exact Bool.false_ne_true h
    · exact h h3
  unfold State.endBundle
  dsimp only
  rw [hi]
  dsimp only
  rw [if_neg hn, hd]
  rfl

theorem State.endBundle_of_delay {t : Nat} (hd : (s.core c).delay = some t) : s.endBundle c =
    if (s.core c).rfd then s.nextIssue c { s.core c with pc := i.addr + i.size, flow := true, delay := none, issued := none } (s.cyc + 1)
    else s.nextIssue c { s.core c with pc := t, flow := false, delay := none } i.until_ := by
  have hn : ¬((s.core c).rfd ∧ (s.core c).delay.isNone ∧ (s.core c).shadow.isNone ∧ (s.core c).errs = []) := by
    rw [hd]
    exact fun h => Bool.false_ne_true h.2.1
  unfold State.endBundle
  dsimp only
  rw [hi]
  dsimp only
  rw [if_neg hn, hd]
  cases (s.core c).rfd <;> rfl

end EndBundle

theorem bundlesFollow : Claims.BundlesFollow := by
  intro s c i _ hi k goes next
  refine ⟨fun hd hr => ?_, fun t hd hr hs ht => ?_, fun hd hr hs he => ?_, fun t hd hr => ?_, fun t hd hr => ?_⟩
  · refine (State.endBundle_of_none hi hd (.inl hr)).trans (State.nextIssue_of_not_returning ?_ s c _)
    exact Bool.and_eq_false_iff.mpr (.inl hr)
  · have hb := State.endBundle_of_none hi hd (.inr hs)
    rw [ht] at hb
    refine hb.trans (State.nextIssue_of_not_returning ?_ s c _)
    exact Bool.and_eq_false_iff.mpr (.inr rfl)
  · rw [State.endBundle_of_rfd hi hd hr hs he]
    exact State.drain_rfdDrain _ c
  · have hn : ¬(s.core c).rfd = true := fun h => Bool.false_ne_true (hr.symm.trans h)
    refine (State.endBundle_of_delay hi hd).trans ((if_neg hn).trans (State.nextIssue_of_not_returning ?_ s c _))
    exact Bool.and_eq_false_iff.mpr (.inl hr)
  · refine (State.endBundle_of_delay hi hd).trans ((if_pos hr).trans (State.nextIssue_of_returning ?_ s c _))
    exact Bool.and_eq_true_iff.mpr ⟨hr, rfl⟩

/-! ### The fault of a fetch (R65, R355, R369, R382, R393) -/

section FetchErrors

variable {s : State} {c : Nat} {e : Err}

theorem State.fetchErr_of_other (h : e.cls ≠ 1 ∨ e.info < 5 ∨ 10 < e.info) : s.fetchErr c e = e := by
  rw [State.fetchErr, if_neg (by omega)]

theorem State.fetchErr_of_branch (h1 : e.cls = 1) (h5 : 5 ≤ e.info) (h10 : e.info ≤ 10) {i : Instr} {lits : List W32}
    (hb : (s.core c).branchWord e.addr = some (i, lits)) : s.fetchErr c e =
      if ({ s with focus := { coreFocus c with slot := .s1, addr := e.addr, lits := lits } } : State).badBranch i
        then Err.plain 1 4 1 e.addr else e := by
  rw [State.fetchErr, if_pos ⟨h1, h5, h10⟩, hb]

theorem State.fetchErrs_of_decode (h : e.cls ≠ 0x1C) : s.fetchErrs c e = [s.fetchErr c e] := if_neg h

/-- Each error of an uncorrectable line is that of a word of it (R393). -/
theorem State.mem_fetchErrs (h : e.cls = 0x1C) {f : Err} (hf : f ∈ s.fetchErrs c e) : f = { e with loc := f.loc } ∧
    ∃ m ∈ (s.core c).marks, m.store = .imem ∧ m.hard = true ∧ f.loc = BitVec.ofNat 32 (8 * m.unit) := by
  rw [State.fetchErrs, if_pos h] at hf
  obtain ⟨u, hu, rfl⟩ := List.mem_map.mp hf
  obtain ⟨-, m, hm, hst, hhard, rfl⟩ := Core.mem_badUnits.mp hu
  exact ⟨rfl, m, hm, hst, hhard, rfl⟩

/-- A fetch that meets an uncorrectable line detects an error of it. -/
theorem State.fetchErrs_ne_nil (h : e.cls = 0x1C) (hf : (s.core c).fetchFault e) : s.fetchErrs c e ≠ [] := by
  obtain h1 | ⟨-, m, hm⟩ := hf
  · rw [h1] at h; exact absurd h (by decide)
  · have hmem := List.mem_of_find?_eq_some hm
    have hp := List.find?_some hm
    simp only [Bool.and_eq_true, beq_iff_eq, List.contains_iff_mem] at hp
    obtain ⟨⟨hst, hhard⟩, hu⟩ := hp
    rw [State.fetchErrs, if_pos h]
    exact List.ne_nil_of_mem (List.mem_map_of_mem (Core.mem_badUnits.mpr ⟨hu, m, hmem, hst, hhard, rfl⟩))

end FetchErrors

theorem decodeFaultStopsIssue : Claims.DecodeFaultStopsIssue := by
  intro s it rest e ha hc he c s0 k s1 hlife herrs hdrain harr hrfd hwaits hgoes hf
  have hstep : step s = s1.issueBundle c exec := step_issue ha he ⟨hlife, herrs, hdrain, harr, hrfd, hwaits, hgoes⟩
  have hk : (s1.core c).unwaited = k.unwaited := (s0.keeps_endWaits c).2 c
  obtain ⟨x, hx⟩ := s1.core_fetchFixes c (fetchEnd e)
  have ht := (s1.fetchFixes c (fetchEnd e)).core_raiseAll c (s1.fetchErrs c e)
  have hes : (((s1.fetchFixes c (fetchEnd e)).raiseAll c (s1.fetchErrs c e)).core c).errs = s1.fetchErrs c e := by
    have h1 : (s1.core c).errs = [] := (congrArg Core.errs hk).trans herrs
    rw [ht, hx]
    dsimp only
    rw [h1, List.nil_append]
  refine ⟨_, hstep.trans (State.issueBundle_of_bad hf exec), fun h => hes.trans (State.fetchErrs_of_decode h), fun h => ?_,
    ?_, ?_, ?_, ?_, ?_, State.fetchErr_of_other, fun i lits h1 h5 h10 hb => State.fetchErr_of_branch h1 h5 h10 hb⟩
  · rw [hes]
    refine ⟨State.fetchErrs_ne_nil h (Core.fetchFault_of_fetch hf), fun f hf => ?_⟩
    have hm : (s1.core c).marks = k.marks := (congrArg Core.marks hk :)
    exact hm ▸ State.mem_fetchErrs h hf
  all_goals rw [ht, hx]
  · exact (congrArg Core.regs hk :)
  · exact (congrArg Core.spm hk :)
  · exact (congrArg Core.dmem hk :)
  · exact (congrArg Core.queues hk :)
  · exact (congrArg Core.pc hk :)

/-- Settles O41: the fetch line by line, and the step at an issue with the bundle or the fault that the fetch gives. -/
theorem issueFollowsDecoding : Obligations.IssueFollowsDecoding :=
  ⟨fetchReadsLines, stepIssuesBundle, bundlesFollow, decodeFaultStopsIssue⟩

end Sys2Proof.Machine

/-! PROOFS. Bit fields, counts, immediates and moves of the scalar slots (O43, R96, R128-R131, R134). -/

namespace Sys2Proof.Machine

open Sys2Proof

/-! ### Shifts as products and quotients -/

theorem W64.shiftLeft_eq (x : W64) (n : Nat) : x <<< n = BitVec.ofNat 64 (x.toNat * 2 ^ n) :=
  congrArg (BitVec.ofNat 64) (Nat.shiftLeft_eq x.toNat n)

theorem W64.ushiftRight_eq (x : W64) (n : Nat) : x >>> n = BitVec.ofNat 64 (x.toNat / 2 ^ n) := by
  rw [← Nat.shiftRight_eq_div_pow, ← BitVec.toNat_ushiftRight, BitVec.ofNat_toNat, BitVec.setWidth_eq]

theorem W64.sshiftRight_eq (x : W64) (n : Nat) : x.sshiftRight n = BitVec.ofInt 64 (x.toInt / 2 ^ n) :=
  congrArg (BitVec.ofInt 64) (by rw [Int.shiftRight_eq_div_pow, Nat.cast_pow, Nat.cast_two])

/-- A scaled address (R129). -/
theorem W64.add_shiftLeft (x y : W64) (n : Nat) : x + y <<< n = BitVec.ofNat 64 (x.toNat + y.toNat * 2 ^ n) := by
  rw [W64.shiftLeft_eq, BitVec.ofNat_add, BitVec.ofNat_toNat, BitVec.setWidth_eq]

/-- A sum with a sign-extended immediate is that of the integers (R70). -/
theorem W64.add_signExtend {n : Nat} (x : W64) (y : BitVec n) : x + y.signExtend 64 = BitVec.ofInt 64 (x.toInt + y.toInt) := by
  rw [BitVec.ofInt_add, BitVec.ofInt_toInt, BitVec.signExtend]

/-! ### Bit fields and counts (R128) -/

theorem bits_testBit (x lo n j : Nat) : (bits x lo n).testBit j = (decide (j < n) && x.testBit (lo + j)) := by
  rw [bits, Nat.testBit_mod_two_pow, Nat.testBit_div_two_pow, Nat.add_comm]

/-- The position of a field (R128). -/
theorem bits_position (x : Nat) : bits x 0 6 = x % 64 := congrArg (· % 64) (Nat.div_one x)

/-- The width of a field (R128). -/
theorem bits_width (x : Nat) : bits x 6 7 = x / 64 % 128 := rfl

theorem extrOf_getLsbD (a b : W64) {j : Nat} (hj : j < 64) : (extrOf a b).getLsbD j =
    let p := b.toNat % 64
    (decide (j < min (b.toNat / 64 % 128) (64 - p)) && a.getLsbD (p + j)) := by
  rw [extrOf, bits_position, bits_width, BitVec.getLsbD_ofNat, bits_testBit, decide_eq_true hj, Bool.true_and]
  rfl

/-- INS replaces the field of the effective width at its position. -/
theorem insOf_eq_setField (old a b : W64) : insOf old a b =
    setField old (b.toNat % 64) (min (b.toNat / 64 % 128) (64 - b.toNat % 64)) a.toNat := by
  have hlow (v : Nat) : bits a.toNat 0 v = a.toNat % 2 ^ v := by rw [bits, pow_zero, Nat.div_one]
  rw [insOf, bits_position, bits_width, hlow, setField]

theorem insOf_getLsbD (old a b : W64) (j : Nat) : (insOf old a b).getLsbD j =
    let p := b.toNat % 64
    if p ≤ j ∧ j < p + min (b.toNat / 64 % 128) (64 - p) then a.getLsbD (j - p) else old.getLsbD j := by
  have hp : b.toNat % 64 < 64 := Nat.mod_lt _ (by decide)
  rw [insOf_eq_setField, setField_getLsbD _ _ _ (by omega)]
  rfl

theorem clzOf_zero : clzOf 0 = 64 := rfl

theorem clzOf_of_ne {a : W64} (h : a ≠ 0) : clzOf a = 63 - a.toNat.log2 := by
  rw [clzOf, if_neg h]; omega

theorem W64.toNat_ne_zero {a : W64} (h : a ≠ 0) : a.toNat ≠ 0 := fun h0 => h (BitVec.eq_of_toNat_eq h0)

theorem W64.log2_lt {a : W64} (h : a ≠ 0) : a.toNat.log2 < 64 :=
  (Nat.log2_lt (W64.toNat_ne_zero h)).mpr a.isLt

theorem clzOf_spec (a : W64) : clzOf a ≤ 64 ∧ (∀ j, 64 - clzOf a ≤ j → a.getLsbD j = false) ∧
    (clzOf a < 64 → a.getLsbD (63 - clzOf a) = true) := by
  by_cases h : a = 0
  · subst h
    rw [clzOf_zero]
    exact ⟨le_rfl, fun j _ => BitVec.getLsbD_zero, fun h => absurd h (by decide)⟩
  · have hlog := W64.log2_lt h
    rw [clzOf_of_ne h]
    refine ⟨by omega, fun j hj => Nat.testBit_lt_two_pow ?_, fun _ => ?_⟩
    · calc a.toNat < 2 ^ (a.toNat.log2 + 1) := Nat.lt_log2_self
        _ ≤ 2 ^ j := Nat.pow_le_pow_right (by decide) (by omega)
    · rw [show 63 - (63 - a.toNat.log2) = a.toNat.log2 by omega]
      exact Nat.testBit_log2 (W64.toNat_ne_zero h)

theorem ctzFrom_spec (n x : Nat) : ctzFrom n x ≤ n ∧ (∀ j, j < ctzFrom n x → x.testBit j = false) ∧
    (ctzFrom n x < n → x.testBit (ctzFrom n x) = true) := by
  induction n generalizing x with
  | zero => exact ⟨le_rfl, fun j hj => absurd hj (Nat.not_lt_zero j), fun h => absurd h (Nat.lt_irrefl 0)⟩
  | succ n ih =>
    obtain ⟨hle, hlow, htop⟩ := ih (x / 2)
    by_cases hodd : x % 2 = 1
    · rw [ctzFrom, if_pos hodd]
      exact ⟨Nat.zero_le _, fun j hj => absurd hj (Nat.not_lt_zero j), fun _ => by rw [Nat.testBit_zero, decide_eq_true hodd]⟩
    · rw [ctzFrom, if_neg hodd, Nat.add_comm]
      refine ⟨Nat.succ_le_succ hle, fun j hj => ?_, fun h => (Nat.testBit_succ ..).trans (htop (Nat.lt_of_succ_lt_succ h))⟩
      cases j with
      | zero => rw [Nat.testBit_zero, decide_eq_false hodd]
      | succ j => exact (Nat.testBit_succ ..).trans (hlow j (Nat.lt_of_succ_lt_succ hj))

theorem popFrom_eq_countP (n x : Nat) : popFrom n x = (List.range n).countP fun j => x.testBit j := by
  induction n generalizing x with
  | zero => rfl
  | succ n ih =>
    have hbits : (List.range n).countP ((fun j => x.testBit j) ∘ Nat.succ) = popFrom n (x / 2) :=
      (congrArg (List.countP · _) (funext fun j => Nat.testBit_succ x j)).trans (ih _).symm
    rw [List.range_succ_eq_map, List.countP_cons, List.countP_map, hbits, popFrom, Nat.testBit_zero, Nat.add_comm]
    obtain h | h := Nat.mod_two_eq_zero_or_one x <;> rw [h] <;> rfl

theorem popFrom_le (n x : Nat) : popFrom n x ≤ n := by
  rw [popFrom_eq_countP]
  exact List.countP_le_length.trans_eq List.length_range

/-- A count is no more than 64, and so its register holds it. -/
theorem W64.toNat_ofNat_count {n : Nat} (h : n ≤ 64) : (BitVec.ofNat 64 n).toNat = n :=
  BitVec.toNat_ofNat .. |>.trans (Nat.mod_eq_of_lt (Nat.lt_of_le_of_lt h (by decide)))

theorem W64.getLsbD_reverse (x : W64) {j : Nat} (hj : j < 64) : x.reverse.getLsbD j = x.getLsbD (63 - j) := by
  rw [BitVec.getLsbD_reverse, BitVec.getMsbD_eq_getLsbD, decide_eq_true hj, Bool.true_and]

theorem scalarBitFields : Claims.ScalarBitFields := by
  intro g d a b
  refine ⟨?extr, ?ins, ?clz, ?ctz, ?popc, ?brev, fun n => ?addsh⟩
  case extr => exact yields_of_putS _ (fun _ => rfl) fun s j => extrOf_getLsbD (s.opS a) (s.opS b)
  case ins => exact yields_of_putS _ (fun _ => rfl) fun s j _ => insOf_getLsbD (s.cur.readS d) (s.opS a) (s.opS b) j
  case clz =>
    refine yields_of_putS _ (fun _ => rfl) fun s => ?_
    rw [W64.toNat_ofNat_count (clzOf_spec _).1]
    exact clzOf_spec _
  case ctz =>
    refine yields_of_putS _ (fun _ => rfl) fun s => ?_
    rw [W64.toNat_ofNat_count (ctzFrom_spec ..).1]
    exact ctzFrom_spec 64 _
  case popc =>
    refine yields_of_putS _ (fun _ => rfl) fun s => ?_
    rw [W64.toNat_ofNat_count (popFrom_le ..)]
    exact popFrom_eq_countP 64 _
  case brev => exact yields_of_putS _ (fun _ => rfl) fun s j hj => W64.getLsbD_reverse _ hj
  case addsh => exact yields_of_putS _ (fun _ => rfl) fun s => W64.add_shiftLeft _ _ n

/-! ### Immediates and moves (R130, R131, R134) -/

/-- PKQ's image has the predicates as its bits (R96). -/
theorem Core.predImage_eq_ofBits (k : Core) : k.predImage = BitVec.ofNat 64 (Nat.ofBits k.readQ) := by
  refine congrArg (BitVec.ofNat 64) ?_
  simp only [List.finRange_succ, List.finRange_zero, List.map_cons, List.map_nil, List.foldl_cons, List.foldl_nil, Nat.ofBits,
    Fin.foldr_succ, Fin.foldr_zero, Fin.val_succ, Fin.val_zero]
  ring

theorem Core.predImage_getLsbD (k : Core) (j : Fin 64) :
    k.predImage.getLsbD j.val = if h : j.val < 8 then k.readQ ⟨j.val, h⟩ else false := by
  rw [k.predImage_eq_ofBits, BitVec.getLsbD_ofNat, decide_eq_true j.isLt, Bool.true_and]
  split
  · exact Nat.testBit_ofBits_lt ..
  · exact Nat.testBit_ofBits_ge _ _ (Nat.le_of_not_lt ‹_›)

theorem scalarImmediatesAndMoves : Claims.ScalarImmediatesAndMoves := by
  intro g d a imm n x always
  refine ⟨?addi, ?andi, ?ori, ?xori, ?shli, ?shri, ?srai, ?movi, ?movhi, ?addl, ?mov, ?pkq, ?upkq⟩
  case addi => exact yields_of_putS _ (fun _ => rfl) fun s => W64.add_signExtend _ imm
  case andi | ori | xori | movi | mov => exact yields_of_putS _ (fun _ => rfl) fun _ => rfl
  case shli => exact yields_of_putS _ (fun _ => rfl) fun s => W64.shiftLeft_eq _ n
  case shri => exact yields_of_putS _ (fun _ => rfl) fun s => W64.ushiftRight_eq _ n
  case srai => exact yields_of_putS _ (fun _ => rfl) fun s => W64.sshiftRight_eq _ n
  case movhi =>
    refine yields_of_putS _ (fun _ => rfl) fun s => ?_
    rw [BitVec.shiftLeft_eq_mul_twoPow, BitVec.ofInt_mul]
    rfl
  case addl => exact yields_of_putS _ (fun _ => rfl) fun s => W64.add_signExtend _ x
  case pkq => exact yields_of_putS _ (fun _ => rfl) fun s => s.cur.predImage_getLsbD
  case upkq => exact slotted_congr (fun _ => rfl) fun s => by rw [BitVec.ofNat_toNat]

/-- Settles O43: each form by the field, the count, the shift or the sum that it delivers. -/
theorem scalarBitsAndMoves : Obligations.ScalarBitsAndMoves := ⟨scalarBitFields, scalarImmediatesAndMoves⟩

end Sys2Proof.Machine

/-! PROOFS. The elements of a vector register and the lanes of a mask (R81, R82, R154): what is read of a register or a mask that was
built element by element. -/

namespace Sys2Proof

/-! ### Element widths -/

theorem IType.bits_dvd (t : IType) : 4 ∣ t.bits ∧ t.bits ∣ 4096 := by cases t <;> decide

theorem FType.bits_dvd (t : FType) : 4 ∣ t.bits ∧ t.bits ∣ 4096 := by cases t <;> decide

theorem Width.bits_dvd (w : Width) : 4 ∣ w.bits ∧ w.bits ∣ 4096 := by cases w <;> decide

/-- The sign bit of an element is its top bit. -/
theorem FType.signBit_eq (t : FType) : t.fmt.signBit = 2 ^ (t.bits - 1) := by cases t <;> rfl

end Sys2Proof

namespace Sys2Proof.Machine

open Sys2Proof

/-- An element lies within the register. -/
theorem elem_end_le {w i : Nat} (h : i < 4096 / w) : i * w + w ≤ 4096 :=
  Nat.succ_mul i w ▸ Nat.mul_le_of_le_div _ _ _ h

/-! ### Elements of a register (R81) -/

theorem elem_lt (w : Nat) (x : VReg) (i : Nat) : elem w x i < 2 ^ w := Nat.mod_lt _ (Nat.two_pow_pos w)

@[simp] theorem elem_mod (w : Nat) (x : VReg) (i : Nat) : elem w x i % 2 ^ w = elem w x i := Nat.mod_mod ..

theorem elem_testBit (w : Nat) (x : VReg) (i j : Nat) : (elem w x i).testBit j = (decide (j < w) && x.getLsbD (i * w + j)) :=
  bits_testBit x.toNat (i * w) w j

theorem elem_ofNat {w i : Nat} (h : i < 4096 / w) (n : Nat) : elem w (BitVec.ofNat 4096 n) i = bits n (i * w) w := by
  refine Nat.eq_of_testBit_eq fun j => ?_
  rw [elem_testBit, bits_testBit, BitVec.getLsbD_ofNat]
  by_cases hj : j < w
  · rw [decide_eq_true (show i * w + j < 4096 by have := elem_end_le h; omega), Bool.true_and]
  · rw [decide_eq_false hj, Bool.false_and, Bool.false_and]

/-- Element i of elements joined is the i-th of them. -/
theorem bits_joinElems {w i : Nat} {es : List Nat} (h : i < es.length) : bits (joinElems w es) (i * w) w = es[i] % 2 ^ w := by
  induction es generalizing i with
  | nil => exact absurd h (Nat.not_lt_zero i)
  | cons e es ih =>
    cases i with
    | zero => rw [bits, joinElems, Nat.zero_mul, pow_zero, Nat.div_one, Nat.add_mul_mod_self_left, Nat.mod_mod]; rfl
    | succ i =>
      have htail : (e % 2 ^ w + 2 ^ w * joinElems w es) / 2 ^ w = joinElems w es := by
        rw [Nat.add_mul_div_left _ _ (Nat.two_pow_pos w), Nat.div_eq_of_lt (Nat.mod_lt _ (Nat.two_pow_pos w)), Nat.zero_add]
      rw [bits, joinElems, Nat.succ_mul, Nat.add_comm (i * w), pow_add, ← Nat.div_div_eq_div_mul, htail]
      exact ih (Nat.lt_of_succ_lt_succ h)

theorem bits_joinElems_range {w i n : Nat} (h : i < n) (f : Nat → Nat) :
    bits (joinElems w ((List.range n).map f)) (i * w) w = f i % 2 ^ w := by
  rw [bits_joinElems (by rwa [List.length_map, List.length_range]), List.getElem_map, List.getElem_range]

@[simp] theorem elem_ofElems {w i : Nat} (h : i < 4096 / w) (f : Nat → Nat) : elem w (ofElems w f) i = f i % 2 ^ w :=
  (elem_ofNat h _).trans (bits_joinElems_range h f)

@[simp] theorem elem_splat {w i : Nat} (h : i < 4096 / w) (x : Nat) : elem w (splat w x) i = x % 2 ^ w := elem_ofElems h _

theorem elem_activeBits {w i : Nat} (h : i < 4096 / w) (k : KReg) :
    elem w (activeBits k w) i = if active k w i then 2 ^ w - 1 else 0 := by
  rw [activeBits, elem_ofElems h]
  split
  · exact Nat.mod_eq_of_lt (Nat.sub_lt (Nat.two_pow_pos w) Nat.one_pos)
  · exact Nat.zero_mod _

/-- The bits of an element of activeBits are all ones or all zeros. -/
theorem activeBits_getLsbD {w i j : Nat} (h : i < 4096 / w) (hj : j < w) (k : KReg) :
    (activeBits k w).getLsbD (i * w + j) = active k w i := by
  have hbit := elem_testBit w (activeBits k w) i j
  rw [decide_eq_true hj, Bool.true_and] at hbit
  rw [← hbit, elem_activeBits h]
  cases active k w i
  · exact Nat.zero_testBit j
  · exact (Nat.testBit_two_pow_sub_one w j).trans (decide_eq_true hj)

/-- A choice of bits under activeBits is a choice of elements (R163). -/
theorem elem_select {w i : Nat} (h : i < 4096 / w) (k : KReg) (x y : VReg) :
    elem w ((x &&& activeBits k w) ||| (y &&& ~~~activeBits k w)) i = if active k w i then elem w x i else elem w y i := by
  refine Nat.eq_of_testBit_eq fun j => ?_
  rw [apply_ite (Nat.testBit · j), elem_testBit, elem_testBit, elem_testBit]
  by_cases hj : j < w
  · have hin : i * w + j < 4096 := by have := elem_end_le h; omega
    rw [BitVec.getLsbD_or, BitVec.getLsbD_and, BitVec.getLsbD_and, BitVec.getLsbD_not, activeBits_getLsbD h hj, decide_eq_true hin]
    cases active k w i <;> simp
  · simp [hj]

/-! ### Elements placed at listed positions -/

/-- A value added at an element that is 0 sets that element, and leaves the others. -/
theorem bits_add_elem {w n j : Nat} (hn : bits n (j * w) w = 0) (x i : Nat) :
    bits (n + x % 2 ^ w * 2 ^ (j * w)) (i * w) w = if i = j then x % 2 ^ w else bits n (i * w) w := by
  have hpos := Nat.two_pow_pos
  have hdvd : 2 ^ w ∣ n / 2 ^ (j * w) := Nat.dvd_of_mod_eq_zero hn
  have hdiv : (n + x % 2 ^ w * 2 ^ (j * w)) / 2 ^ (j * w) = x % 2 ^ w + 2 ^ w * (n / 2 ^ (j * w) / 2 ^ w) := by
    rw [Nat.add_mul_div_right _ _ (hpos _), Nat.mul_div_cancel' hdvd, Nat.add_comm]
  obtain hij | rfl | hij := Nat.lt_trichotomy i j
  · obtain ⟨m, rfl⟩ := Nat.exists_eq_add_of_lt hij
    have hsplit : x % 2 ^ w * 2 ^ ((i + m + 1) * w) = 2 ^ (i * w) * (2 ^ w * (2 ^ (m * w) * (x % 2 ^ w))) := by
      rw [show (i + m + 1) * w = i * w + (w + m * w) by ring, pow_add, pow_add]; ring
    rw [if_neg (Nat.ne_of_lt hij), bits, hsplit, Nat.add_mul_div_left _ _ (hpos _), Nat.add_mul_mod_self_left, bits]
  · rw [if_pos rfl, bits, hdiv, Nat.add_mul_mod_self_left, Nat.mod_mod]
  · obtain ⟨m, rfl⟩ := Nat.exists_eq_add_of_lt hij
    have hexp : 2 ^ ((j + m + 1) * w) = 2 ^ (j * w) * 2 ^ w * 2 ^ (m * w) := by rw [← pow_add, ← pow_add]; ring_nf
    have habove : (n + x % 2 ^ w * 2 ^ (j * w)) / 2 ^ ((j + m + 1) * w) = n / 2 ^ ((j + m + 1) * w) := by
      rw [hexp, ← Nat.div_div_eq_div_mul, ← Nat.div_div_eq_div_mul, hdiv, Nat.add_mul_div_left _ _ (hpos _),
        Nat.div_eq_of_lt (Nat.mod_lt _ (hpos _)), Nat.zero_add, Nat.div_div_eq_div_mul, Nat.div_div_eq_div_mul,
        Nat.mul_assoc]
    rw [if_neg (Nat.ne_of_gt hij), bits, habove, bits]

/-- The number that scatter makes a register of. -/
def scatterSum (w : Nat) (es : List (Nat × Nat)) : Nat := es.foldl (fun n (i, x) => n + x % 2 ^ w * 2 ^ (i * w)) 0

theorem scatter_eq (w : Nat) (es : List (Nat × Nat)) : scatter w es = BitVec.ofNat 4096 (scatterSum w es) := rfl

theorem bits_scatterSum {w : Nat} {es : List (Nat × Nat)} (h : (es.map (·.1)).Nodup) :
    (∀ i, i ∉ es.map (·.1) → bits (scatterSum w es) (i * w) w = 0) ∧
      ∀ e ∈ es, bits (scatterSum w es) (e.1 * w) w = e.2 % 2 ^ w := by
  induction es using List.reverseRecOn with
  | nil => exact ⟨fun i _ => by simp [scatterSum, bits], fun e he => absurd he List.not_mem_nil⟩
  | append_singleton es a ih =>
    rw [List.map_append, List.map_singleton, List.nodup_append] at h
    obtain ⟨hes, -, hne⟩ := h
    have ha : a.1 ∉ es.map (·.1) := fun hm => hne _ hm _ (List.mem_singleton_self _) rfl
    obtain ⟨hout, hin⟩ := ih hes
    have hstep (i : Nat) : bits (scatterSum w (es ++ [a])) (i * w) w =
        if i = a.1 then a.2 % 2 ^ w else bits (scatterSum w es) (i * w) w := by
      rw [scatterSum, List.foldl_append]
      exact bits_add_elem (hout _ ha) a.2 i
    refine ⟨fun i hi => ?_, fun e he => ?_⟩
    · rw [List.map_append, List.mem_append, List.map_singleton, List.mem_singleton, not_or] at hi
      rw [hstep, if_neg hi.2]
      exact hout i hi.1
    · obtain he | he := List.mem_append.1 he
      · rw [hstep, if_neg fun (heq : e.1 = a.1) => ha (heq ▸ List.mem_map_of_mem he)]
        exact hin e he
      · rw [List.mem_singleton.1 he, hstep, if_pos rfl]

theorem elem_scatter_of_mem {w : Nat} {es : List (Nat × Nat)} (h : (es.map (·.1)).Nodup) {e : Nat × Nat} (he : e ∈ es)
    (hlt : e.1 < 4096 / w) : elem w (scatter w es) e.1 = e.2 % 2 ^ w := by
  rw [scatter_eq, elem_ofNat hlt]
  exact (bits_scatterSum h).2 e he

theorem elem_scatter_of_not_mem {w : Nat} {es : List (Nat × Nat)} (h : (es.map (·.1)).Nodup) {i : Nat}
    (hi : i ∉ es.map (·.1)) (hlt : i < 4096 / w) : elem w (scatter w es) i = 0 := by
  rw [scatter_eq, elem_ofNat hlt]
  exact (bits_scatterSum h).1 i hi

/-! ### Lanes of a mask (R82) -/

theorem maskOf_getLsbD {w : Nat} (hw : 4 ∣ w ∧ w ∣ 4096) (f : Nat → Bool) {b : Nat} (hb : b < 1024) :
    (maskOf w f).getLsbD b = f (b / (w / 4)) := by
  obtain ⟨⟨v, rfl⟩, hdvd⟩ := hw
  have hv : v ∣ 1024 := Nat.dvd_of_mul_dvd_mul_left (by decide : 0 < 4) (show 4 * v ∣ 4 * 1024 from hdvd)
  have hpos : 0 < v := Nat.pos_of_dvd_of_pos hv (by decide)
  have hn : 4096 / (4 * v) = 1024 / v := Nat.mul_div_mul_left 1024 v (by decide : 0 < 4)
  have hlt : b / v < 1024 / v := Nat.div_lt_div_of_lt_of_dvd hv hb
  have hmod : b % v < v := Nat.mod_lt b hpos
  rw [maskOf, Nat.mul_div_cancel_left v (by decide), hn, BitVec.getLsbD_ofNat, decide_eq_true hb, Bool.true_and]
  have hbit := bits_testBit (joinElems v ((List.range (1024 / v)).map fun i => if f i then 2 ^ v - 1 else 0)) (b / v * v) v (b % v)
  rw [Nat.div_add_mod', decide_eq_true hmod, Bool.true_and, bits_joinElems_range hlt] at hbit
  rw [← hbit, Nat.testBit_mod_two_pow, decide_eq_true hmod, Bool.true_and]
  cases f (b / v)
  · exact Nat.zero_testBit _
  · exact (Nat.testBit_two_pow_sub_one v _).trans (decide_eq_true hmod)

/-! ### Classes of the active elements (R154, R156) -/

theorem classesOf_range (k : KReg) (w n : Nat) (f : Nat → Nat × Classes) :
    classesOf k w ((List.range n).map f) = (List.range n).foldl (fun c j => if active k w j then c ||| (f j).2 else c) 0 := by
  have hzip : (List.range n).zip ((List.range n).map f) = (List.range n).map fun j => (j, f j) := by
    simpa using List.zip_map' (f := id) (g := f) (l := List.range n)
  rw [classesOf, List.length_map, List.length_range, hzip, List.foldl_map]

/-- A union of classes contains each of them. -/
theorem or_foldl_of_mem {α : Type} (f : α → Classes) {l : List α} {a : α} (ha : a ∈ l) (c : Classes) :
    f a ||| l.foldl (fun c r => c ||| f r) c = l.foldl (fun c r => c ||| f r) c := by
  have habsorb (c' : Classes) (l : List α) (c : Classes) (h : c' ||| c = c) :
      c' ||| l.foldl (fun c r => c ||| f r) c = l.foldl (fun c r => c ||| f r) c := by
    induction l generalizing c with
    | nil => exact h
    | cons b l ih => exact ih _ (by rw [← BitVec.or_assoc, h])
  induction l generalizing c with
  | nil => exact absurd ha List.not_mem_nil
  | cons b l ih =>
    obtain rfl | ha := List.mem_cons.1 ha
    · exact habsorb _ l _ ((BitVec.or_comm ..).trans (by rw [BitVec.or_assoc, BitVec.or_self]))
    · exact ih ha _

end Sys2Proof.Machine

/-! PROOFS. The integer, floating-point and mask forms of the vector slots (O12, O50, O51, R157-R163, R174, R175). -/

namespace Sys2Proof.Machine

open Sys2Proof

/-! ### What a vector form answers, from the shape of its meaning -/

theorem State.flags_zero (s : State) (lat : Nat) : s.flags lat 0 = s := if_pos rfl

/-- A form that raises no class, from its elements. -/
theorem yieldsV_of_putV {i : Instr} {g : Guard} {d : Fin 32} {lat w : Nat} {k : State → KReg} {v : State → Nat → Nat}
    (x : State → VReg) (h : ∀ s, exec i s = s.slot g fun s => s.putV d lat (activeBits (k s) w) (x s))
    (hx : ∀ s j, j < 4096 / w → elem w (x s) j = v s j % 2 ^ w) : YieldsV i g d lat w k v fun _ => 0 :=
  ⟨x, hx, slotted_congr h fun _ => (State.flags_zero ..).symm⟩

/-- A form that builds its result element by element and raises no class. -/
theorem yieldsV_of_ofElems {i : Instr} {g : Guard} {d : Fin 32} {lat w : Nat} {k : State → KReg} {e v : State → Nat → Nat}
    (h : ∀ s, exec i s = s.slot g fun s => s.putV d lat (activeBits (k s) w) (ofElems w (e s)))
    (hv : ∀ s j, e s j % 2 ^ w = v s j % 2 ^ w) : YieldsV i g d lat w k v fun _ => 0 :=
  yieldsV_of_putV _ h fun s j hj => (elem_ofElems hj _).trans (hv s j)

/-- A form that delivers elements with their classes (R154, R156): those of the active elements are raised. -/
theorem yieldsV_of_putVF {i : Instr} {g : Guard} {d : Fin 32} {lat w : Nat} {k : State → KReg} {e : State → Nat → Nat × Classes}
    {v : State → Nat → Nat} {c : State → Nat → Classes}
    (h : ∀ s, exec i s = s.slot g fun s => s.putVF d lat w (k s) ((List.range (4096 / w)).map (e s)))
    (hv : ∀ s j, (e s j).1 % 2 ^ w = v s j % 2 ^ w) (hc : ∀ s j, (e s j).2 = c s j) :
    YieldsV i g d lat w k v fun s =>
      (List.range (4096 / w)).foldl (fun cl j => if active (k s) w j then cl ||| c s j else cl) 0 := by
  obtain rfl : (fun s j => (e s j).2) = c := funext fun s => funext (hc s)
  refine ⟨fun s => BitVec.ofNat 4096 (joinElems w (((List.range (4096 / w)).map (e s)).map (·.1))), fun s j hj => ?_,
    slotted_congr h fun s => by rw [State.putVF, classesOf_range]⟩
  rw [elem_ofNat hj, List.map_map, bits_joinElems_range hj]
  exact hv s j

/-- A compare (R162). -/
theorem yieldsK_of_active {i : Instr} {g : Guard} {d : Fin 8} {w : Nat} {k : State → KReg} (hw : 4 ∣ w ∧ w ∣ 4096)
    {f v : State → Nat → Bool}
    (h : ∀ s, exec i s = s.slot g fun s => s.putK d (maskOf w fun j => active (k s) w j) (maskOf w (f s)))
    (hf : ∀ s j, f s j = v s j) : YieldsK i g d w (fun s j => active (k s) w j) v :=
  ⟨_, _, slotted_of_slot h, fun s _ hb => ⟨maskOf_getLsbD hw _ hb, fun _ => (maskOf_getLsbD hw _ hb).trans (hf s _)⟩⟩

/-- A mask form that writes every lane (R175). -/
theorem yieldsK_of_maskOf {i : Instr} {g : Guard} {d : Fin 8} {w : Nat} (hw : 4 ∣ w ∧ w ∣ 4096) {f v : State → Nat → Bool}
    (h : ∀ s, exec i s = s.slot g fun s => s.putK d (BitVec.allOnes 1024) (maskOf w (f s)))
    (hf : ∀ s j, f s j = v s j) : YieldsK i g d w (fun _ _ => true) v :=
  ⟨_, _, slotted_of_slot h, fun s _ hb =>
    ⟨(BitVec.getLsbD_allOnes ..).trans (decide_eq_true hb), fun _ => (maskOf_getLsbD hw _ hb).trans (hf s _)⟩⟩

/-! ### Patterns of integers (R157) -/

theorem toNat_ofInt_eq (w : Nat) (x : Int) : (BitVec.ofInt w x).toNat = (x % 2 ^ w).toNat := by
  rw [BitVec.toNat_ofInt, Nat.cast_pow, Nat.cast_two]

/-- The pattern of the integer that a pattern stands for. -/
theorem sgn_pattern (w x : Nat) : (sgn w x % 2 ^ w).toNat = x % 2 ^ w := by
  rw [← toNat_ofInt_eq, sgn, BitVec.ofInt_toInt, BitVec.toNat_ofNat]

theorem sub_pattern {w y : Nat} (x : Nat) (hy : y < 2 ^ w) : (x + 2 ^ w - y) % 2 ^ w = (((x : Int) - y) % 2 ^ w).toNat := by
  have hcast : ((x + 2 ^ w - y : Nat) : Int) = (x : Int) - y + 2 ^ w := by push_cast [Nat.le_add_left_of_le hy.le]; ring
  rw [← Int.toNat_natCast ((x + 2 ^ w - y) % 2 ^ w), Int.natCast_mod, hcast, Nat.cast_pow, Nat.cast_two, Int.add_emod_right]

theorem min_pattern (w x y : Nat) :
    (if sgn w x < sgn w y then x else y) % 2 ^ w = (min (sgn w x) (sgn w y) % 2 ^ w).toNat := by
  split
  · rw [min_eq_left (le_of_lt ‹_›), sgn_pattern]
  · rw [min_eq_right (not_lt.1 ‹_›), sgn_pattern]

theorem max_pattern (w x y : Nat) :
    (if sgn w x < sgn w y then y else x) % 2 ^ w = (max (sgn w x) (sgn w y) % 2 ^ w).toNat := by
  split
  · rw [max_eq_right (le_of_lt ‹_›), sgn_pattern]
  · rw [max_eq_left (not_lt.1 ‹_›), sgn_pattern]

theorem satPat_eq (w : Nat) (x : Int) :
    satPat w x = (max (-(2 ^ (w - 1))) (min (2 ^ (w - 1) - 1) x) % 2 ^ w).toNat := toNat_ofInt_eq ..

theorem pattern_mod (w : Nat) (x : Int) : (x % 2 ^ w).toNat % 2 ^ w = (x % 2 ^ w).toNat := by
  rw [← toNat_ofInt_eq, Nat.mod_eq_of_lt (BitVec.isLt _)]

theorem vectorIntegers : Claims.VectorIntegers := by
  intro g d a b k t
  refine ⟨?add, ?sub, ?mul, ?min, ?max, ?minl, ?maxl, ?and, ?or, ?xor, ?shl, ?shr, ?sra, ?adds, ?subs⟩
  case sub => exact yieldsV_of_ofElems (fun _ => rfl) fun _ _ => (sub_pattern _ (elem_lt ..)).trans (pattern_mod ..).symm
  case min => exact yieldsV_of_ofElems (fun _ => rfl) fun _ _ => (min_pattern ..).trans (pattern_mod ..).symm
  case max => exact yieldsV_of_ofElems (fun _ => rfl) fun _ _ => (max_pattern ..).trans (pattern_mod ..).symm
  case sra => exact yieldsV_of_ofElems (fun _ => rfl) fun _ _ => congrArg (· % _) (toNat_ofInt_eq ..)
  case adds | subs => exact yieldsV_of_ofElems (fun _ => rfl) fun _ _ => congrArg (· % _) (satPat_eq ..)
  case add | mul | minl | maxl | and | or | xor | shl | shr => exact yieldsV_of_ofElems (fun _ => rfl) fun _ _ => rfl

/-! ### Immediates, selects and moves (R160, R161, R163) -/

theorem W32.add_signExtend_toNat {n : Nat} (x : W32) (y : BitVec n) :
    (x + y.signExtend 32).toNat = ((x.toNat + y.toInt) % 2 ^ 32).toNat := by
  rw [← toNat_ofInt_eq, BitVec.ofInt_add, BitVec.ofInt_natCast, BitVec.ofNat_toNat, BitVec.setWidth_eq, BitVec.signExtend]

theorem toNat_ofNat_elem (x : VReg) (j : Nat) : (BitVec.ofNat 32 (elem 32 x j)).toNat = elem 32 x j :=
  (BitVec.toNat_ofNat ..).trans (elem_mod ..)

/-- A form that writes 32 bits of its own at every element (R160, R161). -/
theorem writesAll_of_ofElems {i : Instr} {g : Guard} {d : Fin 32} {e : State → Nat → W32} {v : State → Nat → Nat}
    (h : ∀ s, exec i s = s.slot g fun s => s.putV d 2 (BitVec.allOnes 4096) (ofElems 32 fun j => (e s j).toNat))
    (hv : ∀ s j, (e s j).toNat = v s j) :
    ∃ y : State → VReg, (∀ s j, j < 4096 / 32 → elem 32 (y s) j = v s j) ∧
      Slotted i g fun s => s.putV d 2 (BitVec.allOnes 4096) (y s) :=
  ⟨_, fun s j hj => (elem_ofElems hj _).trans ((Nat.mod_eq_of_lt (BitVec.isLt _)).trans (hv s j)), slotted_of_slot h⟩

theorem immF_lt (imm : BitVec 20) : immF imm < 2 ^ 32 := by
  have := imm.isLt
  unfold immF
  omega

theorem vectorImmediatesAndMoves : Claims.VectorImmediatesAndMoves := by
  intro g d a b k w imm n x all el always
  refine ⟨?addi, ?andi, ?shli, ?shri, ?srai, ?movi, ?fmovi, ?sel, ?mov⟩
  case addi =>
    refine writesAll_of_ofElems (fun _ => rfl) fun s j => ?_
    rw [W32.add_signExtend_toNat, toNat_ofNat_elem]
  case andi =>
    refine writesAll_of_ofElems (fun _ => rfl) fun s j => ?_
    rw [BitVec.toNat_and, toNat_ofNat_elem, BitVec.signExtend, toNat_ofInt_eq]
  case shli =>
    refine writesAll_of_ofElems (fun _ => rfl) fun s j => ?_
    rw [BitVec.toNat_shiftLeft, toNat_ofNat_elem, Nat.shiftLeft_eq]
  case shri =>
    refine writesAll_of_ofElems (fun _ => rfl) fun s j => ?_
    rw [BitVec.toNat_ushiftRight, toNat_ofNat_elem, Nat.shiftRight_eq_div_pow]
  case srai =>
    refine writesAll_of_ofElems (fun _ => rfl) fun s j => ?_
    beta_reduce
    rw [BitVec.sshiftRight_eq, Int.shiftRight_eq_div_pow, toNat_ofInt_eq, sgn, Nat.cast_pow, Nat.cast_two]
  case movi => exact writesAll_of_ofElems (fun _ => rfl) fun _ _ => toNat_ofInt_eq ..
  case fmovi =>
    exact ⟨_, fun s j hj => (elem_splat hj _).trans (Nat.mod_eq_of_lt (immF_lt x)), slotted_of_slot fun _ => rfl⟩
  case sel => exact ⟨_, fun s j hj => elem_select hj .., slotted_of_slot fun _ => rfl⟩
  case mov => exact yieldsV_of_putV _ (fun _ => rfl) fun s j _ => (elem_mod ..).symm

/-- Settles O50: each form by what it makes of an element. -/
theorem vectorIntegerForms : Obligations.VectorIntegerForms := ⟨vectorIntegers, vectorImmediatesAndMoves⟩

/-! ### Compares and masks (R162, R174, R175) -/

theorem vectorCompares : Claims.VectorCompares := by
  intro g d a b k t u
  refine ⟨?eq, ?lt, ?le, ?feq, ?flt, ?fle, ?fun_⟩
  case eq => exact yieldsK_of_active t.bits_dvd (fun _ => rfl) fun _ _ => beq_eq_decide ..
  case lt | le => exact yieldsK_of_active t.bits_dvd (fun _ => rfl) fun _ _ => rfl
  case feq | flt | fle | fun_ => exact yieldsK_of_active u.bits_dvd (fun _ => rfl) fun _ _ => rfl

/-- A pattern is negative when its top bit is set. -/
theorem topBit_eq_sgn_neg {w : Nat} (hw : 0 < w) (x : Nat) : (x / 2 ^ (w - 1) % 2 == 1) = decide (sgn w x < 0) := by
  rw [sgn, ← BitVec.msb_eq_toInt, BitVec.msb_eq_getLsbD_last, BitVec.getLsbD_ofNat, decide_eq_true (Nat.sub_one_lt_of_lt hw),
    Bool.true_and, Nat.testBit_eq_decide_div_mod_eq, beq_eq_decide]

theorem laneMasks : Claims.LaneMasks := by
  intro g d a b x w
  refine ⟨?and, ?or, ?xor, ?andn, ?first, ?nz, ?neg⟩
  case and | or | xor | andn => exact slotted_of_slot fun _ => rfl
  case first =>
    refine yieldsK_of_maskOf w.bits_dvd (f := fun s j => decide (j < s.opN x)) (fun _ => rfl) fun s j => ?_
    cases x <;> rfl
  case nz => exact yieldsK_of_maskOf w.bits_dvd (fun _ => rfl) fun s j => by rw [decide_not, ← beq_eq_decide]; rfl
  case neg =>
    exact yieldsK_of_maskOf w.bits_dvd (fun _ => rfl) fun _ _ => topBit_eq_sgn_neg (Nat.pos_of_dvd_of_pos w.bits_dvd.2 (by decide)) _

/-- Settles O51: each form by the lanes that it writes. -/
theorem vectorComparesAndMasks : Obligations.VectorComparesAndMasks := ⟨vectorCompares, laneMasks⟩

/-! ### Floating-point forms (R158, R159, R161) -/

/-- The top bit of a pattern inverted. -/
theorem xor_topBit {w : Nat} (hw : 0 < w) (x : Nat) : (x ^^^ 2 ^ (w - 1)) % 2 ^ w = (x + 2 ^ (w - 1)) % 2 ^ w := by
  obtain ⟨n, rfl⟩ := Nat.exists_eq_succ_of_ne_zero hw.ne'
  refine Nat.eq_of_testBit_eq fun j => ?_
  rw [Nat.succ_sub_one, Nat.testBit_mod_two_pow, Nat.testBit_mod_two_pow, Nat.testBit_xor, Nat.testBit_two_pow, Nat.add_comm]
  obtain hj | rfl | hj := Nat.lt_trichotomy j n
  · rw [Nat.testBit_two_pow_add_gt hj, decide_eq_false hj.ne', Bool.xor_false]
  · rw [Nat.testBit_two_pow_add_eq, decide_eq_true rfl, Bool.xor_true]
  · rw [decide_eq_false (by omega), Bool.false_and, Bool.false_and]

/-- An FI form is a slot form whose guard always reads true (R69, R161). -/
theorem State.vfi_eq_slot (s : State) (d : Fin 32) (f : Nat → Nat × Classes) : s.vfi d f = s.slot ⟨0, false⟩ fun s =>
    s.putVF d 4 32 (BitVec.allOnes 1024) ((List.range (4096 / 32)).map fun j => f (elem 32 (s.cur.readV d) j)) := by
  rw [s.slot_true s.guard_unguarded]
  rfl

/-- Settles O12: each form by what it makes of an element, with its classes. -/
theorem vectorFloats : Obligations.VectorFloats := by
  intro g d a b k t imm w val out or is fi
  refine ⟨?add, ?sub, ?mul, ?min, ?max, ?fma, ?fmad, ?abs, ?neg, ?addi, ?muli⟩
  case add | sub | mul | min | max | fma | fmad => exact yieldsV_of_putVF (fun _ => rfl) (fun _ _ => rfl) fun _ _ => rfl
  case addi =>
    exact yieldsV_of_putVF (fun s => s.vfi_eq_slot d fun z => fmtF32.add z (immF imm)) (fun _ _ => rfl) fun _ _ => rfl
  case muli =>
    exact yieldsV_of_putVF (fun s => s.vfi_eq_slot d fun z => fmtF32.mul z (immF imm)) (fun _ _ => rfl) fun _ _ => rfl
  case abs => exact yieldsV_of_putVF (fun _ => rfl) (fun s j => by rw [t.signBit_eq]) fun _ _ => rfl
  case neg =>
    refine yieldsV_of_putVF (fun _ => rfl) (fun s j => ?_) fun _ _ => rfl
    rw [t.signBit_eq, Nat.mod_mod]
    exact xor_topBit (Nat.pos_of_dvd_of_pos t.bits_dvd.2 (by decide)) _

end Sys2Proof.Machine

/-! PROOFS. The conversions of vector elements (O13, R164-R171). -/

namespace Sys2Proof.Machine

open Sys2Proof

/-! ### Random words (R109) -/

theorem drawMany_length (n : Nat) (x : W64) : (drawMany n x).1.length = n := by
  induction n generalizing x with
  | zero => rfl
  | succ n ih => exact congrArg Nat.succ (ih (drawRng x))

/-! ### The positions of a conversion (R167, R168) -/

/-- A wide element holds a whole number of narrow ones. -/
theorem eq_ratio_mul {n w : Nat} (h : ratio n w ≠ 0) : w = ratio n w * n := by
  unfold ratio at h ⊢
  split_ifs at h ⊢ with h0 h2 h4
  exacts [absurd rfl h, h2, h4, absurd rfl h]

/-- The positions that a conversion writes differ and lie within the register. -/
theorem Conv.map_positions {v : Conv} {c : Ctl} (h : v.supports c = true) :
    ((v.map c).map (·.1)).Nodup ∧ ∀ p ∈ v.map c, p.1 < 4096 / codeWidth c.dst := by
  have hplain (f : Nat → Nat × Nat) (n : Nat) : (((List.range n).map fun i => (i, f i)).map (·.1)).Nodup ∧
      ∀ p ∈ (List.range n).map fun i => (i, f i), p.1 < n := by
    refine ⟨?_, fun p hp => ?_⟩
    · rw [List.map_map]
      exact (List.map_id (List.range n)).symm ▸ List.nodup_range
    · obtain ⟨i, hi, rfl⟩ := List.mem_map.1 hp
      exact List.mem_range.1 hi
  cases v with
  | f | i | iff | widen => exact hplain _ _
  | narrow =>
    obtain ⟨hr, hpart⟩ : ratio (codeWidth c.dst) (codeWidth c.src) ≠ 0 ∧ c.part < ratio (codeWidth c.dst) (codeWidth c.src) := by
      simpa [Conv.supports, and_assoc] using (Bool.and_eq_true_iff.1 h).2
    have hsrc := eq_ratio_mul hr
    refine ⟨?_, fun p hp => ?_⟩
    · rw [Conv.map, List.map_map]
      exact List.nodup_range.map fun i j hij => Nat.eq_of_mul_eq_mul_left (Nat.pos_of_ne_zero hr) (Nat.add_right_cancel hij)
    · obtain ⟨i, hi, rfl⟩ := List.mem_map.1 hp
      rw [List.mem_range] at hi
      generalize ratio (codeWidth c.dst) (codeWidth c.src) = r at hr hpart hsrc
      calc r * i + c.part < r * i + r := Nat.add_lt_add_left hpart _
        _ = r * (i + 1) := (Nat.mul_succ r i).symm
        _ ≤ r * (4096 / codeWidth c.dst / r) :=
          Nat.mul_le_mul_left r (by rwa [hsrc, Nat.mul_comm, ← Nat.div_div_eq_div_mul] at hi)
        _ ≤ 4096 / codeWidth c.dst := Nat.mul_div_le ..

/-! ### Elements that some of the listed results write -/

section Results

variable {β : Type} {w : Nat} {rs : List (Nat × β)} (hrs : (rs.map (·.1)).Nodup) (p : Nat × β → Bool) (f : Nat × β → Nat)
include hrs

theorem filter_positions_nodup : (((rs.filter p).map fun r => (r.1, f r)).map (·.1)).Nodup := by
  rw [List.map_map]
  exact hrs.sublist (List.filter_sublist.map _)

theorem elem_scatter_filter {r : Nat × β} (hr : r ∈ rs) (hlt : r.1 < 4096 / w) :
    elem w (scatter w ((rs.filter p).map fun r => (r.1, f r))) r.1 = if p r then f r % 2 ^ w else 0 := by
  have hnd := filter_positions_nodup hrs p f
  split
  · exact elem_scatter_of_mem hnd (List.mem_map_of_mem (List.mem_filter.2 ⟨hr, ‹_›⟩)) hlt
  · refine elem_scatter_of_not_mem hnd (fun hm => ?_) hlt
    rw [List.map_map] at hm
    obtain ⟨r', hr', heq⟩ := List.mem_map.1 hm
    obtain ⟨hmem, hp⟩ := List.mem_filter.1 hr'
    exact ‹¬ _› (List.inj_on_of_nodup_map hrs hmem hr heq ▸ hp)

theorem elem_scatter_filter_of_not_mem {j : Nat} (hj : j ∉ rs.map (·.1)) (hlt : j < 4096 / w) :
    elem w (scatter w ((rs.filter p).map fun r => (r.1, f r))) j = 0 := by
  refine elem_scatter_of_not_mem (filter_positions_nodup hrs p f) (fun hm => hj ?_) hlt
  rw [List.map_map] at hm
  exact (List.filter_sublist.map _).subset hm

end Results

/-! ### A conversion (R164-R171) -/

/-- The words of a conversion (R109, R171): in SR mode one is drawn for each position. -/
def State.convWords (s : State) (c : Ctl) (ps : List (Nat × Nat × Nat)) : List W64 :=
  if c.mode = 4 then (drawMany ps.length s.cur.regs.rngs).1 else ps.map fun _ => 0

/-- The state once those words are drawn. -/
def State.convDrawn (s : State) (c : Ctl) (ps : List (Nat × Nat × Nat)) : State :=
  if c.mode = 4 then s.modCur fun q => { q with regs := { q.regs with rngs := (drawMany ps.length s.cur.regs.rngs).2 } } else s

/-- What a conversion makes of each position: where it goes, whether its mask bit is set, and the element with its classes. -/
def State.converted (s : State) (c : Ctl) (k : KReg) (a : Sel) (ps : List (Nat × Nat × Nat)) : List (Nat × Bool × Nat × Classes) :=
  (ps.zip (s.convWords c ps)).map fun ((j, i, bit), wd) =>
    (j, k.getLsbD bit,
      cvt c.src c.dst c.mode c.scale (rngWord wd) (elem (codeWidth c.src) (s.opV (codeWidth c.src) (codeOne c.src) a) i))

theorem State.convWords_length (s : State) (c : Ctl) (ps : List (Nat × Nat × Nat)) : (s.convWords c ps).length = ps.length := by
  unfold State.convWords
  split
  · exact drawMany_length ..
  · exact List.length_map _

theorem State.converted_positions (s : State) (c : Ctl) (k : KReg) (a : Sel) (ps : List (Nat × Nat × Nat)) :
    (s.converted c k a ps).map (·.1) = ps.map (·.1) := by
  have hfst : (ps.zip (s.convWords c ps)).map Prod.fst = ps := List.map_fst_zip (s.convWords_length c ps).ge
  rw [State.converted, List.map_map]
  conv_rhs => rw [← hfst, List.map_map]
  rfl

theorem State.mem_converted {s : State} {c : Ctl} (k : KReg) (a : Sel) {ps : List (Nat × Nat × Nat)} {n : Nat}
    {p : Nat × Nat × Nat} (hp : ps[n]? = some p) :
    (p.1, k.getLsbD p.2.2, cvt c.src c.dst c.mode c.scale (rngWord ((s.convWords c ps).getD n 0))
      (elem (codeWidth c.src) (s.opV (codeWidth c.src) (codeOne c.src) a) p.2.1)) ∈ s.converted c k a ps := by
  have hlt : n < (s.convWords c ps).length := s.convWords_length c ps ▸ (List.getElem?_eq_some_iff.1 hp).1
  have hw : (s.convWords c ps)[n]? = some ((s.convWords c ps).getD n 0) := by
    rw [List.getD_eq_getElem?_getD, List.getElem?_eq_getElem hlt, Option.getD_some]
  exact List.mem_map.2 ⟨(p, _), List.mem_iff_getElem?.2 ⟨n, List.getElem?_zip_eq_some.2 ⟨hp, hw⟩⟩, rfl⟩

theorem State.conv_supported {s : State} {v : Conv} {g : Guard} (d : Fin 32) (a cs : Sel) (km : Fin 8) (hg : s.guard g = true)
    (h : v.supports (Ctl.of (s.opC cs)) = true) :
    let c := Ctl.of (s.opC cs)
    let b := codeWidth c.dst
    let on := (s.converted c (s.cur.readK km) a (v.map c)).filter (·.2.1)
    s.conv v g d a cs km = .next ((((s.convDrawn c (v.map c)).putV d 3 (scatter b (on.map fun r => (r.1, 2 ^ b - 1)))
      (scatter b (on.map fun r => (r.1, r.2.2.1)))).flags 3 (on.foldl (fun cl r => cl ||| r.2.2.2) 0))) := by
  rw [State.conv, s.slot_true hg]
  simp only [h, if_true, State.converted, State.convWords, State.convDrawn]
  by_cases hm : (Ctl.of (s.opC cs)).mode = 4
  · simp only [if_pos hm]; rfl
  · simp only [if_neg hm]

theorem State.conv_unsupported {s : State} {v : Conv} {g : Guard} (d : Fin 32) (a cs : Sel) (km : Fin 8) (hg : s.guard g = true)
    (h : v.supports (Ctl.of (s.opC cs)) = false) :
    let b := codeWidth (Ctl.of (s.opC cs)).dst
    s.conv v g d a cs km = .next ((s.putV d 3 (activeBits (s.cur.readK km) (if b = 0 then 32 else b)) 0).flags 3 clsInvalid) := by
  rw [State.conv, s.slot_true hg]
  simp only [h]
  rfl

/-- Settles O13: the five majors share one meaning, which places each converted element at a position of its own. -/
theorem vectorConversions : Obligations.VectorConversions := by
  intro g d a c km v i s hi ct k b ps ws r
  have hexec : exec i s = s.conv v g d a c km := by
    obtain ⟨rfl, rfl⟩ | ⟨rfl, rfl⟩ | ⟨rfl, rfl⟩ | ⟨rfl, rfl⟩ | ⟨rfl, rfl⟩ := hi <;> rfl
  rw [hexec]
  refine ⟨fun hg => s.slot_false hg _, State.conv_unsupported d a c km, fun hg hsup => ?_⟩
  obtain ⟨hnodup, hlt⟩ := Conv.map_positions hsup
  have hrs : ((s.converted ct k a ps).map (·.1)).Nodup := (s.converted_positions ct k a ps).symm ▸ hnodup
  refine ⟨s.convDrawn ct ps, _, _, _, State.conv_supported d a c km hg hsup, rfl, fun n p hp => ?_, fun j hj hne => ?_⟩
  · have hmem := State.mem_converted (s := s) (c := ct) k a hp
    have hpos := hlt p (List.mem_of_getElem? hp)
    have hget : ps.getD n (0, 0, 0) = p := by rw [List.getD_eq_getElem?_getD, hp, Option.getD_some]
    refine ⟨(elem_scatter_filter hrs _ _ hmem hpos).trans ?_, fun hbit => ?_⟩
    · rw [Nat.mod_eq_of_lt (Nat.sub_lt (Nat.two_pow_pos b) Nat.one_pos)]
    · simp only [r, hget]
      exact ⟨(elem_scatter_filter hrs _ _ hmem hpos).trans (if_pos hbit),
        or_foldl_of_mem (fun r => r.2.2.2) (List.mem_filter.2 ⟨hmem, hbit⟩) 0⟩
  · refine elem_scatter_filter_of_not_mem hrs _ _ (fun hm => ?_) hj
    rw [s.converted_positions] at hm
    obtain ⟨p, hp, heq⟩ := List.mem_map.1 hm
    exact hne p hp heq

end Sys2Proof.Machine
